-- ==== Sys2Proof/Word.lean ====
section
/-! DEFINITION. The register word and the byte of the module (R5). -/
namespace Sys2Proof

/-- A register of the module: 32 bits, bit 0 the least significant (R5). -/
abbrev Word := BitVec 32

/-- One byte of a memory, a frame or a FIFO. -/
abbrev Byte := BitVec 8

end Sys2Proof
end

