-- ==== Sys2Proof/Config.lean ====
section
/-! DEFINITION. What one part fixes, and the values the manual leaves open.  None of these constants has a body:
a statement about them holds for every value they could have. -/
namespace Sys2Proof.Config

/-- The ordering variant (R1): true for HDL-GLF64-S2, which has the 2.4 GHz radio.  DESIGN CHOICE, log 3. -/
opaque variantS2 : Bool

/-- The identity words written at manufacture, by their offset in the IDENT page (R601).  DESIGN CHOICE, log 3. -/
opaque identWord : Nat → Word

/-- A word the manual does not fix, fresh at each use: applied to `State.freeCtr`.  DESIGN CHOICE, log 1. -/
opaque freeWord : Nat → Word

/-- A choice among finitely many that the manual leaves open, fresh at each use.  DESIGN CHOICE, log 1. -/
opaque freeNat : Nat → Nat

/-- A byte sequence of a given length that the manual does not fix (random draws, damaged data), fresh at each
use; callers cut it to the length they need.  DESIGN CHOICE, log 1. -/
opaque freeBytes : Nat → List Byte

/-- What fractional-delay interpolation gives of a channel's samples in units of 2^-53 result units, newest first (R308): at a fraction of
2^-12 samples before the one at an index.  The manual does not give its arithmetic.  Log 1. -/
opaque fracDelay : (frac : Nat) → List Int → (index : Nat) → Int

/-- The magnitude of harmonic group h (R315, R316) of the samples of one analysis interval, oldest first, that covers a number of cycles:
the standard's analysis, whose arithmetic the manual does not give.  Log 1. -/
opaque harmonicGroup : (h cycles : Nat) → List Int → Nat

/-- The boot ROM, byte by byte; the manual does not give it.  DESIGN CHOICE, log 2. -/
opaque romByte : Nat → Byte

/-- SHA-256 of a byte string; the algorithm is the standard's, which the manual names (R503).  Log 5. -/
opaque sha256 : List Byte → List Byte

/-- SHA-384 of a byte string, as above.  Log 5. -/
opaque sha384 : List Byte → List Byte

/-- HMAC-SHA-256 of a key and a message, as above.  Log 5. -/
opaque hmacSha256 : List Byte → List Byte → List Byte

/-- AES of one block: key, direction (true decrypts), block.  Log 5. -/
opaque aesBlock : List Byte → Bool → List Byte → List Byte

/-- The GHASH-based tag of AES-GCM: key, nonce, additional data, ciphertext.  Log 5. -/
opaque gcmTag : List Byte → List Byte → List Byte → List Byte → List Byte

/-- AES key wrap of a value under a key.  Log 5. -/
opaque keyWrap : List Byte → List Byte → List Byte

/-- AES key unwrap: none where the wrapped value does not verify.  Log 5. -/
opaque keyUnwrap : List Byte → List Byte → Option (List Byte)

/-- CCM* of IEEE 802.15.4 (R359): key, frame counter, payload; the encrypted payload with its MIC.  The nonce's other fields are the
standard's.  Log 5. -/
opaque ccmSeal : List Byte → Nat → List Byte → List Byte

/-- The hold time that SET_HOLD gives a radio node (R198, R377): the manual names no register of it.  Log 168. -/
opaque radioHold : Nat

/-- An ECDSA signature over P-256 by a private key, of a digest, with a random draw.  Log 5. -/
opaque ecdsaSign : List Byte → List Byte → List Byte → List Byte

/-- ECDSA verification: curve size in bits, public key, digest, signature.  Log 5. -/
opaque ecdsaVerify : Nat → List Byte → List Byte → List Byte → Bool

end Sys2Proof.Config
end

