-- ==== Sys2Proof/Machine/Bits.lean ====
section
/-! DEFINITION. Fields of a word, byte order, serial-number comparison of action times and the check sums. -/
namespace Sys2Proof.Machine

/-- Bits [hi:lo] of a number. -/
def nfld (n hi lo : Nat) : Nat := (n >>> lo) % 2 ^ (hi + 1 - lo)

/-- Field [hi:lo] of a register, as a number (R5). -/
def fld (w : Word) (hi lo : Nat) : Nat := nfld w.toNat hi lo

/-- Bit n of a register. -/
def bit (w : Word) (n : Nat) : Bool := w.toNat.testBit n

/-- A number as a register word. -/
abbrev word (n : Nat) : Word := BitVec.ofNat 32 n

/-- The mask of bits [hi:lo]. -/
def maskOf (hi lo : Nat) : Word := word ((2 ^ (hi + 1 - lo) - 1) <<< lo)

/-- The register with field [hi:lo] set to v. -/
def setFld (w : Word) (hi lo v : Nat) : Word := (w &&& ~~~(maskOf hi lo)) ||| (word (v <<< lo) &&& maskOf hi lo)

/-- The register with bit n set or cleared. -/
def setBit (w : Word) (n : Nat) (b : Bool) : Word :=
  if b then w ||| word (1 <<< n) else w &&& ~~~(word (1 <<< n))

/-- A Bool as a bit. -/
def b01 (b : Bool) : Nat := if b then 1 else 0

/-- A field of `bits` bits read as a two's-complement number. -/
def signed (bits n : Nat) : Int := if n % 2 ^ bits < 2 ^ (bits - 1) then (n % 2 ^ bits : Nat) else (n % 2 ^ bits : Nat) - (2 ^ bits : Nat)

/-- A signed number as a field of `bits` bits. -/
def unsigned (bits : Nat) (i : Int) : Nat := (i % ((2 ^ bits : Nat) : Int)).toNat

/-- A number limited to a range. -/
def clampNat (lo hi n : Nat) : Nat := if n < lo then lo else if hi < n then hi else n

/-- A signed number limited to a range. -/
def clampInt (lo hi n : Int) : Int := if n < lo then lo else if hi < n then hi else n

/-- Counts up and stops at the top. -/
def satInc (top n : Nat) : Nat := if n < top then n + 1 else n

/-- Bytes in little-endian order (R7): `len` bytes of n. -/
def leBytes : Nat → Nat → List Byte
  | 0, _ => []
  | len + 1, n => BitVec.ofNat 8 n :: leBytes len (n / 256)

/-- The number a little-endian byte string spells (R7). -/
def leNat : List Byte → Nat
  | [] => 0
  | b :: bs => b.toNat + 256 * leNat bs

/-- The number a big-endian byte string spells (network byte order, R7). -/
def beNat (bs : List Byte) : Nat := leNat bs.reverse

/-- Bytes in network order: `len` bytes of n. -/
def beBytes (len n : Nat) : List Byte := (leBytes len n).reverse

/-- Words of a byte string, four bytes each, little-endian. -/
def wordsOf : List Byte → List Word
  | a :: b :: c :: d :: r => word (leNat [a, b, c, d]) :: wordsOf r
  | [] => []
  | r => [word (leNat r)]

/-- The bytes of words, little-endian. -/
def bytesOfWords (ws : List Word) : List Byte := ws.flatMap fun w => leBytes 4 w.toNat

/-- The distance of an action time from a millisecond count, as R79 reads it: d = (A - N) mod 2^32, signed. -/
def actDiff (a n : Nat) : Int := signed 32 (a + 2 ^ 32 - n % 2 ^ 32)

/-- A command is due when the distance is not positive (R79). -/
def isDue (a n : Nat) : Bool := decide (actDiff a n ≤ 0)

/-- One bit of the CRC-32 of IEEE 802.3, reflected. -/
def crc32Bit (c : Nat) : Nat := if c % 2 = 1 then (c / 2) ^^^ 0xEDB88320 else c / 2

/-- Applies a function n times. -/
def times (f : Nat → Nat) : Nat → Nat → Nat
  | 0, x => x
  | n + 1, x => times f n (f x)

/-- The CRC-32 register after a byte string. -/
def crc32Run : List Byte → Nat → Nat
  | [], c => c
  | b :: bs, c => crc32Run bs (times crc32Bit 8 (c ^^^ b.toNat))

/-- The CRC-32 of IEEE 802.3 (R399, R600). -/
def crc32 (bs : List Byte) : Nat := crc32Run bs 0xFFFFFFFF ^^^ 0xFFFFFFFF

/-- One bit of the Modbus RTU CRC-16. -/
def crc16Bit (c : Nat) : Nat := if c % 2 = 1 then (c / 2) ^^^ 0xA001 else c / 2

/-- The Modbus CRC-16 register after a byte string. -/
def crc16Run : List Byte → Nat → Nat
  | [], c => c
  | b :: bs, c => crc16Run bs (times crc16Bit 8 (c ^^^ b.toNat))

/-- The RTU CRC-16 that R61 names. -/
def crc16 (bs : List Byte) : Nat := crc16Run bs 0xFFFF

/-- `n` bytes from a list, padded with zeros. -/
def takePad (n : Nat) (l : List Byte) : List Byte := (l ++ List.replicate n 0#8).take n

/-- The list with its k-th element replaced; unchanged where there is none. -/
def setAt {α : Type} : List α → Nat → α → List α
  | [], _, _ => []
  | _ :: l, 0, v => v :: l
  | x :: l, k + 1, v => x :: setAt l k v

/-- The number of set bits among the low n bits. -/
def popCount (n : Nat) : Nat → Nat
  | 0 => 0
  | k + 1 => b01 (n.testBit k) + popCount n k

end Sys2Proof.Machine
end

