-- ==== Sys2Proof/Syntax.lean ====
section
/-! DEFINITION. The commands of the block: one constructor per row of the table of operations and events, with the
row's operands, and the types of those operands. -/
namespace Sys2Proof

/-- A block page of R24. -/
inductive Page where
  | sys | ident | rstclk | pwr | optb | irqr
  | tb (n : Fin 4)
  | ttrig | ptab
  | line (n : Fin 64)
  | lseq | pixb | dim | sched | mir | det | diag | met
  | mch (n : Fin 30)
  | attr | crv
  | rf (n : Fin 2)
  | nupd
  | eth (n : Fin 2)
  | erg | twin | oasis | sec | cryp | dma | cmdq | evq | evr | cont | gpio | ser485 | usbd | memc
deriving DecidableEq, Repr

/-- Who makes a bus access: IRQR targets 0-8 (application cores 0-3, RT0-RT3, the security core) or 9, the DMA
engine (R44, R48); an application core may run below machine mode (R75). -/
structure Ini where
  id : Fin 10
  user : Bool := false
deriving DecidableEq, Repr

/-- A bus access to memory or to a page (R22, R630). -/
inductive MemOp where
  | read (addr size : Nat)
  | write (addr : Nat) (bytes : List Byte)
deriving DecidableEq, Repr

/-- What the ECC logic of a memory saw during an access (R53): nothing, a corrected bit, or an uncorrectable word;
`cell` is the bit within the ECC word (R597). -/
inductive EccEvent where
  | none
  | corrected (cell : Fin 128)
  | uncorrectable (cell : Fin 128)
deriving DecidableEq, Repr

/-- A descriptor that completes (R563): its channel, and what the check bits of the MRAM word at `word` find where it reaches that word
(R53). -/
structure DescEnd where
  ch : Fin 16
  ecc : EccEvent := .none
  word : Nat := 0
deriving DecidableEq, Repr

/-- How the NAND reports an operation (R52): the first try and, where it failed, the retry; `bits` is the most bits
corrected in one codeword of a read. -/
inductive NandResult where
  | ok (bits : Fin 9)
  | okOnRetry (bits : Fin 9)
  | failed
  | badBlock
deriving DecidableEq, Repr

/-- How a write of a memory the block makes itself ended: at once, on its one retry, or not at all (R16). -/
inductive CopyResult where
  | ok
  | okOnRetry
  | failed
deriving DecidableEq, Repr

/-- Where a record for the event recorder comes from: the first engine's offer, or an initiator's `WR_GO` (R587). -/
inductive EvrSrc where
  | engine
  | port (ini : Ini)
deriving DecidableEq, Repr

/-- A secured Caravan frame as the radio hears it (R366, R376): MAC source, frame counter, DSN, key index, and whether it
verifies under that key. -/
structure RadioRx where
  src : Fin 4096
  fc : Nat
  dsn : Nat
  key : Nat
  good : Bool
  /-- Its FCS holds (R393). -/
  fcs : Bool := true
  /-- It is of frame version 2 and of a type and addressing that R359 names. -/
  kindOk : Bool := true
deriving DecidableEq, Repr

/-- A request to join or for a key (R372, R386): the parent that relayed it (0 none), EUI-64, JCTR, whether its MIC holds
under IK, FLAGS and POLL_S. -/
structure JoinReq where
  via : Fin 4096
  eui : Nat
  jctr : Nat
  mic : Bool
  flags : Nat
  pollS : Nat
deriving DecidableEq, Repr

/-- An Erg message's header but for its TYPE, and its payload (R439). -/
structure ErgMessage where
  ackReq : Bool
  flood : Option (Nat × Nat)
  src : Nat
  dst : Nat
  ttl : Nat
  session : Nat
  seq : Nat
  payload : List Byte
deriving DecidableEq, Repr

/-- What a PHY and its partner resolve to (R412, R434): 0 10, 1 100, 2 1000 Mbit/s. -/
structure EthPartner where
  speed : Fin 3
  fullDuplex : Bool
  master : Bool
  mdix : Bool
  pause : Bool
  asm : Bool
deriving DecidableEq, Repr

/-- A command as the journal of a twin carries it (R469): the point, opcode, argument, action time, and what its engine
keeps of it. -/
structure JrnCmd where
  point : Nat
  op : Nat
  arg : Nat
  act : Nat
  urgent : Bool
  src : Nat
  cause : Nat
  prio : Nat
  uid : Nat
deriving DecidableEq, Repr

/-- What a twin link message says (R467-R476): the items of R469 as the model's data, for the manual gives no format. -/
inductive LinkItem where
  /-- A heartbeat: the sender's TB0, whether it is in control, and its STATE. -/
  | heartbeat (sec ns : Nat) (ctrl : Bool) (state : Fin 6)
  /-- The acknowledgement of a message. -/
  | ack (seq : Nat)
  /-- The bulk copy has come this far, in percent. -/
  | progress (percent : Fin 101)
  /-- A configuration half. -/
  | cfg (i : Fin 12288) (half : List Word)
  /-- A state half. -/
  | st (i : Fin 12288) (half : List Word)
  /-- An entry of the DIM request table. -/
  | request (i : Fin 12288) (p : Fin 8) (entry : List Byte)
  /-- Base hours of a point. -/
  | hours (i : Fin 12288) (h : Nat)
  /-- The pre-emphasis step of a line. -/
  | preEmph (n : Fin 64) (step : Nat)
  /-- A Caravan session, in the words of R387. -/
  | session (n : Fin 4096) (ws : List Word)
  /-- EPOCH, NGEN and FC_TX. -/
  | caravan (epoch ngen fcTx : Nat)
  /-- A track handed in by a neighbour (R271). -/
  | track (src : Fin 4096) (ws : List Word)
  /-- A track that a neighbour has cancelled (R271). -/
  | trackCancel (src : Fin 4096) (ws : List Word)
  /-- A pair of the flood record. -/
  | flood (origin oseq : Nat)
  /-- Bytes of NUPD's resume region, by MRAM offset. -/
  | nupd (off : Nat) (bytes : List Byte)
  /-- EA_IMP and EA_EXP of a phase slot. -/
  | totals (slot : Fin 24) (imp exp : Nat)
  /-- The journal: a command was handed over for a place (a line position, 0 for a radio point). -/
  | handed (place : Nat) (c : JrnCmd)
  /-- The journal: a command was given its SEQ. -/
  | seqGiven (point place uid seq : Nat)
  /-- The journal: a command was acknowledged. -/
  | acked (point place uid : Nat)
  /-- The journal: a command was revoked before it was sent. -/
  | revoked (point place uid : Nat)
  /-- A line has been released (R476). -/
  | lineReleased (n : Fin 64)
  /-- A planned switchover is requested (R475). -/
  | switchReq
  /-- The instant of a planned switchover (R475). -/
  | switchAt (t : Nat)
deriving DecidableEq, Repr

/-- What a unit tells its peer when identity is exchanged (R465). -/
structure TwinIdent where
  order : Nat
  fabAddr : Nat
  roleB : Bool
  sameVersion : Bool
  serial : Nat
  ctrl : Bool
deriving DecidableEq, Repr

/-- What meets the mailbox request being completed (R504, R513): nothing; a NOR write or the entropy source's health test held on its
retry; the retry of a NOR write failed before the commit point, or the entropy source failed its health tests again; the retry
of the second copy's write failed. -/
inductive SecFault where
  | none
  | retried
  | early
  | late
deriving DecidableEq, Repr

/-- What the boot ROM meets at a release (R530-R536): which copies of the first boot stage verify, whether the fuse bank and
both NOR copies of each slot hold (the slots that fail in copy A, in copy B), whether every image of the set loads, which
component's copy-in or copy-back fails its retry, whether a copy or an image holds on its retry alone, whether the fuse write of MIN_SVN fails its retry, and how often the
identity check fails (R600). -/
structure BootFacts where
  stageA : Bool := true
  stageB : Bool := true
  fuseOk : Bool := true
  badA : List (Fin 64) := []
  badB : List (Fin 64) := []
  imagesOk : Bool := true
  copyFails : Option (Fin 5) := none
  copyRetried : Bool := false
  imageRetried : Bool := false
  svnFails : Bool := false
  identFails : Fin 3 := 0
deriving DecidableEq, Repr

/-- A command: one row of the table (the mnemonic and its rule stand at each constructor). -/
inductive Instr where
  /-- REG_WRITE (R25). -/
  | regWrite (ini : Ini) (addr : Nat) (v : Word)
  /-- MEM_ACCESS (R630). -/
  | memAccess (ini : Ini) (op : MemOp) (ecc : EccEvent)
  /-- BLK_ENABLE (R631). -/
  | blkEnable (ini : Ini) (p : Page)
  /-- BLK_DISABLE (R631). -/
  | blkDisable (ini : Ini) (p : Page)
  /-- QUIESCE_REQ (R35). -/
  | quiesceReq (ini : Ini) (p : Page)
  /-- QUIESCE_RELEASE (R36). -/
  | quiesceRelease (ini : Ini) (p : Page)
  /-- QUIESCED (R35). -/
  | quiesced (p : Page)
  /-- SLEEP_REQ (R37). -/
  | sleepReq (ini : Ini) (p : Page)
  /-- SLEEP_RELEASE (R37). -/
  | sleepRelease (ini : Ini) (p : Page)
  /-- IRQ_STAT_CLEAR (R31). -/
  | irqStatClear (ini : Ini) (p : Page) (v : Word)
  /-- LOCK_KEY (R33). -/
  | lockKey (ini : Ini) (p : Page)
  /-- LOCK_MASK (R33). -/
  | lockMask (ini : Ini) (p : Page) (v : Word)
  /-- BLK_RST_ERRORS (R39). -/
  | blkRstErrors (ini : Ini) (p : Page)
  /-- BLK_RST_DATAPATH (R39). -/
  | blkRstDatapath (ini : Ini) (p : Page)
  /-- BLK_RST_FULL (R39). -/
  | blkRstFull (ini : Ini) (p : Page)
  /-- BAD_RESET (R40). -/
  | badReset (ini : Ini) (p : Page) (reach : Fin 16)
  /-- BLOCK_RESET_DONE (R41). -/
  | blockResetDone (p : Page)
  /-- SWI_SET (R45). -/
  | swiSet (ini : Ini) (v : Word)
  /-- SWI_CLR (R45). -/
  | swiClr (ini : Ini) (v : Word)
  /-- IRQ_CLAIM (R47). -/
  | irqClaim (ini : Ini) (t : Fin 9)
  /-- IRQ_DONE (R47). -/
  | irqDone (ini : Ini) (t : Fin 9) (v : Word)
  /-- CORE_REL (R49). -/
  | coreRel (ini : Ini) (v : Word)
  /-- NAND_READ (R52). -/
  | nandRead (ini : Ini)
  /-- NAND_PROGRAM (R52). -/
  | nandProgram (ini : Ini)
  /-- NAND_ERASE (R52). -/
  | nandErase (ini : Ini)
  /-- NAND_DONE (R52). -/
  | nandDone (ini : Fin 10) (r : NandResult)
  /-- ARM (R56). -/
  | arm (ini : Ini) (v : Word)
  /-- FIRE (R56). -/
  | fire (ini : Ini) (v : Word)
  /-- ARM_LAPSED (R56). -/
  | armLapsed
  /-- PULSE_DONE (R56). -/
  | pulseDone (c : Fin 8)
  /-- HOLD_OFF_END (R56). -/
  | holdOffEnd (c : Fin 8)
  /-- GP_SET (R58). -/
  | gpSet (ini : Ini) (v : Word)
  /-- GP_CLR (R58). -/
  | gpClr (ini : Ini) (v : Word)
  /-- GP_TGL (R58). -/
  | gpTgl (ini : Ini) (v : Word)
  /-- GPIO_EDGE (R59). -/
  | gpioEdge (n : Fin 16) (rising : Bool)
  /-- MB_GO (R63). -/
  | mbGo (ini : Ini) (q : Fin 2) (v : Word)
  /-- MB_RESPONSE (R63). -/
  | mbResponse (q : Fin 2) (frame : List Byte) (framingOk : Bool)
  /-- MB_RESP_TIMEOUT (R63). -/
  | mbRespTimeout (q : Fin 2)
  /-- MB_TURN_DONE (R63). -/
  | mbTurnDone (q : Fin 2)
  /-- RAW_TX_WRITE (R64). -/
  | rawTxWrite (ini : Ini) (q : Fin 2) (v : Word)
  /-- RAW_RX_BYTE (R64). -/
  | rawRxByte (q : Fin 2) (b : Byte)
  /-- RAW_RX_POP (R64). -/
  | rawRxPop (ini : Ini) (q : Fin 2)
  /-- RAW_RX_SILENCE (R64). -/
  | rawRxSilence (q : Fin 2)
  /-- EP_ARM (R68). -/
  | epArm (ini : Ini) (e : Fin 6) (v : Word)
  /-- EP_STALL (R68). -/
  | epStall (ini : Ini) (e : Fin 6) (v : Word)
  /-- EP_DONE (R68). -/
  | epDone (e : Fin 6) (data : List Byte) (short : Bool)
  /-- SETUP (R68). -/
  | setup (bytes : List Byte)
  /-- BUS_RESET (R68). -/
  | busReset (high : Bool)
  /-- SUSPEND (R66). -/
  | suspend
  /-- VBUS_CHG (R67). -/
  | vbusChg (present : Bool)
  /-- INC_COMMIT (R76). -/
  | incCommit (ini : Ini) (n : Fin 4) (v : Word)
  /-- SLEW_START (R76). -/
  | slewStart (ini : Ini) (n : Fin 4) (v : Word)
  /-- SLEW_END (R76). -/
  | slewEnd (ini : Ini) (n : Fin 4)
  /-- SLEW_EXPIRE (R76). -/
  | slewExpire (n : Fin 4)
  /-- STEP_ABSOLUTE (R75). -/
  | stepAbsolute (ini : Ini) (n : Fin 4)
  /-- STEP_OFFSET (R75). -/
  | stepOffset (ini : Ini) (n : Fin 4)
  /-- STEP_ARM (R75). -/
  | stepArm (ini : Ini) (n : Fin 4) (v : Word)
  /-- NOW_NS_READ (R78). -/
  | nowNsRead (ini : Ini) (n : Fin 4)
  /-- TRG_ARM (R83). -/
  | trgArm (ini : Ini) (u : Fin 16) (v : Word)
  /-- TRIGGER_FIRE (R83). -/
  | triggerFire (u : Fin 16)
  /-- CAPTURE_EDGE (R85). -/
  | captureEdge (src : Fin 35) (rising : Bool)
  /-- CAP_POP (R81). -/
  | capPop (ini : Ini) (c : Fin 8)
  /-- PT_BASE_WRITE (R89). -/
  | ptBaseWrite (ini : Ini) (v : Word)
  /-- RESTORE (R118). -/
  | restore (ini : Ini)
  /-- RESTORE_DONE (R118). -/
  | restoreDone
  /-- FLUSH_ALL (R104). -/
  | flushAll (ini : Ini)
  /-- FLUSH (R115). -/
  | flush (ini : Ini) (i : Fin 16384)
  /-- FLUSH_DONE (R115). -/
  | flushDone
  /-- PIN (R102). -/
  | pin (ini : Ini) (i : Fin 16384)
  /-- UNPIN (R104). -/
  | unpin (ini : Ini) (i : Fin 16384)
  /-- CKPT_ALL (R119). -/
  | ckptAll (ini : Ini)
  /-- CKPT_ALL_DONE (R119). -/
  | ckptAllDone
  /-- INVAL (R113). -/
  | inval (ini : Ini) (v : Word)
  /-- WP_CMD (R107). -/
  | wpCmd (ini : Ini)
  /-- RD_INDEX (R111). -/
  | rdIndex (ini : Ini) (v : Word)
  /-- PT_LOOKUP (R99). -/
  | ptLookup (who : Page) (i : Nat) (wr : Option (Fin 64 × Word))
  /-- WB_SWEEP (R100). -/
  | wbSweep
  /-- CKPT_COPY_DONE (R116). -/
  | ckptCopyDone (r : CopyResult)
  /-- EL_CTRL_WRITE (R135). -/
  | elCtrlWrite (ini : Ini) (n : Fin 64) (v : Word)
  /-- LBD_WINDOW_END (R147). -/
  | lbdWindowEnd (n : Fin 64)
  /-- FOREIGN_DRIVE (R147). -/
  | foreignDrive (n : Fin 64)
  /-- CONTENTION (R148). -/
  | contention (n : Fin 64)
  /-- BACKOFF_END (R149). -/
  | backoffEnd (n : Fin 64)
  /-- DRV_OVERCURRENT (R151). -/
  | drvOvercurrent (n : Fin 64)
  /-- OCP_RETRY_WAIT_END (R151). -/
  | ocpRetryWaitEnd (n : Fin 64)
  /-- DRV_OVERTEMP (R152). -/
  | drvOvertemp (n : Fin 64)
  /-- DRV_TEMP_RECOVER (R152). -/
  | drvTempRecover (n : Fin 64)
  /-- UNDRIVEN (R136). -/
  | undriven (n : Fin 64)
  /-- RETURN_PREAMBLE (R139). -/
  | returnPreamble (n : Fin 64) (highs : List Nat) (vhi vlo : Int) (rtt : Nat)
  /-- PE_EVALUATE (R144). -/
  | peEvaluate (n : Fin 64)
  /-- RUN_START (R183). -/
  | runStart (ini : Ini) (n : Fin 64) (v : Word)
  /-- RUN_STOP (R188). -/
  | runStop (ini : Ini) (n : Fin 64) (v : Word)
  /-- CYCLE_START (R191). -/
  | cycleStart (n : Fin 64)
  /-- FRAME_FIX (R192). -/
  | frameFix (n : Fin 64)
  /-- FORWARD_PHASE_END (R162). -/
  | forwardPhaseEnd (n : Fin 64)
  /-- HANDOVER (R195). -/
  | handover (src : Fin 3) (k : Nat)
  /-- LSEQ_REVOKE (R196). -/
  | lseqRevoke (nupd : Bool) (k : Nat)
  /-- LURG (R199). -/
  | lurg (n : Fin 64)
  /-- RETURN_STREAM (R201). -/
  | returnStream (n : Fin 64) (slots : List (Nat × Nat)) (bitErrs : Nat)
  /-- RETURN_TIMEOUT (R202). -/
  | returnTimeout (n : Fin 64)
  /-- LN_FREQ (R203). -/
  | lnFreq (ini : Ini) (n : Fin 64) (v : Word)
  /-- GRP_COMMIT (R206). -/
  | grpCommit (ini : Ini) (g : Fin 8) (v : Word)
  /-- PDATA_START (R208). -/
  | pdataStart (n : Fin 64) (delay : Nat)
  /-- PSWAP (R207). -/
  | pswap (n : Fin 64) (delay : Nat)
  /-- KEEPALIVE (R208). -/
  | keepalive (n : Fin 64)
  /-- PIXEL_RETURN (R210). -/
  | pixelReturn (n : Fin 64) (words : List (Nat × Nat))
  /-- PCFG_PLACE (R211). -/
  | pcfgPlace (n : Fin 64)
  /-- POST (R216). -/
  | post (ini : Ini)
  /-- RELEASE (R232). -/
  | release (ini : Ini)
  /-- REVOKE (R230). -/
  | revoke (ini : Ini)
  /-- SET_HOURS (R237). -/
  | setHours (ini : Ini)
  /-- REQUEST_ACTED (R217). -/
  | requestActed (i : Fin 12288) (p : Fin 8)
  /-- DURATION_END (R216). -/
  | durationEnd (i : Fin 12288) (p : Fin 8)
  /-- EVALUATE (R219). -/
  | evaluate
  /-- PENDING_PASSED (R226). -/
  | pendingPassed (i : Fin 12288)
  /-- CLO_SWEEP (R224). -/
  | cloSweep
  /-- LUX_LOOP (R221). -/
  | luxLoop (i : Fin 12288)
  /-- CCT_LOOP (R222). -/
  | cctLoop (i : Fin 12288)
  /-- LOOP_IDX (R237). -/
  | loopIdx (ini : Ini) (v : Word)
  /-- STEP_POSTED (R243). -/
  | stepPosted (p : Fin 64) (k : Fin 32)
  /-- SCHED_STEP_RELEASE (R243). -/
  | schedStepRelease (p : Fin 64) (k : Fin 32)
  /-- DAY_ROLL (R245). -/
  | dayRoll
  /-- RELOAD (R244). -/
  | reload (ini : Ini) (v : Word)
  /-- TZ_OFFSET_WRITE (R244). -/
  | tzOffsetWrite (ini : Ini) (v : Word)
  /-- PROG_EN_WRITE (R244). -/
  | progEnWrite (ini : Ini) (hi : Bool) (v : Word)
  /-- HOLD_CLEAR (R246). -/
  | holdClear (ini : Ini) (v : Word)
  /-- DET_EDGE (R251). -/
  | detEdge (n : Fin 16) (rising : Bool)
  /-- IN_MS_POP (R252). -/
  | inMsPop (ini : Ini) (n : Fin 16)
  /-- DET_RELOAD (R254). -/
  | detReload (ini : Ini) (v : Word)
  /-- PAIR_A_EXPIRE (R256). -/
  | pairAExpire (d : Fin 512)
  /-- MIR_EVENT (R258). -/
  | mirEvent
  /-- MIR_TICK (R262). -/
  | mirTick
  /-- CONF_TIMEOUT (R260). -/
  | confTimeout (c : Fin 256)
  /-- TRACK_FREE (R263). -/
  | trackFree (c : Fin 256)
  /-- TRK_KILL (R268). -/
  | trkKill (ini : Ini) (v : Word)
  /-- INJ_CMD (R256). -/
  | injCmd (ini : Ini)
  /-- TRK_IDX (R280). -/
  | trkIdx (ini : Ini) (v : Word)
  /-- TRACK_HANDOVER_RX (R272). -/
  | trackHandoverRx (src : Fin 4096) (ws : List Word)
  /-- TRACK_CANCEL_RX (R269). -/
  | trackCancelRx (src : Fin 4096) (ws : List Word)
  /-- CANCEL_RECORD_EXPIRE (R273). -/
  | cancelRecordExpire
  /-- STRIP_REBUILD (R248). -/
  | stripRebuild (k : Fin 64)
  /-- STRIP_ENABLE (R250). -/
  | stripEnable (ini : Ini) (k : Fin 64) (v : Word)
  /-- STRIP_DISABLE (R250). -/
  | stripDisable (ini : Ini) (k : Fin 64) (v : Word)
  /-- MIR_MODE_OFF (R277). -/
  | mirModeOff (ini : Ini)
  /-- MIR_MODE_SHADOW (R277). -/
  | mirModeShadow (ini : Ini)
  /-- MIR_MODE_ACTIVE (R277). -/
  | mirModeActive (ini : Ini)
  /-- OBSERVATION (R283). -/
  | observation
  /-- LINE_REPORT (R294). -/
  | lineReport
  /-- PROOF_DUE (R290). -/
  | proofDue (i : Fin 12288)
  /-- PROOF_REQ (R292). -/
  | proofReq (ini : Ini) (v : Word)
  /-- CLR (R289). -/
  | clr (ini : Ini) (v : Word)
  /-- BURN_SECOND (R296). -/
  | burnSecond
  /-- RADIO_REPORT_DUE (R295). -/
  | radioReportDue (i : Fin 12288)
  /-- DIAG_MODE_OFF (R299). -/
  | diagModeOff (ini : Ini)
  /-- DIAG_MODE_SHADOW (R299). -/
  | diagModeShadow (ini : Ini)
  /-- DIAG_MODE_ACTIVE (R299). -/
  | diagModeActive (ini : Ini)
  /-- MF_FRAME (R309). -/
  | mfFrame (r : CopyResult) (sets : List (List Int))
  /-- POWER_SAMPLE_END (R317). -/
  | powerSampleEnd
  /-- WINDOW_END (R314). -/
  | windowEnd (r : CopyResult)
  /-- WIN_READY (R322). -/
  | winReady
  /-- SNAP (R321). -/
  | snap (ini : Ini) (v : Word)
  /-- SNAP_READY (R322). -/
  | snapReady
  /-- TOT_CLR (R327). -/
  | totClr (ini : Ini) (v : Word)
  /-- CAL_CHANGE (R312). -/
  | calChange (ini : Ini) (addr : Nat) (v : Word)
  /-- RELEARN (R331). -/
  | relearn (ini : Ini) (v : Word)
  /-- TEST_OUT_PULSE (R333). -/
  | testOutPulse
  /-- ATTR_SELECT (R340). -/
  | attrSelect (c : Fin 24)
  /-- ROUND_START (R341). -/
  | roundStart (c : Fin 24)
  /-- CHIP_HANDOVER (R342). -/
  | chipHandover (c : Fin 24)
  /-- ATTR_SOLVE (R347). -/
  | attrSolve (c : Fin 24)
  /-- ROUND_DONE (R350). -/
  | roundDone (c : Fin 24)
  /-- ABORT (R346). -/
  | abort (ini : Ini) (v : Word)
  /-- ATTR_MODE_OFF (R352). -/
  | attrModeOff (ini : Ini)
  /-- ATTR_MODE_SHADOW (R352). -/
  | attrModeShadow (ini : Ini)
  /-- ATTR_MODE_ACTIVE (R352). -/
  | attrModeActive (ini : Ini)
  /-- CARAVAN_SLOT (R362). -/
  | caravanSlot (rssi : Int)
  /-- STATUS (R368). -/
  | status (f : RadioRx) (origin : Option (Fin 4096)) (st data gack : Nat)
  /-- SENSOR (R369). -/
  | sensor (f : RadioRx) (origin : Option (Fin 4096)) (evseq stamp dirUs speed : Nat)
  /-- POLL (R381). -/
  | poll (f : RadioRx) (e : Int)
  /-- JOIN_REQ (R372). -/
  | joinReq (q : JoinReq)
  /-- KEY_REQ (R386). -/
  | keyReq (q : JoinReq)
  /-- REPARENT (R374). -/
  | reparent (f : RadioRx) (origin : Option (Fin 4096)) (parent : Fin 4096)
  /-- ERG_RF (R450). -/
  | ergRf (pan fc dsn : Nat) (good : Bool) (payload : List Byte)
  /-- NACK (R402). -/
  | nack (f : RadioRx) (origin : Option (Fin 4096)) (camp miss held : Nat)
  /-- HOP_ACK (R375). -/
  | hopAck
  /-- HOP_ACK_MISS (R375). -/
  | hopAckMiss
  /-- CRV_HANDOVER (R377). -/
  | crvHandover (src : Fin 3) (k : Nat) (rev : Bool)
  /-- ACK_TMO (R379). -/
  | ackTmo (i : Fin 12288)
  /-- LOST (R384). -/
  | lost (n : Fin 4096)
  /-- LEASE_END (R373). -/
  | leaseEnd (n : Fin 4096)
  /-- EVICT (R373). -/
  | evict (ini : Ini) (v : Word)
  /-- ROLL (R386). -/
  | roll (ini : Ini) (v : Word)
  /-- ROLL_SWITCH (R386). -/
  | rollSwitch
  /-- ROLL_DONE (R386). -/
  | rollDone
  /-- HELD_FRAME_EXPIRE (R382). -/
  | heldFrameExpire (n : Fin 4096)
  /-- SES_IDX (R387). -/
  | sesIdx (ini : Ini) (v : Word)
  /-- CRV_MODE_OFF (R388). -/
  | crvModeOff (ini : Ini)
  /-- CRV_MODE_SHADOW (R388). -/
  | crvModeShadow (ini : Ini)
  /-- CRV_MODE_ACTIVE (R385). -/
  | crvModeActive (ini : Ini)
  /-- START (R394). -/
  | start (ini : Ini)
  /-- ACTIVATE (R404). -/
  | activate (ini : Ini)
  /-- NUPD_ABORT (R406). -/
  | nupdAbort (ini : Ini)
  /-- RESUME (R409). -/
  | resume (ini : Ini)
  /-- PAUSE (R410). -/
  | pause (ini : Ini)
  /-- NUPD_ROUND_END (R403). -/
  | nupdRoundEnd
  /-- NUPD_ARM (R404). -/
  | nupdArm
  /-- CHECK (R405). -/
  | check
  /-- PHY_RST_CLEAR (R413). -/
  | phyRstClear (ini : Ini) (n : Fin 2)
  /-- RESTART_AN (R434). -/
  | restartAn (ini : Ini) (n : Fin 2) (v : Word)
  /-- LINK_UP (R413). -/
  | linkUp (n : Fin 2) (k : EthPartner)
  /-- LINK_DOWN (R423). -/
  | linkDown (n : Fin 2)
  /-- RX_FRAME (R414). -/
  | rxFrame (n : Fin 2) (frame : List Byte) (fifo : Nat)
  /-- PAUSE_RX (R426). -/
  | pauseRx (n : Fin 2) (q : Fin 65536)
  /-- PAUSE_EXPIRE (R426). -/
  | pauseExpire (n : Fin 2)
  /-- XOFF_REPEAT (R427). -/
  | xoffRepeat (n : Fin 2) (fifo : Nat)
  /-- RXR_TAIL (R416). -/
  | rxrTail (ini : Ini) (n : Fin 2) (v : Word)
  /-- TXR_TAIL (R416). -/
  | txrTail (ini : Ini) (n : Fin 2) (v : Word)
  /-- TX_FRAME_START (R422). -/
  | txFrameStart (n : Fin 2)
  /-- TX_DONE (R423). -/
  | txDone (n : Fin 2)
  /-- WAKE (R430). -/
  | wake (n : Fin 2) (frame : List Byte)
  /-- ERG_MODE_OFF (R438). -/
  | ergModeOff (ini : Ini)
  /-- ERG_MODE_ACTIVE (R437). -/
  | ergModeActive (ini : Ini)
  /-- ERG_MODE_SHADOW (R453). -/
  | ergModeShadow (ini : Ini)
  /-- CLAIM_HELLO (R437). -/
  | claimHello
  /-- CLAIM_END (R437). -/
  | claimEnd
  /-- HELLO (R442). -/
  | hello (p : Fin 2) (mac ip : Nat) (m : ErgMessage)
  /-- HELLO_INT (R443). -/
  | helloInt
  /-- ROAD_INT (R443). -/
  | roadInt
  /-- PATH_DOWN (R442). -/
  | pathDown (e : Fin 64) (p : Fin 2)
  /-- ERG_ACK (R447). -/
  | ergAck (path : Fin 3) (m : ErgMessage)
  /-- ERG_MSG (R445). -/
  | ergMsg (path : Fin 3) (type : Nat) (m : ErgMessage)
  /-- ERG_SEND (R448). -/
  | ergSend
  /-- HTX_TAIL (R452). -/
  | htxTail (ini : Ini) (v : Word)
  /-- HRX_TAIL (R452). -/
  | hrxTail (ini : Ini) (v : Word)
  /-- ERG_ACK_TMO (R447). -/
  | ergAckTmo (k : Nat)
  /-- NBR_RELOAD (R441). -/
  | nbrReload (ini : Ini) (v : Word)
  /-- REASSEMBLY_TIMEOUT (R450). -/
  | reassemblyTimeout (pan : Nat)
  /-- FLOOD_RECORD_EXPIRE (R451). -/
  | floodRecordExpire
  /-- ARB_PULSE (R462). -/
  | arbPulse
  /-- ARB_EDGE_PEER (R463). -/
  | arbEdgePeer
  /-- ARB_EDGE_OWN (R466). -/
  | arbEdgeOwn
  /-- CLASH_WAIT_END (R466). -/
  | clashWaitEnd
  /-- ARB_SILENT (R462). -/
  | arbSilent (low full : Bool)
  /-- TW_HEALTH (R464). -/
  | twHealth (ini : Ini) (v : Word)
  /-- HEALTH_STALE (R464). -/
  | healthStale
  /-- PRES_CHANGE (R461). -/
  | presChange (present : Bool)
  /-- IDENTITY_EXCHANGE (R465). -/
  | identityExchange (p : TwinIdent)
  /-- SYNCED (R468). -/
  | synced
  /-- LINK_MESSAGE (R471). -/
  | linkMessage (lane : Fin 2) (seq : Nat) (item : LinkItem)
  /-- LINK_ACK_TIMEOUT (R471). -/
  | linkAckTimeout (seq : Nat)
  /-- HEARTBEAT (R471). -/
  | heartbeat
  /-- LANE_DOWN (R471). -/
  | laneDown (l : Fin 2)
  /-- PEER_LOST (R473). -/
  | peerLost
  /-- SWITCH (R475). -/
  | switch (ini : Ini)
  /-- DETACH (R478). -/
  | detach (ini : Ini)
  /-- RESYNC (R480). -/
  | resync (ini : Ini)
  /-- RECLAIM (R475). -/
  | reclaim
  /-- SWITCHOVER_T (R476). -/
  | switchoverT
  /-- LINE_RELEASED (R476). -/
  | lineReleased (n : Fin 64)
  /-- SET_BIN (R487). -/
  | setBin (ini : Ini)
  /-- SET_CAL (R490). -/
  | setCal (ini : Ini)
  /-- RTC_FRAC_READ (R486). -/
  | rtcFracRead (ini : Ini)
  /-- ALARM_ARM (R491). -/
  | alarmArm (ini : Ini) (v : Word)
  /-- ALARM_FIRE (R491). -/
  | alarmFire (k : Fin 2)
  /-- PWAKE (R493). -/
  | pwake
  /-- REST (R494). -/
  | rest (ini : Ini)
  /-- PWR_ON_RELEASE (R494). -/
  | pwrOnRelease
  /-- REST_MIN_END (R494). -/
  | restMinEnd
  /-- TAMPER_SAMPLE (R497). -/
  | tamperSample (driven high : Fin 16)
  /-- MESH_CHECK (R498). -/
  | meshCheck (mismatch : Bool)
  /-- TAMP_STAT_CLEAR (R499). -/
  | tampStatClear (ini : Ini) (v : Word)
  /-- VBAT_MEASURE (R500). -/
  | vbatMeasure (mv : Nat)
  /-- SYNC_BUSY_END (R484). -/
  | syncBusyEnd
  /-- BACKUP_POR (R483). -/
  | backupPor
  /-- BACKUP_POR_RELEASE (R494). -/
  | backupPorRelease
  /-- INFO (R520). -/
  | info (ini : Ini)
  /-- LOAD (R511). -/
  | load (ini : Ini)
  /-- VERIFY (R512). -/
  | verify (ini : Ini)
  /-- COMMIT (R513). -/
  | commit (ini : Ini)
  /-- ERASE (R513). -/
  | erase (ini : Ini)
  /-- DERIVE (R516). -/
  | derive (ini : Ini)
  /-- MAC (R520). -/
  | mac (ini : Ini)
  /-- SIGN (R520). -/
  | sign (ini : Ini)
  /-- WRAP (R520). -/
  | wrap (ini : Ini)
  /-- EXTEND (R515). -/
  | extend (ini : Ini)
  /-- ATTEST (R517). -/
  | attest (ini : Ini)
  /-- NONCE (R518). -/
  | nonce (ini : Ini)
  /-- EXEC (R518). -/
  | exec (ini : Ini)
  /-- BAD_OP (R520). -/
  | badOp (ini : Ini)
  /-- NONCE_EXPIRE (R518). -/
  | nonceExpire
  /-- MB_RES_READ (R521). -/
  | mbResRead (ini : Ini) (w : Fin 16)
  /-- AES_ECB (R522). -/
  | aesEcb (ini : Ini)
  /-- AES_CBC (R522). -/
  | aesCbc (ini : Ini)
  /-- AES_CTR (R522). -/
  | aesCtr (ini : Ini)
  /-- AES_GCM (R522). -/
  | aesGcm (ini : Ini)
  /-- SHA_256 (R522). -/
  | sha256 (ini : Ini)
  /-- SHA_384 (R522). -/
  | sha384 (ini : Ini)
  /-- HMAC_SHA_256 (R522). -/
  | hmacSha256 (ini : Ini)
  /-- P256_VERIFY (R522). -/
  | p256Verify (ini : Ini)
  /-- P384_VERIFY (R522). -/
  | p384Verify (ini : Ini)
  /-- DRBG (R522). -/
  | drbg (ini : Ini)
  /-- ALG_INVALID (R522). -/
  | algInvalid (ini : Ini)
  /-- CRYP_DONE (R523). -/
  | crypDone
  /-- CR_KLOAD (R522). -/
  | crKload (ini : Ini) (v : Word)
  /-- CR_OUT_READ (R523). -/
  | crOutRead (ini : Ini) (w : Fin 16)
  /-- OPT_COMMIT (R529). -/
  | optCommit (ini : Ini) (r : CopyResult)
  /-- HEALTHY (R537). -/
  | healthy (ini : Ini) (fuse : CopyResult)
  /-- STAGE (R533). -/
  | stage (ini : Ini)
  /-- UNSTAGE (R533). -/
  | unstage (ini : Ini)
  /-- RESET_N_ASSERT (R542). -/
  | resetNAssert
  /-- RESET_N_RELEASE (R542). -/
  | resetNRelease
  /-- CORE_POR (R541). -/
  | corePor (vinLow : Bool)
  /-- CORE_RESET_RELEASE (R543). -/
  | coreResetRelease (b : BootFacts)
  /-- WDT_KICK (R544). -/
  | wdtKick (ini : Ini) (v : Word)
  /-- WDT_WARN (R544). -/
  | wdtWarn
  /-- WATCHDOG (R544). -/
  | watchdog (window : Bool)
  /-- SW_RST (R544). -/
  | swRst (ini : Ini) (v : Word)
  /-- PWR_FAIL (R551). -/
  | pwrFail
  /-- PWR_OK (R551). -/
  | pwrOk
  /-- TCXO_LOSS (R554). -/
  | tcxoLoss
  /-- TCXO_VALID (R554). -/
  | tcxoValid
  /-- PLL_UNLOCK (R553). -/
  | pllUnlock (p : Fin 8) (again : Bool)
  /-- PLL_LOCK (R553). -/
  | pllLock (p : Fin 8)
  /-- IDLE (R549). -/
  | idle (ini : Ini) (wfi : Fin 16)
  /-- IDLE_POLL (R549). -/
  | idlePoll
  /-- IDLE_EXIT (R549). -/
  | idleExit
  /-- DFS_REQ (R555). -/
  | dfsReq (ini : Ini) (v : Word)
  /-- THERM_CAP (R555). -/
  | thermCap (temp : Int)
  /-- AVS_TICK (R556). -/
  | avsTick (m : Fin 256)
  /-- CH_GO (R559). -/
  | chGo (ini : Ini) (c : Fin 16)
  /-- DESC_COMPLETE (R563). -/
  | descComplete (c : DescEnd)
  /-- DMA_HALT (R564). -/
  | dmaHalt (c : Fin 16) (early : Bool)
  /-- CLEAR_HALT (R565). -/
  | clearHalt (ini : Ini)
  /-- CQ_PUSH (R570). -/
  | cqPush (ini : Ini) (v : Word)
  /-- CQ_HEAD (R571). -/
  | cqHead (early : Bool)
  /-- CQ_WAIT_POLL (R571). -/
  | cqWaitPoll
  /-- POLL_TMO (R572). -/
  | pollTmo
  /-- CQ_RESUME (R572). -/
  | cqResume (ini : Ini)
  /-- CQ_FLUSH (R572). -/
  | cqFlush (ini : Ini)
  /-- ES_PUSH (R576). -/
  | esPush (ini : Ini) (k : Fin 8) (v : Word)
  /-- ES_POP (R577). -/
  | esPop (ini : Ini) (k : Fin 8)
  /-- MARK (R579). -/
  | mark (ini : Ini) (k : Fin 8)
  /-- REWIND (R579). -/
  | rewind (ini : Ini) (k : Fin 8)
  /-- ES_FLUSH (R579). -/
  | esFlush (ini : Ini) (k : Fin 8)
  /-- ES_ENABLE (R575). -/
  | esEnable (ini : Ini) (k : Fin 8) (v : Word)
  /-- EVR_RECORD (R588). -/
  | evrRecord (src : EvrSrc)
  /-- EVR_WRITE (R588). -/
  | evrWrite (r : CopyResult)
  /-- EVR_SCAN (R589). -/
  | evrScan
  /-- RD_SEQ (R590). -/
  | rdSeq (ini : Ini) (v : Word)
  /-- OPSEC_TICK (R586). -/
  | opsecTick
  /-- MB_DONE (R521). -/
  | mbDone (f : SecFault)
  /-- DIGEST_VERIFIED (R394). -/
  | digestVerified
  /-- LANE_UP (R471). -/
  | laneUp (l : Fin 2)
  /-- SUSPEND_END (R67). -/
  | suspendEnd
deriving DecidableEq, Repr

end Sys2Proof
end

