-- ==== Sys2Proof/Machine/Pages.lean ====
section
/-! DEFINITION. The block pages: bases, types, instances, interrupt sources (R24) and location codes (R596-R599). -/
namespace Sys2Proof.Machine

/-- The base address of a page (R24). -/
def pageBase : Page → Nat
  | .sys => 0x40000000 | .ident => 0x40001000 | .rstclk => 0x40002000 | .pwr => 0x40003000 | .optb => 0x40004000
  | .irqr => 0x40008000 | .tb n => 0x40010000 + n.val * 0x1000 | .ttrig => 0x40014000 | .ptab => 0x40020000
  | .line n => 0x40030000 + n.val * 0x1000 | .lseq => 0x40070000 | .pixb => 0x40071000
  | .dim => 0x40080000 | .sched => 0x40081000 | .mir => 0x40090000 | .det => 0x40091000 | .diag => 0x400A0000
  | .met => 0x400B0000 | .mch n => 0x400C0000 + n.val * 0x1000 | .attr => 0x400E0000
  | .crv => 0x40100000 | .rf n => 0x40101000 + n.val * 0x1000 | .nupd => 0x40110000
  | .eth n => 0x40120000 + n.val * 0x1000 | .erg => 0x40130000 | .twin => 0x40140000 | .oasis => 0x40150000
  | .sec => 0x40160000 | .cryp => 0x40161000 | .dma => 0x40170000 | .cmdq => 0x40171000 | .evq => 0x40172000
  | .evr => 0x40180000 | .cont => 0x40190000 | .gpio => 0x40191000 | .ser485 => 0x40192000 | .usbd => 0x40193000
  | .memc => 0x401A0000

/-- The type code of a page (R24). -/
def pageType : Page → Nat
  | .sys => 0x01 | .ident => 0x02 | .rstclk => 0x03 | .pwr => 0x04 | .optb => 0x05 | .irqr => 0x06
  | .tb _ => 0x10 | .ttrig => 0x11 | .ptab => 0x20 | .line _ => 0x30 | .lseq => 0x31 | .pixb => 0x32
  | .dim => 0x40 | .sched => 0x41 | .mir => 0x50 | .det => 0x51 | .diag => 0x60 | .met => 0x70 | .mch _ => 0x71
  | .attr => 0x72 | .crv => 0x80 | .rf _ => 0x81 | .nupd => 0x82 | .eth _ => 0x90 | .erg => 0x91 | .twin => 0x92
  | .oasis => 0xA0 | .sec => 0xB0 | .cryp => 0xB1 | .dma => 0xC0 | .cmdq => 0xC1 | .evq => 0xC2 | .evr => 0xC3
  | .cont => 0xD0 | .gpio => 0xD1 | .ser485 => 0xD2 | .usbd => 0xD3 | .memc => 0xE0

/-- The instance number of a page (R24). -/
def pageInst : Page → Nat
  | .tb n => n.val | .line n => n.val | .mch n => n.val | .rf n => n.val | .eth n => n.val | _ => 0

/-- How many interrupt bits the chapter of a page assigns, from bit 0 up (R30, R54, R57, R60, R65, R68, R105, R137, R190, R212,
R213, R239, R246, R253, R281, R305, R334, R335, R355, R392, R393, R411, R435, R458, R482, R503, R519, R522, R540, R557, R558,
R569, R574, R583, R594, R601). -/
def irqBits : Page → Nat
  | .memc => 4 | .cont => 2 | .ser485 => 6 | .usbd => 10 | .ptab => 5 | .line _ => 11 | .lseq => 2 | .pixb => 16 | .dim => 4
  | .sched => 3 | .det => 2 | .mir => 6 | .diag => 5 | .mch _ => 2 | .met => 8 | .attr => 3 | .crv => 6 | .rf _ => 2 | .nupd => 5
  | .eth _ => 8 | .erg => 6 | .twin => 8 | .oasis => 5 | .sec => 3 | .cryp => 2 | .optb => 2 | .rstclk => 2 | .pwr => 4
  | .cmdq => 3 | .evq => 8 | .evr => 3 | .dma => 1
  | .sys => 0 | .ident => 0 | .irqr => 0 | .tb _ => 0 | .ttrig => 0 | .gpio => 0

/-- The bits that `IRQ_EN` has: ERR, QUIESCED and those the chapter assigns; the others are reserved (R6, R30; DEDUCED,
log 115). -/
def irqMask (p : Page) : Word := word (0xC0000000 + (2 ^ irqBits p - 1))

/-- The interrupt source of a page line (R24). -/
def pageIrq : Page → Nat
  | .sys => 117 | .ident => 133 | .rstclk => 118 | .pwr => 119 | .optb => 120 | .irqr => 121 | .tb n => 112 + n.val
  | .ttrig => 116 | .ptab => 111 | .line n => n.val | .lseq => 94 | .pixb => 95 | .dim => 96 | .sched => 97
  | .mir => 98 | .det => 99 | .diag => 100 | .met => 101 | .mch n => 64 + n.val | .attr => 102 | .crv => 103
  | .rf n => 104 + n.val | .nupd => 106 | .eth n => 107 + n.val | .erg => 109 | .twin => 110 | .oasis => 122
  | .sec => 123 | .cryp => 124 | .dma => 132 | .cmdq => 125 | .evq => 158 | .evr => 126 | .cont => 127
  | .gpio => 128 | .ser485 => 129 | .usbd => 130 | .memc => 131

/-- The page whose line is interrupt source n, for the page lines (R24, R44). -/
def irqPage (n : Nat) : Option Page :=
  if n < 64 then some (.line (Fin.ofNat 64 n))
  else if n < 94 then some (.mch (Fin.ofNat 30 (n - 64)))
  else match n with
  | 94 => some .lseq | 95 => some .pixb | 96 => some .dim | 97 => some .sched | 98 => some .mir | 99 => some .det
  | 100 => some .diag | 101 => some .met | 102 => some .attr | 103 => some .crv | 104 => some (.rf 0)
  | 105 => some (.rf 1) | 106 => some .nupd | 107 => some (.eth 0) | 108 => some (.eth 1) | 109 => some .erg
  | 110 => some .twin | 111 => some .ptab | 112 => some (.tb 0) | 113 => some (.tb 1) | 114 => some (.tb 2)
  | 115 => some (.tb 3) | 116 => some .ttrig | 117 => some .sys | 118 => some .rstclk | 119 => some .pwr
  | 120 => some .optb | 121 => some .irqr | 122 => some .oasis | 123 => some .sec | 124 => some .cryp
  | 125 => some .cmdq | 126 => some .evr | 127 => some .cont | 128 => some .gpio | 129 => some .ser485
  | 130 => some .usbd | 131 => some .memc | 132 => some .dma | 133 => some .ident | 158 => some .evq
  | _ => none

/-- The page at an address of the peripheral window (R22, R24). -/
def pageAt (a : Nat) : Option Page :=
  let k := a / 0x1000
  if 0x40030 ≤ k ∧ k < 0x40070 then some (.line (Fin.ofNat 64 (k - 0x40030)))
  else if 0x400C0 ≤ k ∧ k < 0x400DE then some (.mch (Fin.ofNat 30 (k - 0x400C0)))
  else match k with
  | 0x40000 => some .sys | 0x40001 => some .ident | 0x40002 => some .rstclk | 0x40003 => some .pwr
  | 0x40004 => some .optb | 0x40008 => some .irqr | 0x40010 => some (.tb 0) | 0x40011 => some (.tb 1)
  | 0x40012 => some (.tb 2) | 0x40013 => some (.tb 3) | 0x40014 => some .ttrig | 0x40020 => some .ptab
  | 0x40070 => some .lseq | 0x40071 => some .pixb | 0x40080 => some .dim | 0x40081 => some .sched
  | 0x40090 => some .mir | 0x40091 => some .det | 0x400A0 => some .diag | 0x400B0 => some .met
  | 0x400E0 => some .attr | 0x40100 => some .crv | 0x40101 => some (.rf 0) | 0x40102 => some (.rf 1)
  | 0x40110 => some .nupd | 0x40120 => some (.eth 0) | 0x40121 => some (.eth 1) | 0x40130 => some .erg
  | 0x40140 => some .twin | 0x40150 => some .oasis | 0x40160 => some .sec | 0x40161 => some .cryp
  | 0x40170 => some .dma | 0x40171 => some .cmdq | 0x40172 => some .evq | 0x40180 => some .evr
  | 0x40190 => some .cont | 0x40191 => some .gpio | 0x40192 => some .ser485 | 0x40193 => some .usbd
  | 0x401A0 => some .memc
  | _ => none

/-- `BLK_CTRL.EN` after reset (R28). -/
def pageEnReset : Page → Bool
  | .sys => true | .ident => true | .rstclk => true | .pwr => true | .optb => true | .irqr => true
  | .tb _ => true | .ttrig => true | .oasis => true | .sec => true | .memc => true | _ => false

/-- `BLK_ID` (R27): type, instance and version 0x01, the version every chapter describes. -/
def blkId (p : Page) : Nat := pageType p <<< 16 ||| pageInst p <<< 8 ||| 1

/-- Cluster and tile of a page's engine on the GC die (R598). -/
def pageTile : Page → Nat × Nat
  | .line n => (4, n.val) | .lseq => (5, 0) | .pixb => (5, 1) | .ptab => (6, 0) | .dim => (7, 0) | .sched => (7, 1)
  | .mir => (8, 0) | .det => (8, 1) | .diag => (9, 0) | .met => (10, 0) | .mch n => (10, 1 + n.val)
  | .attr => (10, 31) | .crv => (11, 0) | .rf n => (11, 1 + n.val) | .nupd => (11, 3) | .eth n => (12, n.val)
  | .erg => (12, 2) | .twin => (13, 0) | .cryp => (14, 0) | .dma => (15, 0) | .cmdq => (15, 1) | .evq => (15, 2)
  | .evr => (15, 3) | .memc => (16, 0) | .sys => (17, 0) | .ident => (17, 1) | .rstclk => (17, 2) | .pwr => (17, 3)
  | .optb => (17, 4) | .irqr => (17, 5) | .tb n => (17, 6 + n.val) | .ttrig => (17, 10) | .cont => (17, 11)
  | .gpio => (17, 12) | .ser485 => (17, 13) | .usbd => (17, 14) | .oasis => (17, 15) | .sec => (2, 0)

/-- The low word of a location code whose ARRAY, WORD and CELL are none (R599). -/
def locNone : Nat := 0xFFFFFFFF

/-- A location code from its fields (R596). -/
def locCode (serial site cluster tile low : Nat) : Nat :=
  (serial % 65536) <<< 48 ||| (site % 16) <<< 44 ||| (cluster % 32) <<< 39 ||| (tile % 128) <<< 32 ||| low % 2 ^ 32

/-- The code a page writes for an error about itself (R599): its tile, with ARRAY, WORD and CELL none. -/
def locOfPage (serial : Nat) (p : Page) : Nat := locCode serial 1 (pageTile p).1 (pageTile p).2 locNone

/-- The code of a byte of a memory part (R597): site, byte offset in [38:7], cell in [6:0]. -/
def locOfMem (serial site off cell : Nat) : Nat :=
  (serial % 65536) <<< 48 ||| (site % 16) <<< 44 ||| (off % 2 ^ 32) <<< 7 ||| cell % 128

end Sys2Proof.Machine
end

