-- ==== Sys2Proof/Machine/RegRow.lean ====
section
/-! DEFINITION. The form of a register map: access codes (R25), the bits a register has (R6), range limits, guards
(R632) and lock groups (R33). -/
namespace Sys2Proof.Machine

/-- Access codes (R25). -/
inductive Acc where
  | rw | ro | wo | w1c | rc
deriving DecidableEq, Repr

/-- A rule a chapter lays on a write of a register. -/
inductive FieldRule where
  /-- The bits of `mask` are in lock group `group`; bit 31 of `LOCK` freezes nothing here (R25, R33). -/
  | lock (group : Nat) (mask : Nat)
  /-- A value outside lo-hi is written as the nearer limit. -/
  | clamp (msb lsb lo hi : Nat)
  /-- A signed field limited to lo-hi. -/
  | sclamp (msb lsb : Nat) (lo hi : Int)
  /-- A write with the field outside lo-hi is refused whole with the code. -/
  | range (msb lsb lo hi code : Nat)
  /-- A write with a signed field outside lo-hi is refused whole with the code. -/
  | srange (msb lsb : Nat) (lo hi : Int) (code : Nat)
  /-- A write with the field not among the values is refused whole with the code. -/
  | oneOf (msb lsb : Nat) (vals : List Nat) (code : Nat)
  /-- The bits of `mask` change only while field [msb:lsb] of the control register holds `val` (R632);
  `ctl` 0xFFFF is the register itself. -/
  | guard (mask ctl msb lsb val code : Nat)
  /-- The bits of `mask` keep their value. -/
  | keep (mask : Nat)
  /-- A write whose first field exceeds the second (`strict`: is not below it) is refused whole with the code. -/
  | le (msb1 lsb1 msb2 lsb2 : Nat) (strict : Bool) (code : Nat)
  /-- Reads show only the bits of `mask`; the others are kept for the check of a port's request. -/
  | readMask (mask : Nat)
  /-- Only these initiators may write; others receive PRIV (R23). -/
  | priv (who : List Nat)
  /-- An application core must be in machine mode. -/
  | machine
  /-- Only these initiators may write; a write of another is ignored with the code (R46). -/
  | only (who : List Nat) (code : Nat)
deriving DecidableEq, Repr

/-- One line of a register map. -/
structure RegRow where
  off : Nat
  acc : Acc
  reset : Nat := 0
  /-- The bits the register has; the others read as 0 (R6). -/
  mask : Nat := 0xFFFFFFFF
  count : Nat := 1
  stride : Nat := 4
  /-- Each initiator has its own (R51, R78, R103). -/
  perIni : Bool := false
  rules : List FieldRule := []
deriving DecidableEq, Repr

/-- A read-only register. -/
def ro (off : Nat) (reset : Nat := 0) : RegRow := { off := off, acc := .ro, reset := reset }
/-- A read-write register. -/
def rw (off : Nat) (reset : Nat := 0) (mask : Nat := 0xFFFFFFFF) (rules : List FieldRule := []) : RegRow :=
  { off := off, acc := .rw, reset := reset, mask := mask, rules := rules }
/-- A write-only register. -/
def wo (off : Nat) (rules : List FieldRule := []) : RegRow := { off := off, acc := .wo, rules := rules }
/-- A register whose bits a 1 clears. -/
def w1c (off : Nat) (mask : Nat := 0xFFFFFFFF) : RegRow := { off := off, acc := .w1c, mask := mask }
/-- A register that a read clears or consumes. -/
def rc (off : Nat) (reset : Nat := 0) : RegRow := { off := off, acc := .rc, reset := reset }
/-- The row repeated for each index. -/
def many (count stride : Nat) (r : RegRow) : RegRow := { r with count := count, stride := stride }
/-- The row held once per initiator. -/
def each (r : RegRow) : RegRow := { r with perIni := true }
/-- The row repeated for an outer index. -/
def outer (count stride : Nat) (r : RegRow) : List RegRow :=
  (List.range count).map fun i => { r with off := r.off + i * stride }

/-- Whether a row covers an offset. -/
def rowHas (r : RegRow) (off : Nat) : Bool :=
  decide (r.off ≤ off) && decide ((off - r.off) % r.stride = 0) && decide ((off - r.off) / r.stride < r.count)

/-- The index of an offset within a row. -/
def rowIndex (r : RegRow) (off : Nat) : Nat := (off - r.off) / r.stride

end Sys2Proof.Machine
end

