-- ==== Sys2Proof/Machine/RegMap.lean ====
section
/-! DEFINITION. The register maps of the pages, offset by offset, as each chapter gives them. -/
namespace Sys2Proof.Machine

/-- The common header (R26). -/
def mapHeader : List RegRow := [
  ro 0x000, rw 0x004 0 0x7, ro 0x008 1, ro 0x00C, rw 0x010, w1c 0x014, ro 0x018, ro 0x01C, rw 0x020, wo 0x024]

/-- IRQR (R45, R46). -/
def mapIrqr : List RegRow := [
  wo 0x040, wo 0x044,
  many 122 4 (rw 0x100 0 0x000F01FF [.lock 0 0x000F01FF]),
  many 2 4 (rw 0x2E8 0 0x000F01FF [.only [8] 3, .lock 0 0x000F01FF]),
  many 132 4 (rw 0x2F0 0 0x000F01FF [.lock 0 0x000F01FF]),
  many 8 4 (ro 0x500), many 9 0x10 (rc 0x600 0x1FF), many 9 0x10 (wo 0x604), many 9 0x10 (rw 0x608 0 0xF)]

/-- SYS (R48). -/
def mapSys : List RegRow := [
  rw 0x040 0x100 0x1FF [.priv [8]], ro 0x044 0x100, many 8 4 (rw 0x080 0 0xFFFFFFFF [.priv [8]]), ro 0x0C0,
  many 8 4 (rw 0x0C4)]

/-- MEMC (R51); `NAND_BUF` keeps its reserved bits for the check of NAND_RANGE, and reads them as 0 (R6). -/
def mapMemc : List RegRow := [
  ro 0x040, rc 0x044, ro 0x048, ro 0x04C, ro 0x050, ro 0x054, rc 0x058,
  each (rw 0x080 0 0x000FFFFF), each (rw 0x084 0 0xFFFFFFFF [.readMask 0xFFFFFFC0]), each (wo 0x088), each (ro 0x08C)]

/-- CONT (R55). -/
def mapCont : List RegRow := [
  rw 0x040 0xA00 0xFFFF [.clamp 15 8 2 20, .lock 0 0xFFFF], wo 0x044, wo 0x048, ro 0x04C, ro 0x050,
  many 8 4 (ro 0x080)]

/-- GPIO (R58, R60). -/
def mapGpio : List RegRow := [
  rw 0x040 0 0xFFFF, rw 0x044 0 0xFFFF, wo 0x048, wo 0x04C, wo 0x050, ro 0x054, rw 0x058 0xFFFF, rw 0x05C 0 0xFFFF,
  rw 0x060, rw 0x064, w1c 0x068 0xFFFF]

/-- SER485 (R62).  A write of `SP_CFG_p` that is out of range and also changes it with EN at 1 records CFG_RANGE (DESIGN CHOICE, log
154: R62 gives both codes and no order). -/
def mapSer : List RegRow := [
  many 2 0x200 (rw 0x100 0x01002580 0xC70FFFFF [.range 19 0 1200 1000000 0x100, .range 25 24 0 2 0x100,
    .guard 0x470FFFFF 0xFFFF 31 31 0 0x103]), many 2 0x200 (rw 0x104 0x006401F4 0xFFFFFFFF [.clamp 31 16 10 10000, .clamp 15 0 10 10000]),
  many 2 0x200 (rw 0x108), many 2 0x200 (rw 0x10C 0 0xFFFF), many 2 0x200 (wo 0x110), many 2 0x200 (ro 0x114),
  many 2 0x200 (rc 0x118), many 2 0x200 (wo 0x120), many 2 0x200 (rc 0x124 0x100), many 2 0x200 (ro 0x128),
  many 2 0x200 (rc 0x12C)]
  ++ outer 2 0x200 (many 63 4 (rw 0x200))

/-- USBD (R67); `EP_BUF_e` keeps its reserved bits for the check of EP_RANGE, and reads them as 0 (R6). -/
def mapUsbd : List RegRow := [
  rw 0x040 0 0x3, ro 0x044, rw 0x048 0 0x7F, ro 0x050, ro 0x054, many 6 0x10 (rw 0x080 0 0xFFFFFFFF [.readMask 0xFFFFFFC0]),
  many 6 0x10 (rw 0x084 0 0x1FFFF), many 6 0x10 (wo 0x088), many 6 0x10 (ro 0x08C)]

/-- TB0-TB3 (R72); TB2 follows TB0 at reset; `STEP_ARM` is the security core's and the machine mode's (R75). -/
def mapTb (n : Fin 4) : List RegRow := [
  rw 0x040 (if n = 2 then 0x10 else 0) 0x70 [.lock 0 0x70], ro 0x044 (if n = 2 then 9 else 1), ro 0x048, each (ro 0x04C),
  each (ro 0x050), ro 0x054, ro 0x058, rw 0x060 4 0xF, rw 0x064, rw 0x068, rw 0x06C, wo 0x070,
  rw 0x074 0 0xFFFFFFFF [.range 31 0 0 999999999 0x105], rw 0x078, rw 0x07C 0 0xFFFF,
  wo 0x080 [.priv [0, 1, 2, 3, 8], .machine]]

/-- TTRIG (R81, R82); every unit's registers are in lock group u, or 16 + c. -/
def mapTtrig : List RegRow :=
  (List.range 16).flatMap (fun u => [
    rw (0x100 + u * 0x20) 0 0xFF31 [.lock u 0xFFFFFFFF], rw (0x104 + u * 0x20) 0 0xFFFFFFFF [.lock u 0xFFFFFFFF],
    rw (0x108 + u * 0x20) 0 0xFFFFFFFF [.lock u 0xFFFFFFFF], rw (0x10C + u * 0x20) 0 0xFFFFFFFF [.lock u 0xFFFFFFFF],
    rw (0x110 + u * 0x20) 0 0xFFFFFFFF [.lock u 0xFFFFFFFF], w1c (0x114 + u * 0x20) 7])
  ++ (List.range 8).flatMap (fun c => [
    rw (0x400 + c * 0x20) 0 0x3F3D [.lock (16 + c) 0xFFFFFFFF], rc (0x404 + c * 0x20), ro (0x408 + c * 0x20),
    ro (0x40C + c * 0x20), ro (0x410 + c * 0x20)])

/-- PTAB (R103); the ports are per initiator. -/
def mapPtab : List RegRow := [
  rw 0x040 0x80000000 0xFFFFF000 [.lock 0 0xFFFFFFFF], rw 0x044 0xA01 0xFF01 [.clamp 15 8 1 255, .lock 0 0xFF01], ro 0x048,
  rc 0x04C, rc 0x050, wo 0x054, wo 0x058, ro 0x05C, each (rw 0x060 0 0x3FFF), each (rw 0x064 0xFFFFFFFF),
  each (wo 0x068), each (ro 0x06C), each (wo 0x070), each (ro 0x074), each (many 32 4 (rw 0x100)),
  each (many 64 4 (ro 0x200))]

/-- EVQ (R583). -/
def mapEvq : List RegRow := [
  many 8 0x40 (rw 0x100 0x800 0x8001DFFF [.clamp 12 0 1 4096, .guard 0x10000 0xFFFF 31 31 0 0x103]),
  many 8 0x40 (ro 0x104), many 8 0x40 (ro 0x108), many 8 0x40 (ro 0x10C), many 8 0x40 (ro 0x110), many 8 0x40 (rc 0x114),
  each (many 8 0x40 (ro 0x118)), each (many 8 0x40 (rw 0x11C)), many 8 0x40 (wo 0x120), many 8 0x40 (wo 0x124),
  many 8 0x40 (rc 0x128), many 8 0x40 (w1c 0x12C 3)]

/-- EVR (R594); the ports are per initiator. -/
def mapEvr : List RegRow := [
  ro 0x044, ro 0x048, ro 0x04C, ro 0x050, ro 0x054, rc 0x058, ro 0x05C, each (rw 0x080 0 0x003FFFFF),
  each (many 9 4 (rw 0x090)), each (wo 0x0B4), each (ro 0x0B8), each (ro 0x0BC), each (wo 0x0C0), each (ro 0x0C4),
  each (many 16 4 (ro 0x100))]

/-- LINE00-LINE63 (R133, R134, R141, R145, R150, R187, R188). -/
def mapLine : List RegRow := [
  rw 0x040 0x00042100 0x000F3133 [.range 13 12 0 2 0x105, .range 5 4 0 2 0x105, .range 1 0 0 2 0x105,
    .guard 0x3103 0xFFFF 5 4 0 0x105, .lock 0 0x83103],
  ro 0x044 2, rw 0x048 0 0x81FF0000 [.srange 24 16 (-40) 40 0x104, .keep 0x1FF],
  rw 0x04C 0x00200020 0x803F0000 [.range 21 16 16 48 0x104, .keep 0x3F],
  rw 0x050 0x0C000000 0x8F0F0F00 [.range 27 24 0 12 0x104, .range 19 16 0 12 0x104, .range 11 8 0 12 0x104,
    .le 19 16 27 24 false 0x104, .keep 0xF],
  rw 0x054 0x1000C600 0xFF00FF00 [.le 11 8 15 12 true 0x104], ro 0x058, rc 0x05C, rc 0x060, rc 0x064,
  rw 0x068 0x000503E8 0xFFFFFFFF [.clamp 31 16 1 1000, .clamp 15 0 100 10000], rc 0x06C,
  rw 0x080 0 0x00FF0713 [.guard 0x702 0xFFFF 0 0 0 0x111, .lock 1 0x702], ro 0x084, rw 0x088 0 0x7FF, rw 0x08C 0 0xFFFFF,
  rw 0x090 0x00200000 0xFFFFFF, rw 0x094 0x32 0x1FFF, wo 0x098, ro 0x09C, rw 0x0A0 0 0xFFFFE000, ro 0x0A4, rc 0x0A8,
  rc 0x0AC, rc 0x0B0, rc 0x0B4, rc 0x0B8, rc 0x0BC, many 32 4 (rw 0x100 0xFFFFFFFF)]

/-- LSEQ (R212). -/
def mapLseq : List RegRow := [
  rw 0x040 6 6 [.lock 0 6], rw 0x044 0x13880 0xFFFFF [.clamp 19 0 60000 1000000, .lock 0 0xFFFFF],
  rw 0x048 0x2710 0xFFFFF [.clamp 19 0 7000 1000000, .lock 0 0xFFFFF], ro 0x04C, ro 0x050, rc 0x054, rc 0x058]

/-- PIXB (R213). -/
def mapPixb : List RegRow := [
  rw 0x040 0x3E8 0xFFFF [.clamp 15 0 100 4000], many 8 0x20 (rw 0x100 0x1F4 0x7FFF [.clamp 14 0 200 20000]),
  many 8 0x20 (wo 0x104), many 8 0x20 (ro 0x108), many 8 0x20 (rc 0x10C), many 64 0x10 (rw 0x400 0 0xFFFFFFC0),
  many 64 0x10 (rw 0x404 0 0xFFFFFFC0)]

/-- DIM (R237, R238); the request port is per initiator, and keeps reserved bits for BAD_REQ (R239). -/
def mapDim : List RegRow := [
  rw 0x040 0x00400603 0xFFFF0703 [.clamp 31 16 0 4096, .lock 0 0xFFFF0703], ro 0x044, rw 0x048 0x80000000 0xFFFFFFFF [.lock 0 0xFFFFFFFF],
  rc 0x04C, rc 0x050, rc 0x054, rc 0x058, each (rw 0x080 0 0xFFFFFFFF [.readMask 0x8000FFFF]),
  each (rw 0x084 0 0xFFFFFFFF [.readMask 0x0718FFFF]), each (rw 0x088), each (rw 0x08C), each (wo 0x090), each (ro 0x094),
  wo 0x0A0, ro 0x0A4, many 512 4 (rw 0x800 0xFFFF0000)]

/-- SCHED (R246). -/
def mapSched : List RegRow := [
  rw 0x040 0x01900000 0xFFFF0001 [.clamp 31 16 0 60000, .lock 0 0xFFFF0001], rw 0x044 0 0xFFFFC000 [.lock 0 0xFFFFFFFF],
  rw 0x048 0 0xFFFFFFFF [.srange 31 0 (-93600) 93600 0x102], wo 0x04C, rw 0x050, rw 0x054, ro 0x058, many 64 4 (ro 0x100)]

/-- DET (R252, R253). -/
def mapDet : List RegRow := [
  rw 0x040 0 0xFFFFFFFF [.lock 0 0xFFFFFFFF], wo 0x044, ro 0x048, rc 0x04C,
  many 16 0x10 (rw 0x100 0x00050002 0x00FF000F [.clamp 23 16 1 255, .lock 1 0xFF000F]), many 16 0x10 (rc 0x104),
  many 16 0x10 (ro 0x108), many 16 0x10 (ro 0x10C)]

/-- MIR (R249, R278, R279); the snapshot and injection ports are per initiator. -/
def mapMir : List RegRow := [
  rw 0x040 0x0FA00100 0xFFFF0103 [.clamp 31 16 500 30000, .lock 0 0xFFFF0100], ro 0x044,
  rw 0x048 0x80000000 0xFFFFFFFF [.lock 0 0xFFFFFFFF], rc 0x04C, rc 0x050, rc 0x054, rc 0x058, rc 0x05C, rc 0x060, rc 0x064,
  each (wo 0x080), each (ro 0x084), each (wo 0x088), each (rw 0x090 0 0x1FF), each (rw 0x094), each (rw 0x098 0 0xC3FF0FFF),
  each (wo 0x09C), each (many 16 4 (ro 0x0C0)),
  many 64 0x20 (rw 0x800 0x1000FFFF 0xB000FFFF [.lock 1 0xB000FFFF]), many 64 0x20 (rw 0x804 0x0A000000 0xFFFFFFFF [.lock 1 0xFFFFFFFF]),
  many 64 0x20 (rw 0x808 0x05DC281E 0xFFFFFFFF [.lock 1 0xFFFFFFFF]), many 64 0x20 (rw 0x80C 0x19008B05 0xFFFFFFFF [.lock 1 0xFFFFFFFF]),
  many 64 0x20 (rw 0x810 0x05DC3C00 0xFFFFFF00 [.lock 1 0xFFFFFFFF]), many 64 0x20 (rw 0x814 0 0xBF300FFF [.lock 1 0xFFFFFFFF]),
  many 64 0x20 (rw 0x818 0 0xBF300FFF [.lock 1 0xFFFFFFFF]), many 64 0x20 (rw 0x81C 0 0xFFFFFFFF [.lock 1 0xFFFFFFFF])]

/-- DIAG (R303, R304). -/
def mapDiag : List RegRow := [
  rw 0x040 0x8270 0xF773 [.clamp 1 0 0 2, .lock 0 0xF770],
  rw 0x044 0x3C0F0805 0xFFFFFFFF [.clamp 31 24 0 100, .clamp 23 16 1 100, .clamp 15 8 1 50, .clamp 7 0 1 255, .lock 0 0xFFFFFFFF],
  rw 0x048 0x00C8145A 0xFFFFFFFF [.clamp 31 16 20 10000, .clamp 7 0 50 100, .lock 0 0xFFFFFFFF],
  rw 0x04C 0x80000000 0xFFFFFFFF [.lock 0 0xFFFFFFFF], ro 0x050, rc 0x054, rc 0x058, rc 0x05C, wo 0x060, wo 0x064,
  many 64 4 (ro 0x100)]

/-- MCH00-MCH29 (R334): 0 voltage, 1 current, 2 residual. -/
def mapMch (n : Fin 30) : List RegRow := [
  ro 0x040 (if n.val < 4 then 0 else if n.val < 28 then 1 else 2), rw 0x044 0 0xFFFFFF [.lock 0 0xFFFFFF],
  rw 0x048 0x40000000 0xFFFFFFFF [.range 31 0 0x20000000 0x60000000 0x100, .lock 0 0xFFFFFFFF],
  rw 0x04C 0 0xFFFFFF [.srange 23 0 (-65536) 65536 0x100, .lock 0 0xFFFFFF],
  rw 0x050 0 0xFFFF [.srange 15 0 (-16384) 16384 0x100, .lock 0 0xFFFF], many 7 4 (ro 0x0C0), many 64 4 (ro 0x100)]

/-- MET (R332, R335). -/
def mapMet : List RegRow := [
  rw 0x040 0x0028000A 0xFFFF013E [.clamp 31 16 1 1000, .clamp 3 1 1 5, .lock 0 0xFFFF013E], ro 0x044, rw 0x048 0 1 [.lock 0 1],
  rw 0x04C 0 0x1FFFF [.clamp 16 0 0 86400], wo 0x050, wo 0x054 [.priv [8]], ro 0x058, rc 0x05C, ro 0x060, ro 0x064,
  rw 0x068 0 0x9F0FFFFF, many 24 4 (rw 0x080 0 0xE0FC7FFF [.lock 1 0xFFFFFFFF]),
  many 48 4 (rw 0x100 0 0xFFFFFFFF [.srange 31 0 (-100000) 100000 0x102, .lock 0 0xFFFFFFFF]),
  many 2 0x10 (rw 0x200 0x0010012C 0x9F1FFFFF [.clamp 20 16 8 24, .clamp 15 0 10 10000, .lock 2 0xFFFFFFFF]),
  many 2 0x10 (rw 0x204 0x0BB80BB8 0xFFFFFFFF [.clamp 31 16 5 65535, .clamp 15 0 10 65535, .lock 2 0xFFFFFFFF]),
  many 2 0x10 (ro 0x208), many 2 0x10 (ro 0x20C), wo 0x220, many 4 4 (ro 0x3C0), many 96 4 (ro 0x400), many 4 4 (ro 0x7C0),
  many 384 4 (ro 0x800)]

/-- ATTR (R353). -/
def mapAttr : List RegRow := [
  rw 0x040 0x02580C00 0xFFFFFF03 [.clamp 15 8 0 31, .clamp 1 0 0 2, .lock 0 0xFFFFFF00],
  rw 0x044 0x0258199A 0xFFFFFFFF [.clamp 31 16 100 1900, .lock 0 0xFFFFFFFF], rw 0x048 0 0xFFFFFF, ro 0x04C, rc 0x050, rc 0x054,
  wo 0x058, many 24 4 (ro 0x080), ro 0x100, ro 0x104, ro 0x108, many 16 8 (ro 0x140), many 16 8 (ro 0x144)]

/-- CRV (R390, R391); the session port is per initiator. -/
def mapCrv : List RegRow := [
  rw 0x040 0xFFFF8020 0xFFFFF133 [.clamp 15 12 1 8, .lock 0 0xFFFFF100, .guard 0xFFFFF100 0xFFFF 1 0 0 0x101], ro 0x044,
  rw 0x048 0x80000000 0xFFFFFFFF [.lock 0 0xFFFFFFFF], rw 0x04C 0 0x3F3F00FF [.keep 0xFF, .lock 0 0x3F3F0000],
  rw 0x050 0x15180 0xFFFFFFFF [.clamp 31 0 3600 2592000, .lock 0 0xFFFFFFFF],
  rw 0x054 0x07D00094 0xFFFFFFFF [.clamp 31 16 200 10000, .clamp 15 0 10 1000], rw 0x058 0x14 0xFF [.clamp 7 0 5 80],
  ro 0x05C, rc 0x060, rc 0x064, rc 0x068, rc 0x06C, wo 0x070, wo 0x074, each (wo 0x080), each (ro 0x084), each (many 8 4 (ro 0x0C0))]

/-- RFA and RFB (R393). -/
def mapRf (n : Fin 2) : List RegRow := [
  rw 0x040 (if n = 0 then 0x10 else 0x430) 0x730 (if n = 0 then [.lock 0 0x730] else [.keep 0x730]), ro 0x044,
  rw 0x048 (if n = 0 then 0xE else 0xA) (if n = 0 then 0x13F else 0x3F) [.clamp 5 0 0 (if n = 0 then 20 else 10)],
  rw 0x04C 0xA 0x80FF00FF [.sclamp 23 16 (-110) (-60), .clamp 7 0 3 30], rw 0x050 0 0x7FF [.clamp 10 0 0 1000], ro 0x054,
  many 4 4 (rw 0x060 0xFFFFFFFF), rc 0x070, rc 0x074, rc 0x078, rc 0x07C, rw 0x080 1 1]

/-- NUPD (R410). -/
def mapNupd : List RegRow := [
  rw 0x040 0x10020802 0xFF0FFF06 [.clamp 31 24 1 64, .clamp 19 16 2 15, .clamp 15 8 1 15], ro 0x044, rw 0x048,
  rw 0x04C 0 0xFFF [.clamp 11 0 2 4095], rw 0x050, rw 0x054 0 0x3FFF [.clamp 13 0 1 12288], rw 0x058, wo 0x05C,
  rw 0x060 0x003C0094 0xFFFFFFFF [.clamp 31 16 10 3600, .clamp 15 0 10 1000], ro 0x064, ro 0x068, rc 0x06C]

/-- ETHA and ETHB (R432-R434). -/
def mapEth : List RegRow := [
  rw 0x040 0x8000 0x00138003 [.lock 0 0x00100000], ro 0x044, rw 0x048 0x80000718 0x8000073F, ro 0x04C,
  rw 0x050 0 0xFFFFFFFF [.lock 0 0xFFFFFFFF], rw 0x054 0 0xFFFF [.lock 0 0xFFFFFFFF],
  rw 0x058 0x5F2 0x3FFF [.range 13 0 1518 9022 0x101, .lock 0 0xFFFFFFFF], rw 0x05C 0 3, rw 0x060 0xFFFF0000 0xFFFF0003,
  rw 0x064 0x0A040008 0xFFFF0FFF [.range 31 24 2 15 0x101, .le 23 16 31 24 true 0x101, .range 11 0 1 4095 0x101], ro 0x068, rw 0x06C 1 3,
  rw 0x080 0 0xFFFFFFE0 [.guard 0xFFFFFFFF 0x040 0 0 0 0x100, .lock 0 0xFFFFFFFF],
  rw 0x084 0x100 0x1FFF [.guard 0xFFFFFFFF 0x040 0 0 0 0x100, .oneOf 12 0 [16, 32, 64, 128, 256, 512, 1024, 2048, 4096] 0x101, .lock 0 0xFFFFFFFF],
  rw 0x088 0 0xFFF, ro 0x08C,
  rw 0x090 0 0xFFFFFFE0 [.guard 0xFFFFFFFF 0x040 1 1 0 0x100, .lock 0 0xFFFFFFFF],
  rw 0x094 0x100 0x1FFF [.guard 0xFFFFFFFF 0x040 1 1 0 0x100, .oneOf 12 0 [16, 32, 64, 128, 256, 512, 1024, 2048, 4096] 0x101, .lock 0 0xFFFFFFFF],
  rw 0x098 0 0xFFF, ro 0x09C, many 8 4 (rc 0x0C0), many 32 8 (rw 0x100), many 32 8 (rw 0x104 0 0x8000FFFF), rw 0x200, rw 0x204,
  many 16 4 (rw 0x240 0 0x80000FFF), rw 0x300 0 0x800001F3, w1c 0x304 0x800000F3, many 32 4 (ro 0x380), many 128 4 (rw 0x400)]
  ++ [many 16 4 (rw 0x600)]

/-- ERG (R456, R457). -/
def mapErg : List RegRow := [
  rw 0x040 0x00100008 0x00FF010B [.clamp 23 16 1 255, .lock 0 0x00FF0108], ro 0x044,
  rw 0x048 0 0xFFF [.guard 0xFFFFFFFF 0x040 1 0 0 0x101, .lock 0 0xFFFFFFFF], ro 0x04C,
  rw 0x050 0x000A0A0A 0xFFFFFFFF [.clamp 31 16 1 1000, .clamp 15 8 5 100, .clamp 7 0 1 100], rw 0x054 0x1F4 0xFFFF [.clamp 15 0 100 10000],
  rw 0x058 0x10000000 0xFFFF8000 [.guard 0xFFFFFFFF 0x004 0 0 0 0x101, .lock 0 0xFFFFFFFF], wo 0x05C,
  rw 0x060 0 0xFFFFF800 [.guard 0xFFFFFFFF 0x040 1 0 0 0x101, .lock 0 0xFFFFFFFF],
  rw 0x064 0x10 0x1FF [.guard 0xFFFFFFFF 0x040 1 0 0 0x101, .clamp 8 0 16 256, .oneOf 8 0 [16, 32, 64, 128, 256] 0x102, .lock 0 0xFFFFFFFF], rw 0x068 0 0xFF, ro 0x06C,
  rw 0x070 0 0xFFFFFFE0 [.guard 0xFFFFFFFF 0x040 1 0 0 0x101, .lock 0 0xFFFFFFFF],
  rw 0x074 0x10 0x1FF [.guard 0xFFFFFFFF 0x040 1 0 0 0x101, .clamp 8 0 16 256, .oneOf 8 0 [16, 32, 64, 128, 256] 0x102, .lock 0 0xFFFFFFFF], rw 0x078 0 0xFF, ro 0x07C,
  many 8 4 (rc 0x080), many 64 4 (ro 0x800)]

/-- TWIN (R480, R481); the reset value of `TW_CTRL` is the option bytes', here those in force without a valid copy. -/
def mapTwin : List RegRow := [
  rw 0x040 0xB 0xB [.guard 0x2 0xFFFF 0 0 0 0x106, .lock 0 0xFFFFFFFF], ro 0x044,
  rw 0x048 0x000A1414 0xFFFFFF [.clamp 23 16 5 100, .clamp 15 8 5 100, .clamp 7 0 5 100, .lock 0 0xFFFFFFFF],
  rw 0x04C 0x12C 0xFFF [.clamp 11 0 10 3600, .lock 0 0xFFFFFFFF], wo 0x050, wo 0x054, rw 0x058 0 0xFFFF, ro 0x060, ro 0x064, ro 0x068, ro 0x06C,
  rc 0x070, rc 0x074, ro 0x078, ro 0x07C]

/-- OASIS (R501, R502); the latches of `RTC_FRAC` are per initiator (R486). -/
def mapOasis : List RegRow := [
  ro 0x040 0x100, ro 0x044, each (ro 0x048), each (ro 0x04C), rw 0x050 0 0xFFFFFFFF [.priv [0, 1, 2, 3, 8], .machine],
  rw 0x054 0 0xFF [.priv [0, 1, 2, 3, 8], .machine], rw 0x058 0 0x7FFF [.priv [0, 1, 2, 3, 8], .machine],
  wo 0x05C [.priv [0, 1, 2, 3, 8], .machine], rw 0x060 0 0x1FF [.priv [0, 1, 2, 3, 8], .machine], each (ro 0x064 0x06000101),
  each (ro 0x068), rw 0x06C 0x101 0x07FF0F1F [.priv [0, 1, 2, 3, 8], .machine],
  rw 0x070 0 0x001F3F3F [.priv [0, 1, 2, 3, 8], .machine], ro 0x074, rw 0x080 0 3, w1c 0x084 0x33,
  many 2 0x10 (rw 0x088), many 2 0x10 (rw 0x08C 0 0xFF), many 2 0x10 (rw 0x090 0 0x7FFF), rw 0x0B0 0 0x80FFFFFF,
  rw 0x0C0 0x000A0000 0x00FF000F [.priv [0, 1, 2, 3, 8], .machine], wo 0x0C4 [.priv [0, 1, 2, 3, 8], .machine], ro 0x0C8 0xC001, ro 0x0CC,
  rw 0x100 0x00050400 0x010F05FF [.priv [0, 1, 2, 3, 8], .machine, .clamp 19 16 0 11], { w1c 0x104 0x1F with rules := [.priv [8]] },
  ro 0x108, ro 0x10C, ro 0x110, many 24 4 (rw 0x200), many 8 4 (rw 0x260 0 0xFFFFFFFF [.priv [8]])]

/-- SEC (R519); the mailbox is per initiator. -/
def mapSec : List RegRow := [
  ro 0x040, ro 0x048, ro 0x04C, ro 0x050, ro 0x054, each (rw 0x080 0 0xFF3F3FFF), each (rw 0x084), each (rw 0x088 0 0x1FFFF),
  each (wo 0x08C), each (ro 0x090), each (ro 0x094), each (many 16 4 (rw 0x0C0)), each (many 16 4 (ro 0x100))]
  ++ outer 8 0x40 (many 12 4 (ro 0x400))

/-- CRYP (R522). -/
def mapCryp : List RegRow := [
  rw 0x040 0 0x171F, ro 0x044, rw 0x048, rw 0x04C, rw 0x050 0 0xFFFFFF, rw 0x054 0 0xFFFF, wo 0x058, many 4 4 (rw 0x060), many 4 4 (rw 0x070),
  many 8 4 (wo 0x080), wo 0x0A0, many 16 4 (ro 0x100)]

/-- OPTB (R540). -/
def mapOptb : List RegRow := [
  ro 0x040, many 16 4 (ro 0x080), many 16 4 (rw 0x0C0 0 0xFFFFFFFF [.priv [8]]), wo 0x100 [.priv [8]], ro 0x104,
  wo 0x108 [.priv [0, 1, 2, 3], .machine], ro 0x10C, wo 0x110 [.priv [0, 1, 2, 3, 7]], many 5 4 (ro 0x140), many 5 4 (ro 0x160)]

/-- RSTCLK (R557). -/
def mapRstclk : List RegRow := [
  rw 0x040 0x00080100 0x00FF01FF [.clamp 23 16 1 60, .lock 0 0xFFFFFFFF], wo 0x044, ro 0x048, wo 0x04C [.priv [0, 1, 2, 3, 8], .machine], ro 0x050,
  ro 0x054 3]

/-- PWR (R558). -/
def mapPwr : List RegRow := [
  rw 0x040 0x003C0000 0x03FF0000 [.clamp 25 16 1 600], ro 0x044, wo 0x048, rw 0x04C 0 0x00030303 [.keep 0x00030300],
  rw 0x050 0x3010 0xBF00FFFF [.lock 0 0xFFFFFFFF], ro 0x054, ro 0x058, ro 0x05C, rc 0x060]

/-- DMA (R569). -/
def mapDma : List RegRow := [
  ro 0x040, ro 0x044, wo 0x048, many 16 0x20 (rw 0x100 0 0xFFFFFFE0), many 16 0x20 (rw 0x104 0 3), many 16 0x20 (ro 0x108),
  many 16 0x20 (ro 0x10C), many 16 0x20 (ro 0x110 0xFFFFFFFF), many 16 0x20 (wo 0x114), many 16 0x20 (w1c 0x118 3)]

/-- CMDQ (R574). -/
def mapCmdq : List RegRow := [
  rw 0x040 0x03E80018 0xFFFF003F [.clamp 31 16 1 65535, .clamp 5 0 1 32], ro 0x044, each (rw 0x048), wo 0x04C, ro 0x050, ro 0x054, ro 0x058, wo 0x05C,
  rc 0x060]

/-- IDENT (R601). -/
def mapIdent : List RegRow := [
  ro 0x040, many 11 4 (ro 0x044), many 3 0x10 (ro 0x100), many 3 0x10 (ro 0x104), many 3 0x10 (ro 0x108), many 3 0x10 (ro 0x10C), ro 0x13C]

end Sys2Proof.Machine
end

