-- ==== Sys2Proof/Machine/Sparse.lean ====
section
/-! DEFINITION. Sparse maps: lists of (key, value) in one canonical form, keys strictly rising and no entry equal
to what an unlisted key reads as.  Memory, the registers and every indexed store of the block are held so. -/
namespace Sys2Proof.Machine

/-- A sparse map from numbers. -/
abbrev Sparse (α : Type) := List (Nat × α)

/-- What key k holds; `d` is what an unlisted key reads as. -/
def spGet {α : Type} (d : Nat → α) : Sparse α → Nat → α
  | [], k => d k
  | (a, v) :: l, k => if a = k then v else spGet d l k

/-- Puts an entry in its place. -/
def spIns {α : Type} (k : Nat) (v : α) : Sparse α → Sparse α
  | [] => [(k, v)]
  | (a, w) :: l => if k < a then (k, v) :: (a, w) :: l else if a = k then (k, v) :: l else (a, w) :: spIns k v l

/-- Removes a key. -/
def spDel {α : Type} (k : Nat) : Sparse α → Sparse α
  | [] => []
  | (a, w) :: l => if a = k then spDel k l else (a, w) :: spDel k l

/-- Writes key k: writing what an unlisted key reads as removes the entry. -/
def spPut {α : Type} [DecidableEq α] (d : Nat → α) (k : Nat) (v : α) (l : Sparse α) : Sparse α :=
  if v = d k then spDel k l else spIns k v l

/-- The keys rise strictly above `lo` and no entry equals the unlisted value. -/
def spWfFrom {α : Type} [DecidableEq α] (d : Nat → α) : Nat → Sparse α → Bool
  | _, [] => true
  | lo, (a, v) :: l => decide (lo ≤ a) && decide (v ≠ d a) && spWfFrom d (a + 1) l

/-- The canonical form. -/
def spWf {α : Type} [DecidableEq α] (d : Nat → α) (l : Sparse α) : Bool := spWfFrom d 0 l

end Sys2Proof.Machine
end

