-- ==== Sys2Proof/Machine/StateParts.lean ====
section
/-! DEFINITION. The state of each engine beyond its registers, engine by engine, as plain data. -/
namespace Sys2Proof.Machine

/-- Bus errors (R21-R23, R38, R42, R631, R573). -/
inductive BusErr where
  | unmapped | size | priv | busyQuiesced | blockReset | disabled | cmdqHalt
deriving DecidableEq, Repr

/-- How the last bus access ended. -/
inductive Resp where
  /-- No access yet. -/
  | idle
  /-- A write completed. -/
  | ok
  /-- A register read returned a word. -/
  | data (w : Word)
  /-- A memory read returned bytes. -/
  | bytes (b : List Byte)
  /-- A bus error. -/
  | err (e : BusErr)
  /-- The page is in reset: the access stalls (R41). -/
  | stalled
deriving DecidableEq, Repr

/-- A register write that stalls until its page is READY again (R41). -/
structure Stalled where
  ini : Ini
  addr : Nat
  /-- The value written, or none for a read. -/
  val : Option Word
deriving DecidableEq, Repr

/-- One time base (R70, R75, R76): 48-bit seconds, nanoseconds, 32-bit fraction; INC in units of 2^-32 ns. -/
structure TimeBase where
  sec : Nat := 0
  ns : Nat := 0
  frac : Nat := 0
  inc : Nat := 0x400000000
  slewOff : Int := 0
  slewLeft : Nat := 0
  stepAvail : Bool := true
  stepped : Bool := false
deriving DecidableEq, Repr

/-- TB0-TB3 (R69) and the count of 250 MHz cycles since reset, by which firings of one cycle are told (R84). -/
structure TimeBases where
  t0 : TimeBase := {}
  t1 : TimeBase := {}
  t2 : TimeBase := {}
  t3 : TimeBase := {}
  cycles : Nat := 0
deriving DecidableEq, Repr

/-- A trigger unit (R83): firings so far, the index of the next instant, the cycle of the last firing (plus one, 0
for none), and whether a step crossed its instant (R77). -/
structure TrgUnit where
  fired : Nat := 0
  next : Nat := 0
  at1 : Nat := 0
  crossed : Bool := false
  /-- The time of its base at which it was armed: its instants are known since then (R207). -/
  since : Nat := 0
deriving DecidableEq, Repr

/-- A capture unit's stamps, oldest first: seconds and nanoseconds (R85). -/
structure CapUnit where
  stamps : List (Nat × Nat) := []
deriving DecidableEq, Repr

/-- A NAND operation in the order of R109: 1 READ, 2 PROGRAM, 3 ERASE (R52). -/
structure NandOp where
  ini : Nat
  kind : Nat
  page : Nat
  buf : Nat
deriving DecidableEq, Repr

/-- The NAND behind MEMC (R52): bytes, pages programmed since their erase, pages programmed twice, the areas (of 131,072
pages) that the boot ROM has copied into, whose layout is not given, the pages of these that were erased or programmed since,
and operations. -/
structure Nand where
  cells : Sparse Byte := []
  programmed : Sparse Bool := []
  twice : Sparse Bool := []
  areas : List Nat := []
  known : Sparse Bool := []
  ops : List NandOp := []
deriving DecidableEq, Repr

/-- CONT (R55, R56): the armed driver (coil, contactor), each contactor's pulse in progress (coil and PULSE),
hold-off, and the coil last pulsed. -/
structure Cont where
  armed : Option (Bool × Nat) := none
  pulse : Sparse (Option (Bool × Nat)) := []
  hold : Sparse Bool := []
  lastSet : Sparse Bool := []
deriving DecidableEq, Repr

/-- A Modbus transaction in progress (R63): attempt 0 or 1 and the request as it stood at MB_GO. -/
structure MbTxn where
  attempt : Nat := 0
  fc : Nat := 0
  slave : Nat := 0
  addr : Nat := 0
  qty : Nat := 0
  /-- The request frame as sent. -/
  frame : List Byte := []
deriving DecidableEq, Repr

/-- One SER485 port (R63, R64). -/
structure SerPort where
  txn : Option MbTxn := none
  tx : List Byte := []
  rx : List Byte := []
  rxSince : Bool := false
deriving DecidableEq, Repr

/-- USBD (R67, R68): each endpoint's NO_ZLP at its ARM and STALL request, a written address that has not taken effect yet, and
whether VBUS is present at the land. -/
structure Usb where
  noZlp : Sparse Bool := []
  stall : Sparse Bool := []
  addrPending : Option Nat := none
  addrInForce : Nat := 0
  ctlBusy : Bool := false
  vbus : Bool := false
deriving DecidableEq, Repr

/-- One detector input (R251): taken edges as (ACT_MS, microseconds, level after), oldest first; the 250 MHz cycle at
which the last edge was taken. -/
structure DetInput where
  fifo : List (Nat × Nat × Bool) := []
  last : Option Nat := none
deriving DecidableEq, Repr

/-- The definitions DET has loaded: their eight words by number (R254), and each PAIR's unpaired A edges, oldest first, as
(ACT_MS, microseconds) (R256). -/
structure Det where
  defs : Sparse (List Word) := []
  edges : Sparse (List (Nat × Nat)) := []
deriving DecidableEq, Repr

/-- An event for Mirage (R256). -/
structure MirEv where
  strip : Nat
  pos : Nat
  /-- 1 UP, 2 DOWN, 3 unknown. -/
  dir : Nat
  ms : Nat
  us : Nat
  speed : Nat
  assumed : Bool
  birthConf : Bool := false
  noBirth : Bool := false
deriving DecidableEq, Repr

/-- A track context (R257, R271, R280): state 0 FREE, 1 TENTATIVE, 2 CONFIRMED, 3 EXITED. -/
structure MirTrack where
  st : Nat := 0
  gen : Nat := 0
  dir : Nat := 0
  strip : Nat := 0
  events : Nat := 0
  id : Nat := 0
  x : Nat := 0
  t : Nat := 0
  v : Nat := 0
  birth : Nat := 0
  /-- The anchor at birth (R265). -/
  x0 : Nat := 0
  /-- Never confirmed (R260, R263). -/
  tent : Bool := false
  /-- The neighbour that handed the track in, and its revision (R272). -/
  from' : Option Nat := none
  revIn : Nat := 0
  /-- `ACT_MS` of the handover decision (R270). -/
  decided : Option Nat := none
  /-- The neighbours that received the track, latest first (R271). -/
  rcv : List Nat := []
  rev : Nat := 0
  sentConf : Bool := false
  sentV : Nat := 0
  /-- First and last slot covered, and the latest release posted. -/
  cover : Option (Nat × Nat) := none
  lastRel : Option Nat := none
deriving DecidableEq, Repr

/-- A merged window of a strip's point (R266): A_on, A_off, what was posted last, and the coverage by track context (256
for a flood). -/
structure MirWin where
  on : Nat
  off : Nat
  posted : Option (Nat × Nat) := none
  cov : List (Nat × Nat × Nat) := []
deriving DecidableEq, Repr

/-- A message MIR hands to ERG (R271): TRACK_CANCEL or TRACK_HANDOVER; `again`: a block reset has failed it once (R42). -/
structure MirMsg where
  cancel : Bool
  dst : Nat
  words : List Nat
  again : Bool := false
deriving DecidableEq, Repr

/-- MIR (R247-R282): tracks by context, windows by strip × 16,384 + point, flood releases by strip, events that wait and
events held back, strip maps as (POS_DM, point), strips to be rebuilt, cancelled identities with their times, messages
offered to ERG, and messages of neighbours held back (cancel, source, words). -/
structure Mir where
  tracks : Sparse MirTrack := []
  wins : Sparse (Option MirWin) := []
  floods : Sparse (Option Nat) := []
  queue : List MirEv := []
  held : List MirEv := []
  maps : Sparse (List (Nat × Nat)) := []
  rebuild : List Nat := []
  cancelled : List (Nat × Nat) := []
  out : List MirMsg := []
  heldRx : List (Bool × Nat × List Word) := []
deriving DecidableEq, Repr

/-- A line of the point cache (R99): the entry's 64 words, whether its state half is dirty, whether it is pinned. -/
structure PtLine where
  words : List Word := []
  dirty : Bool := false
  pinned : Bool := false
deriving DecidableEq, Repr

/-- An engine's lookup that PTAB has not served yet (R38, R118, R120): the engine, the entry, and the words it writes, each with
the bits it keeps and the bits it sets; a read writes none. -/
structure PtHeld where
  who : Page
  idx : Nat
  writes : List (Nat × Word × Word) := []
deriving DecidableEq, Repr

/-- PTAB beyond its registers: the cache by index, the checkpoint queue with each half as it was committed (R116), what waits
for room in it (the initiator plus one of a write port, 0 for an `INVAL`, with the index and the half), engines' lookups held
back, the configuration half of each point as the engines were last told of it, and the points whose CFG_BAD a fill has changed
since (R97). -/
structure Ptab where
  cache : Sparse (Option PtLine) := []
  ckptQ : List (Nat × List Word) := []
  wait : List (Nat × Nat × List Word) := []
  held : List PtHeld := []
  known : Sparse (List Word) := []
  tell : List Nat := []
deriving DecidableEq, Repr

/-- A stream of EVQ (R575): items by slot, write and read pointers, pushes since EN (up to 4,096), mark, LOST. -/
structure EvStream where
  w : Nat := 0
  r : Nat := 0
  pushed : Nat := 0
  items : Sparse Nat := []
  mark : Option Nat := none
  lost : Bool := false
deriving DecidableEq, Repr

/-- A record on its way to the event recorder (R584): code, payload, SRC, location code, and the initiator plus one
whose write port waits for its SEQ (0 for none). -/
structure EvrRec where
  code : Nat
  pay : List Byte
  src : Nat
  loc : Nat
  port : Nat := 0
deriving DecidableEq, Repr

/-- The event recorder (R585-R589): N, C, OPSEC and PCYC, the queue, records that found it full, engines' offers, and
the first and last SEQ lost since the last good write. -/
structure Evr where
  n : Nat := 0
  c : Nat := 0
  opsec : Nat := 0
  pcyc : Nat := 0
  queue : List EvrRec := []
  waiting : List EvrRec := []
  offers : List EvrRec := []
  gap : Option (Nat × Nat) := none
  reseed : Bool := false
deriving DecidableEq, Repr

/-- A command an engine hands to LSEQ or CRV (R195, R377). -/
structure Cmd where
  point : Nat
  /-- The lantern opcode (R164). -/
  op : Nat
  arg : Nat := 0
  /-- The action time (R8). -/
  act : Nat := 0
  urgent : Bool := false
  /-- The handing engine: 0 DIM, 1 DIAG, 2 NUPD, 3 the sequencer's own settings. -/
  src : Nat := 0
  /-- The request that caused it, 0 for none. -/
  cause : Nat := 0
  /-- The winning priority after the change (R228). -/
  prio : Nat := 0
  /-- The members of a group command (R229). -/
  members : List Nat := []
  /-- The group of a group command. -/
  group : Option Nat := none
  /-- For each member of a group command, the request that caused it and its winning priority (R228). -/
  causes : List (Nat × Nat × Nat) := []
  /-- A chip level of a coded lantern (R342). -/
  chip : Bool := false
  /-- A compensating command (R230, R231). -/
  comp : Bool := false
  /-- The uncoded level of a lantern that left its code (R345, R352). -/
  uncode : Bool := false
  /-- SEQ, given when the command first goes on the wire (R196). -/
  seq : Option Nat := none
  /-- A frame that carried it has been sent since the last return phase that was made (R197). -/
  sent : Bool := false
  /-- It is in its retry (R197). -/
  retry : Bool := false
  /-- The microsecond of TB0 at which it was handed over (R200). -/
  since : Nat := 0
  /-- The model's identity of a command that has been handed over. -/
  uid : Nat := 0
  /-- The twin has not yet acknowledged its journal entry (R470). -/
  jrn : Bool := false
  /-- A block reset ended it once: this is its one retry (R42). -/
  again : Bool := false
  /-- The only positions it is for, where a block reset ended it at some of a segment's drivers; empty for all (R195). -/
  only : List Nat := []
deriving DecidableEq, Repr

/-- An observation for DIAG (R283): what LSEQ or CRV wrote for a point. -/
structure DiagObs where
  point : Nat
  status : Nat
  data : Nat
  cur : Nat := 0
deriving DecidableEq, Repr

/-- A report for DIAG that is not an observation of a point. -/
inductive DiagRep where
  /-- A made return phase brought no valid slot for a served point, while other positions returned (R286). -/
  | noReturn (point : Nat)
  /-- A command failed lastingly (R197, R377). -/
  | cmdFail (point : Nat) (proof : Bool)
  /-- A command was acknowledged in its retry (R197). -/
  | cmdRetry (point : Nat)
  /-- A radio node was reported LOST (R384). -/
  | lost (point : Nat)
  /-- SILENT was set on a line (R202). -/
  | silent (line : Nat)
  /-- A return ended early with TAIL (R201), with the number of its slots. -/
  | tailEarly (line slots : Nat)
  /-- A made return phase brought COUNT slots without TAIL_EARLY (R294). -/
  | wholeReturn (line : Nat)
  /-- A lasting over-current of a port (R151). -/
  | drvShort (line : Nat)
deriving DecidableEq, Repr

/-- The port of a line beyond EL_STAT (R147, R149, R151): the listen-before-drive window, whether the next drive is the
one retry, the over-current wait, its retry and its lasting end, the junction still above 140 °C after a shutdown (R152);
the pre-emphasis step the loop has chosen, and the cycles or returned frames since its last evaluation (R144). -/
structure LinePort where
  lbd : Bool := false
  retry : Bool := false
  ocpWait : Bool := false
  ocpRetry : Bool := false
  ocpLast : Bool := false
  hot : Bool := false
  peStep : Nat := 0
  peCount : Nat := 0
deriving DecidableEq, Repr

/-- One position of a line (R195-R198): its queue, REVOKE commands, the setting command on the wire, the last SEQ given,
the acknowledged settings (failsafe, hold, ramp-up, ramp-down, window), and a lasting failure not yet signalled. -/
structure LPos where
  queue : List Cmd := []
  revokes : List Cmd := []
  setting : Option Cmd := none
  hist : Option Nat := none
  copy : Sparse (Option Nat) := []
  failed : Bool := false
deriving DecidableEq, Repr

/-- A forward frame (R155, R157): type, RET, COUNT, whether it is a firmware frame, its bytes as far as fixed, its slots'
bytes, and which command each position's slot carries (0 the queue's head, 1 its other urgent command, 2 a REVOKE, 3 a
setting command). -/
structure LFrame where
  ftype : Nat := 1
  ret : Bool := false
  count : Nat := 0
  fw : Bool := false
  head : List Byte := []
  slots : List Byte := []
  carried : List (Nat × Nat) := []
  /-- The commit a PDATA carries (B?, TAG). -/
  buf : Option (Bool × Nat) := none
  /-- The served point of each map entry, as looked up when the contents were fixed (R185, R186). -/
  pts : List (Option Nat) := []
  /-- The commands for which this frame is the first since the last return phase (position, identity). -/
  marked : List (Nat × Nat) := []
  /-- The one retry of a frame that a block reset of the line ended (R43). -/
  again : Bool := false
  /-- The commands that are given their SEQ when this frame goes on the wire: position, command, SEQ (R196). -/
  gives : List (Nat × Cmd × Nat) := []
  /-- The cycle at which the contents were fixed, and the microsecond of TB0 at the sync edge they were fixed for (R192, R200). -/
  at' : Nat := 0
  sync : Nat := 0
  /-- NOW_MS and the offsets of the header (R157, R194). -/
  ms : Nat := 0
  acts : List Nat := []
  /-- The chunk that a NUPD frame carries (R399). -/
  chunk : Option Nat := none
deriving DecidableEq, Repr

/-- A line's sequencer (R183-R204): positions, the frame fixed, on the wire, and in its return phase; whether the
preamble of that phase was accepted; a start that waits; whether the last return phase was made; phases lost in a row;
nodes found; the firmware request (DSEL, COUNT); pixel: the last sent buffer (B?, TAG), periods served, and periods a
PCFG has waited. -/
structure LineState where
  port : LinePort := {}
  pos : Sparse LPos := []
  fixed : Option LFrame := none
  wire : Option LFrame := none
  back : Option LFrame := none
  preOk : Bool := false
  due : Bool := false
  retMade : Bool := false
  lost : Nat := 0
  found : Nat := 0
  fw : Option (Nat × Nat) := none
  lastBuf : Option (Bool × Nat) := none
  periods : Nat := 0
  pcfgWait : Nat := 0
  /-- The delay that ranging gave each driver of the line, ns (R181, R207). -/
  delays : Sparse (Option Nat) := []
  /-- The largest delay, ns, that the line's drivers store from before, as its commands have told it (R207, log 65). -/
  told : Nat := 0
  /-- The swap instant whose period was counted last (base, instant). -/
  counted : Option (Nat × Nat) := none
  /-- A frame that a block reset of the line ended is to be sent again, once (R43). -/
  again : Bool := false
deriving DecidableEq, Repr

/-- A swap group (R206-R209): the commit that waits (B?, TAG, and the time of each base when it was made), the lines that
have sent it, the commit last sent on every line, the last instant served, and the last instant counted as missed, skipped or
late.  An instant is the time base of its trigger unit and its time there. -/
structure PixGroup where
  wait : Option (Bool × Nat × List Nat) := none
  sentOn : List Nat := []
  cur : Option (Bool × Nat) := none
  busyA : Bool := false
  busyB : Bool := false
  served : Option (Nat × Nat) := none
  missed : Option (Nat × Nat) := none
  skipped : Option (Nat × Nat) := none
  afterSkip : Bool := false
  late : Option (Nat × Nat) := none
deriving DecidableEq, Repr

/-- What DIM has handed over for a point and what became of it (R226, R228). -/
structure DimPend where
  level : Nat
  /-- It went as a command of this group (R229, R367). -/
  group : Option Nat := none
  prio : Nat
  cause : Nat
  act : Nat
  urgent : Bool := false
  seq : Option Nat := none
  acked : Bool := false
  passed : Bool := false
  /-- A REVOKE of it is outstanding (R230). -/
  revoking : Bool := false
  /-- It failed lastingly before its action time had passed: it stays pending until then (R226). -/
  failed : Bool := false
deriving DecidableEq, Repr

/-- A point in DIM: the identity of the request in each slot, the level in force with its priority and request, the one
before it, what is pending, the level last handed over, whether the next command compensates, the colour last
acknowledged, the loop (R221: running, trim, a new LUX, the direction of the last clamp). -/
structure DimPt where
  ids : Sparse Nat := []
  force : Nat × Nat × Nat := (0, 0, 0)
  before : Nat × Nat × Nat := (0, 0, 0)
  pend : Option DimPend := none
  last : Nat := 0
  comp : Bool := false
  cct : Option Nat := none
  loop : Bool := false
  trim : Int := 0
  newLux : Bool := false
  clampDir : Int := 0
  /-- The final level of the last evaluation, without a chip step (R233). -/
  final : Nat := 0
  /-- The requests that ended by their release or duration and may still govern a change: the identity, when it ended, and
  whether it was URGENT (R225, R227, R232). -/
  ended : List (Nat × Nat × Bool) := []
  /-- A commit changed the final level while a command was pending: the change that waits produces a command (R224). -/
  forced : Bool := false
  /-- The winning priority of the last evaluation (R233). -/
  prio : Nat := 0
  /-- Commands whose action time had passed unacknowledged when a newer one was handed over (R228). -/
  old : List DimPend := []
deriving DecidableEq, Repr

/-- A point's place in the evaluation queue (R224, R235): the points, whether a commit or a recovery forces it, and the
group of a group request (R229). -/
structure DimEval where
  points : List Nat
  /-- 0 an ordinary evaluation, 1 after a commit, 2 the recovery of R197, 3 a CHIP handover (R342). -/
  kind : Nat := 0
  group : Option Nat := none
  /-- Caused by Mirage: taken ahead of every other (R267). -/
  mir : Bool := false
  /-- The request port that stays BUSY until the evaluations are in the queue (R235). -/
  port : Option Nat := none
deriving DecidableEq, Repr

/-- A request of an engine that DIM did not take while it quiesced (R38): the engine (1 SCHED, 2 Mirage), the opcode and
the four port words; of a schedule step, the points it goes to (R229). -/
structure DimHeld where
  src : Nat
  op : Nat
  pts : List Nat := []
  tgt : Word
  lvl : Word
  act : Word
  aux : Word
deriving DecidableEq, Repr

/-- DIM (R214-R236): points, evaluations queued, the sweep's next index, ports that wait, engines' requests held back,
commands offered, revocations offered (point and request), whether the work area must be initialised, the next request
identity. -/
structure Dim where
  pts : Sparse DimPt := []
  queue : List DimEval := []
  sweep : Option Nat := none
  wait : List Nat := []
  /-- The ports whose request is carried out, but whose evaluations are not all in the queue yet (R235). -/
  entering : List Nat := []
  held : List DimHeld := []
  offers : List Cmd := []
  revs : List (Nat × Nat) := []
  fresh : Bool := true
  nextId : Nat := 1
deriving DecidableEq, Repr

/-- What SCHED posted last for a point (R244): the level with its flags, or a release. -/
structure SchedPost where
  prog : Nat
  step : Nat
  level : Nat
  cct : Nat
  stepFlag : Bool
  release : Bool
deriving DecidableEq, Repr

/-- SCHED: what was posted last by point, the programs' steps as last read, events that wait for a re-determination. -/
structure Sched where
  posted : Sparse (Option SchedPost) := []
  redo : Bool := false
  /-- Steps (program, step, release) whose posting instant came while SCHED could not post (R38, R243). -/
  late : List (Nat × Nat × Bool) := []
deriving DecidableEq, Repr

/-- A lantern in an attribution round (R338, R345): point, code, phase slot, base level, step, and cause and chip of its
invalidation. -/
structure AttrLan where
  point : Nat
  code : Nat
  slot : Nat
  f : Nat
  d : Nat
  inval : Option (Nat × Nat) := none
deriving DecidableEq, Repr

/-- A round on a circuit (R340-R347): STATE, S, the LEAD it was selected with, the next handover's chip, lanterns, the
masked chips and the power sums (with their counts) by phase slot × 64 + chip, the last void cause, and the result view
that is to be published (R350). -/
structure AttrRound where
  state : Nat := 0
  s : Nat := 0
  lead : Nat := 0
  next : Nat := 0
  lans : List AttrLan := []
  mask : Sparse Bool := []
  sums : Sparse (Int × Nat) := []
  cause : Nat := 0
  view : List (Nat × Word) := []
  /-- The chips whose windows have all been published: those below it (R343, R346). -/
  heard : Nat := 0
  /-- The results are ready, but PTAB serves no lookups (R38). -/
  waits : Bool := false
deriving DecidableEq, Repr

/-- ATTR: rounds by circuit, the chip step in force by coded point, and the lengths of published windows whose energy waits for
lookups in the point table (R38, R349). -/
structure Attr where
  rounds : Sparse AttrRound := []
  chips : Sparse Int := []
  windows : List Nat := []
deriving DecidableEq, Repr

/-- A suspicion of DIAG (R287): its flag and cause, and whether its retry must be a proof. -/
structure Suspicion where
  flag : Nat
  cause : Nat
  proof : Bool := false
deriving DecidableEq, Repr

/-- A point in DIAG's work area (R293, R306): V_REF with its learning sum and count, suspicions, TB0 seconds of the last
proof sent, the string-power accumulator and its count, the flags with one clean observation, the cause of each set flag,
and whether a radio point has reported in this interval (R295). -/
structure DiagPt where
  vref : Nat := 0
  vsum : Nat := 0
  vcount : Nat := 0
  sus : List Suspicion := []
  proofAt : Nat := 0
  acc : Nat := 0
  obs : Nat := 0
  clean : Nat := 0
  causes : Sparse Nat := []
  heard : Bool := false
deriving DecidableEq, Repr

/-- DIAG (R283-R306): points, observations and reports that wait, commands offered, radio points to be asked, proofs
handed per line in its present cycle, by line the RET_SLOTS of an open BREAK suspicion, and what waits for lookups in the point table
(R38): burn seconds, and points of `PROOF_REQ`. -/
structure Diag where
  pts : Sparse DiagPt := []
  obs : List DiagObs := []
  reps : List DiagRep := []
  offers : List Cmd := []
  asks : List Nat := []
  proofs : Sparse Nat := []
  breaks : Sparse (Option Nat) := []
  burns : Nat := 0
  reqs : List Nat := []
deriving DecidableEq, Repr

/-- A node or driver of a campaign's target: what it last reported, NSTATE where it has, the chunks held, and the missing ones (R397,
R398); its OPEN and its ACTIVATE (0 not asked for, 1 asked for, 2 acknowledged) with the ACTIVATE's SEQ; a RESTARTED; the outcome of
its DSEL 4, as a PSTATE (R405); and whether it had switched when its ACTIVATE was revoked (R406). -/
structure NuNode where
  nstate : Option Nat := none
  held : Nat := 0
  missing : List Nat := []
  opened : Nat := 0
  act : Nat := 0
  seq : Option Nat := none
  restarted : Bool := false
  out : Nat := 0
  switched : Bool := false
deriving DecidableEq, Repr

/-- A target of a campaign (R403-R407): PSTATE, cause, its nodes by position, chunks held at the last round's end, a round
without progress, a first FAILED, the requests made in CHECK, the late ACTIVATE and whether it is still awaited, and whether a node had
switched when it was revoked (R406). -/
structure NuTarget where
  idx : Nat
  pstate : Nat := 1
  cause : Nat := 0
  nodes : Sparse NuNode := []
  held : Nat := 0
  before : Nat := 0
  stale : Nat := 0
  failed1 : Bool := false
  asked : Nat := 0
  late : Bool := false
  lateWait : Bool := false
  switched : Bool := false
deriving DecidableEq, Repr

/-- NUPD (R394-R409): the state a PAUSED campaign resumes in, targets, chunks still to be sent in this round by line
(64: the radio, as chunk and fragment), cycles since each line's last NUPD frame, return phases made, commands offered,
revocations offered, the version of the image, the digest kept for RESUME, periods without room. -/
structure Nupd where
  resumeTo : Nat := 0
  targets : List NuTarget := []
  queue : Sparse (List Nat) := []
  cycles : Sparse Nat := []
  rets : Sparse Nat := []
  offers : List Cmd := []
  revs : List (Nat × Nat) := []
  digest : List Byte := []
  noRoom : Sparse Nat := []
  asks : List Nat := []
  /-- The return phase of a pixel line after that in which its drivers were last asked for their progress (R398). -/
  pixAsked : Sparse Nat := []
deriving DecidableEq, Repr

/-- A channel's sums over a window: the samples in units of 2^-53 result units (R308), their squares, the largest magnitude,
and the clips. -/
structure MetCh where
  n : Nat := 0
  sum : Int := 0
  sq : Nat := 0
  peak : Nat := 0
  clips : Nat := 0
deriving DecidableEq, Repr

/-- A metrology window (R314): samples, the missing ones among them, flags, TB0 at its start and at its end, the channels'
sums, and the sums of v × i by phase slot. -/
structure MetWin where
  n : Nat := 0
  gap : Nat := 0
  short : Bool := false
  unaligned : Bool := false
  sec : Nat := 0
  ns : Nat := 0
  endSec : Nat := 0
  endNs : Nat := 0
  /-- The sample sets there had been when it ended. -/
  endSets : Nat := 0
  chs : Sparse MetCh := []
  /-- The sums of v × i by phase slot, and of how many samples. -/
  pows : Sparse (Int × Nat) := []
deriving DecidableEq, Repr

/-- A sample set as it came (R307-R309): its TB0 time, whether it was received, its codes, and its samples in units of 2^-53 result
units. -/
structure MetSet where
  at' : Nat
  got : Bool
  codes : List Int
  xs : List Int
deriving DecidableEq, Repr

/-- A phase slot's accumulators in units of 2^-40 mWh and mvarh (R318), its live WRAP (R319), EA_IMP and EA_EXP in mWh at
the last latch or clear, and what the interval had added before a clear (R321, R327). -/
structure MetTot where
  imp : Nat := 0
  exp : Nat := 0
  ind : Nat := 0
  cap : Nat := 0
  wrap : Bool := false
  impAt : Nat := 0
  expAt : Nat := 0
  impAdd : Nat := 0
  expAdd : Nat := 0
deriving DecidableEq, Repr

/-- A snapshot that has been latched and waits to be shown (R321, R322): sources (1 host, 2 interval), the sample set of the
latch, its words by offset, and whether it contains a WRAP or a REV_SEEN. -/
structure MetLatch where
  src : Nat
  at' : Nat
  words : List (Nat × Word)
  wrap : Bool
  rev : Bool
deriving DecidableEq, Repr

/-- A residual channel (R331): windows learned and their sum, the baseline in 2^-32 µA, transients, clean windows of an open
alarm. -/
structure RcmCh where
  n : Nat := 0
  sum : Nat := 0
  base : Nat := 0
  learned : Bool := false
  suspect : Bool := false
  alarm : Bool := false
  clean : Nat := 0
  trans : Nat := 0
deriving DecidableEq, Repr

/-- MET beyond its registers (R309-R331): whether a window is open, the window, the samples beyond its 6,400, windows that
have ended, whether the next is short; the last sample sets (newest first), which of them were received, the last before their delay, the instant of
a trigger whose first sample is to come, and the number of sets; RMS and FREQ of each voltage
channel in the last window; power samples in progress as (sum, samples) by slot, and those that have ended; totals; whether
a gap fell into the interval; gap-free frames; latches; results that wait for WIN_READY; windows since the last copy, its
sequence, whether the next copy is B; residual channels; imported energy not yet pulsed; frames held while MET is in
reset, with the TB0 time they came at. -/
structure Met where
  open' : Bool := false
  cur : MetWin := {}
  past : MetWin := {}
  closed : List MetWin := []
  shortNext : Bool := false
  hist : List (List Int) := []
  /-- For each set of `hist`, the channels of which nothing was received (R309). -/
  got : List (List Nat) := []
  raw : List MetSet := []
  /-- How many of the newest sets of `raw` wait for the later ones that an advance needs (R308, R334). -/
  ahead : Nat := 0
  trig : Option Nat := none
  sets : Nat := 0
  lastV : Sparse (Nat × Nat) := []
  ps : Sparse (Int × Nat) := []
  ended : List (Nat × Int) := []
  tots : Sparse MetTot := []
  gapInt : Bool := false
  clear : Nat := 0
  latches : List MetLatch := []
  pend : Option (List (Nat × Word)) := none
  persistCnt : Nat := 0
  seq : Nat := 0
  nextB : Bool := false
  rcm : Sparse RcmCh := []
  testAcc : Nat := 0
  buf : List (CopyResult × List (List Int) × Nat) := []
deriving DecidableEq, Repr

/-- A frame the radio is to send (R366): the next hop's short address (0xFFFF broadcast), another network's PAN ID, the
payload from the header byte on, the channel offset, whether it is acknowledged, the point and the command it carries (0
none), and what it is: 0 command, 1 report request, 2 ERG segment, 3 JOIN or KEY answer, 4 NUPD broadcast. -/
structure RfFrame where
  dst : Nat
  pan : Option Nat := none
  payload : List Byte
  offset : Nat := 0
  acked : Bool := true
  point : Option Nat := none
  uid : Nat := 0
  kind : Nat := 0
  /-- The one retry after a block reset (R42). -/
  again : Bool := false
deriving DecidableEq, Repr

/-- The frame under way (R375): its attempt, busy CCAs in a row, data slots still to wait, and whether it is on the air
unacknowledged. -/
structure RfTx where
  frame : RfFrame
  second : Bool := false
  busy : Nat := 0
  defer : Nat := 0
  onAir : Bool := false
  /-- Its FC once it has been on the air: a repeat carries the same (R375, R376). -/
  fc : Option Nat := none
deriving DecidableEq, Repr

/-- A frame held for a sleepy child (R382), with the `ACT_MS` since when. -/
structure RfHeld where
  frame : RfFrame
  since : Nat
deriving DecidableEq, Repr

/-- A session (R373, R376, R383, R387), with the EUI-64 it belongs to and its router's channel offset; D in ppm, the guard
and the residuals of the last polls in µs. -/
structure CrvSes where
  valid : Bool := false
  router : Bool := false
  sleepy : Bool := false
  lost : Bool := false
  depth : Nat := 0
  ngen : Nat := 0
  parent : Nat := 0
  lqi : Nat := 0
  misses : Nat := 0
  dsn : Nat := 0
  point : Nat := 0
  fc : Nat := 0
  fcMs : Nat := 0
  lease : Nat := 0
  drift : Rat := 0
  guard : Rat := 0
  res : List Rat := []
  nominal : Nat := 0
  before : Nat := 0
  pollS : Nat := 0
  held : List RfHeld := []
  eui : Nat := 0
  offset : Nat := 0
  evSeq : Option (Nat × Nat) := none
  listen : Nat := 0
  /-- Copies that would be a ninth frame held for it (R382). -/
  wait : List RfFrame := []
deriving DecidableEq, Repr

/-- A group command that members have not all acknowledged (R378, R379): its group SEQ, the members still open, and whether
it has been sent. -/
structure CrvGroup where
  cmd : Cmd
  seq : Nat
  left : List Nat
  sent : Bool := false
deriving DecidableEq, Repr

/-- A radio: the floor F in dBm once it has sampled (R360), the frames it sent with their end and length in µs (R361). -/
structure RfState where
  floor : Option Rat := none
  sent : List (Nat × Nat) := []
  /-- RFA_PA_EN is high between these microseconds of TB0 (R358). -/
  pa : Nat × Nat := (0, 0)
  /-- Its synthesiser has lost lock (R393, R553). -/
  unlocked : Bool := false
  /-- The loss of lock is lasting (R553). -/
  off : Bool := false
deriving DecidableEq, Repr

/-- Caravan (R356-R393): sessions by short address, command queues by point, group commands and group SEQs, the frame under
way, points to be asked for a report so that their SEQ becomes known, answers that wait, ERG segments that wait, the key roll's phase (1 announced, 2 overlap), EPOCH, JCTR by EUI-64, the last beacon
counter, whether beacons are sent, the FRAGs of a second, whether a NACK_REQ is due, received ERG segments (R450), the FC, DSN and time of the
last frame of each coordinator (R376), radios. -/
structure Crv where
  ses : Sparse CrvSes := []
  pos : Sparse LPos := []
  groups : List CrvGroup := []
  gseq : Sparse Nat := []
  tx : Option RfTx := none
  asks : List Nat := []
  answers : List RfFrame := []
  erg : List RfFrame := []
  roll : Nat := 0
  epoch : Nat := 0
  jctr : Sparse Nat := []
  beaconFc : Option Nat := none
  frags : Nat × Nat := (0, 0)
  nackDue : Bool := false
  ergRx : Sparse (List (Nat × List Byte)) := []
  ergFc : Sparse (Nat × Nat × Nat) := []
  radios : Sparse RfState := []
  /-- Join requests whose look-up in the point table waits (R118, R120). -/
  joins : List JoinReq := []
  /-- Answers of a double slot that has begun: they go in its second slot (R362). -/
  soon : List RfFrame := []
  /-- The slot that a double slot's exchange still occupies (R362). -/
  dbl : Option Nat := none
  /-- Requests that a block reset ended and that are made for the second time: requester (1 DIAG, 2 NUPD, 3 a FRAG of NUPD), point or
  fragment (R42). -/
  again : List (Nat × Nat) := []
deriving DecidableEq, Repr

/-- A queue-0 frame loaded into a transmit FIFO (R421, R422): its bytes before padding and FCS, how many descriptors it
took, TS_REQ, ONE_STEP with PTP_OFF, and VLAN_INS with its TCI. -/
structure EthTx where
  bytes : List Byte
  descs : Nat
  stamp : Bool := false
  oneStep : Option Nat := none
  tag : Option Nat := none
deriving DecidableEq, Repr

/-- An Ethernet port (R412-R434): the Erg queue, the queue-0 frame in the FIFO, what is in transmission (a queue-0 frame
with its stamp, or an Erg frame), the abilities, PAUSE_ADV and MS negotiated with, the received pause (quanta and the cycle at which its time
started), PAUSE frames that wait for the frame in transmission, the bytes in the receive FIFO, and a negotiation under
LP_100. -/
structure Eth where
  erg : List (List Byte) := []
  fifo : Option EthTx := none
  air : Option (Option (EthTx × Nat × Nat)) := none
  adv : Nat := 0
  pauseAdv : Nat := 0
  ms : Nat := 0
  pause : Option (Nat × Option Nat) := none
  pauseOut : List Nat := []
  rxFifo : Nat := 0
  lowPower : Bool := false
deriving DecidableEq, Repr

/-- A neighbour entry's on-die copy (R441, R442): the entry's words, addresses as numbers, what was learned, paths UP. -/
structure ErgNbr where
  valid : Bool := false
  word0 : Word := 0
  rfPan : Nat := 0
  tag : Option Nat := none
  ipA : Nat := 0
  ipB : Nat := 0
  macA : Nat := 0
  macB : Nat := 0
  hop : Nat := 0
  learned : Bool := false
  upA : Bool := false
  upB : Bool := false
deriving DecidableEq, Repr

/-- What ERG keeps of a neighbour's and its own numbering, by fabric address (R444, R445): the SESSION kept, H, the record
of H - 1 to H - 32, HELLOs in a row with an earlier SESSION, and the last SEQ sent. -/
structure ErgPeer where
  session : Option Nat := none
  high : Nat := 0
  record : Nat := 0
  early : Nat := 0
  seq : Nat := 0
deriving DecidableEq, Repr

/-- An Erg message (R439): `flood` is ORIGIN and OSEQ. -/
structure ErgMsg where
  ackReq : Bool
  flood : Option (Nat × Nat)
  type : Nat
  src : Nat
  dst : Nat
  ttl : Nat
  session : Nat
  seq : Nat
  payload : List Byte
deriving DecidableEq, Repr

/-- Who asked for a message: MIR with the TRACK_ID (and whether a block reset had failed it before), a host descriptor by its index, or a forwarded flood copy. -/
inductive ErgAsker where
  | mir (id : Nat) (again : Bool)
  | host (slot : Nat)
  | copy
deriving DecidableEq, Repr

/-- A message sent, or waiting for its retry (R447): the entry, whether its retry has begun, whether the attempt found no
path, or only the radio and was too long for it. -/
structure ErgOut where
  nbr : Nat
  msg : ErgMsg
  asker : ErgAsker
  second : Bool := false
  noPath : Bool := false
  tooBig : Bool := false
deriving DecidableEq, Repr

/-- A host descriptor that ERG has taken (R452): its index, the copies still unfinished, and the status to be written. -/
structure ErgHost where
  slot : Nat
  left : Nat
  status : Nat
deriving DecidableEq, Repr

/-- Erg (R436-R457): neighbour entries, peers by address, the local block, unfinished messages in order, host descriptors
taken, the flood record, the last flood number, and when an unknown address's HELLO was last delivered. -/
structure Erg where
  nbrs : Sparse ErgNbr := []
  peers : Sparse ErgPeer := []
  local' : List Byte := []
  out : List ErgOut := []
  host : List ErgHost := []
  floods : List (Nat × Nat × Nat) := []
  oseq : Nat := 0
  heard : Sparse Nat := []
  halted : Bool := false
  /-- The radio can carry messages, as far as all entries share it (R442). -/
  rfUp : Bool := false
deriving DecidableEq, Repr

/-- A link message that the peer has not acknowledged (R471): its number and content, the cycle at which it was sent, and
whether it has been sent once more. -/
structure LinkOut where
  seq : Nat
  item : LinkItem
  since : Nat
  second : Bool := false
deriving DecidableEq, Repr

/-- The twin link controller (R461-R479): unacknowledged messages and numbering, numbers received lately, the identity
exchanged and whether it agrees or clashes, whether the peer is in control, receives the bulk copy or is in STANDBY,
whether its heartbeats are lost, health, the wait after a clash, the cycle of the last foreign edge on the own ARB line, a
planned switchover and the lines not yet released in it, lines to be driven when released, the peer's totals with their
time, an owed handover record, the longest acknowledgement since it was read, and a pairing left by command. -/
structure Twin where
  out : List LinkOut := []
  seqTx : Nat := 0
  seqRx : List Nat := []
  ident : Option TwinIdent := none
  agreed : Bool := false
  clash : Bool := false
  peerCtrl : Bool := false
  syncing : Bool := false
  peerReady : Bool := false
  lost : Bool := false
  clashWait : Bool := false
  ownEdge : Option Nat := none
  switchT : Option Nat := none
  handing : Bool := false
  toRelease : List Nat := []
  toDrive : List Nat := []
  peerTot : Sparse (Nat × Nat) := []
  peerTotAt : Nat := 0
  owes : Bool := false
  lag : Nat := 0
  left : Bool := false
  /-- The cycle at which this unit took control in a planned switchover (R476). -/
  lastT : Option Nat := none
  /-- The sender has said that it is ACTIVE since this unit entered STANDBY (R468, R471). -/
  peerActive : Bool := false
deriving DecidableEq, Repr

/-- The option bytes where neither copy is valid (R526). -/
def optDefaults : List Byte := [0, 0, 0, 0, 0, 0, 0, 0, 1, 3, 1, 0, 2, 15, 88, 2] ++ List.replicate 48 0

/-- A key slot as the security core holds it (R505): value, attribute word, generation, and whether it is SLOT_BAD. -/
structure KeySlot where
  value : List Byte := []
  attr : Word := 0
  gen : Nat := 0
  bad : Bool := false
deriving DecidableEq, Repr

/-- The Oasis domain (R483-R499): the write that crosses into it, raw oscillator ticks, alarms (bit k) that a set passed,
the periodic wake's N in force, the 50 ms minimum of a release, sources that fired in it, the waking sources, inputs
seen active at the last sample, and a mesh mismatch at the last check. -/
structure Oasis where
  flight : Option Stalled := none
  ticks : Nat := 0
  passed : Nat := 0
  pwakeN : Nat := 1
  minHold : Bool := false
  wakes : Nat := 0
  woke : Nat := 0
  tampPrev : Nat := 0
  meshPrev : Bool := false
deriving DecidableEq, Repr

/-- A reset episode and what RSTCLK and PWR keep (R541-R556): whether it is open, its sources asserted, whether its widest
reach is a core POR, the sources seen (as in `RST_REASON`), V_IN present, PLLs not locked and PLLs lastingly off (bit n), the
thermal cap, levels AVS has taken from the cap, readings in a row of M above HI and of M below LO at the top. -/
structure RstState where
  active : Bool := true
  resetN : Bool := false
  por : Bool := false
  tcxo : Bool := false
  backup : Bool := false
  porReach : Bool := true
  seen : Nat := 0xC001
  vin : Bool := true
  pllDown : Nat := 0
  pllOff : Nat := 0
  therm : Nat := 3
  avsDrop : Nat := 0
  avsHi : Nat := 0
  avsLo : Nat := 0
  /-- PLLs that have lost lock and relock (bit n). -/
  relock : Nat := 0
  /-- The boot ROM kicks the watchdog on the security core's behalf (R544). -/
  romKicks : Bool := true
deriving DecidableEq, Repr

/-- A shadow of a key slot (R511): the value, the new attribute word, its ticket, and whether it has been verified. -/
structure Shadow where
  value : List Byte
  attr : Word
  ticket : Nat
  verified : Bool
  /-- It came from LOAD source WRAPPED (R539). -/
  wrapped : Bool := false
deriving DecidableEq, Repr

/-- A mailbox request as it stood at its `MB_GO` (R519). -/
structure SecReq where
  ini : Nat
  op : Nat
  slot : Nat
  slot2 : Nat
  flags : Nat
  ptr : Nat
  len : Nat
  args : List Word
deriving DecidableEq, Repr

/-- What a request in progress may still leave undone: the slot it commits (serving, copy A, copy B), shadows, MA0-MA7 and
CRYP key registers as they were. -/
structure SecUndo where
  slot : Option (Nat × KeySlot × KeySlot × KeySlot) := none
  shadows : Sparse (Option Shadow) := []
  ma : Sparse (List Byte) := []
  keys : Sparse (Option (List Byte × Bool)) := []
deriving DecidableEq, Repr

/-- The request being served (R521): its results, its error (0 none), whether it drew from the DRBG, whether its commit clears
the tamper latches (R539), and what was before it. -/
structure SecRun where
  req : SecReq
  res : List Word := []
  err : Nat := 0
  drew : Bool := false
  heals : Bool := false
  undo : SecUndo := {}
deriving DecidableEq, Repr

/-- The security core (R504-R525): shadows, tickets, the queue and the request being served, MA0-MA7, the instruction
nonce, and the two stored copies of each slot. -/
structure Sec where
  shadows : Sparse (Option Shadow) := []
  ticket : Nat := 0
  queue : List SecReq := []
  run : Option SecRun := none
  ma : Sparse (List Byte) := []
  nonce : Option (List Byte) := none
  copyA : Sparse KeySlot := []
  copyB : Sparse KeySlot := []
deriving DecidableEq, Repr

/-- A CRYP job as it stood at its `CR_GO` (R522). -/
structure CrypJob where
  alg : Nat
  dec : Bool
  key : List Byte
  src : Nat
  dst : Nat
  len : Nat
  aad : Nat
  iv : List Byte
  tag : List Byte
deriving DecidableEq, Repr

/-- CRYP beyond its registers: key registers with their value and whether it is 256-bit, key data for `CR_KLOAD`, and the
job. -/
structure Cryp where
  keys : Sparse (Option (List Byte × Bool)) := []
  data : Sparse Word := []
  job : Option CrypJob := none
deriving DecidableEq, Repr

/-- A component as a set holds it (R533): version, length, digest, and what it requires as (ID, least, greatest). -/
structure SetComp where
  ver : Nat := 0
  len : Nat := 0
  digest : List Byte := []
  deps : List (Nat × Nat × Nat) := []
deriving DecidableEq, Repr

/-- The set table in NOR and the update under way (R533-R537): a staged package, the components of ACTIVE and RETAIN, the
components the package changes, those still to be copied in, `UPD_STAT` STATE, trial starts and CAUSE, MIN_SVN, the
package's SVN, and the debug port closed for this start (R538). -/
structure Boot where
  staged : Bool := false
  act : Sparse SetComp := []
  ret : Sparse SetComp := []
  changed : List Nat := []
  toCopy : List (Nat × SetComp) := []
  st : Nat := 0
  trials : Nat := 0
  cause : Nat := 0
  minSvn : Nat := 0
  svn : Nat := 0
  dbgClosed : Bool := false
  /-- LINE_SAFE, while the lines wait for RT0 to act under it: 1 HOLD, 2 FAILSAFE_CMD (R528). -/
  safe : Nat := 0
deriving DecidableEq, Repr

/-- An entry of CMDQ (R570-R572): address, KIND, data, the initiator that pushed it, and its failed attempts. -/
structure CqEntry where
  addr : Nat
  kind : Nat
  data : Word
  ini : Ini
  tries : Nat := 0
deriving DecidableEq, Repr

/-- CMDQ (R570-R573): entries from the head on, and pushes that stall. -/
structure Cmdq where
  entries : List CqEntry := []
  stalled : List CqEntry := []
deriving DecidableEq, Repr

/-- What the module puts on its lands, wires, links and air, in the order it does. -/
inductive Sent where
  /-- A contactor coil driver conducts: contactor, RESET coil, units of 10 ms (R56). -/
  | coil (c : Nat) (reset : Bool) (units : Nat)
  /-- A pulse on PPS_OUT (R83). -/
  | pps
  /-- A Caravan frame: radio, channel, frame counter, key (0 none, 255 BK, g NK(g), 256 XK), next hop, PAN ID, power in dBm and whether
  RFA_PA_EN is driven (R358), payload before its security, and as secured (R366, R385). -/
  | radio (rf ch fc key dst pan pwr : Nat) (pa : Bool) (payload sec : List Byte)
  /-- An acknowledgement of a received Caravan frame, with its vendor IE, whose contents the spec does not give (R359, R375, R376). -/
  | radioAck (dst ie : Nat)
  /-- A 10 ms pulse of the metrology test output on a GPIO pin (R333). -/
  | testPulse (pin : Nat)
  /-- A Modbus request (R63). -/
  | modbus (q : Nat) (frame : List Byte)
  /-- A raw RS-485 byte (R64). -/
  | raw (q : Nat) (b : Byte)
  /-- A USB IN transfer, and whether a zero-length packet ends it (R68). -/
  | usbIn (e : Nat) (data : List Byte) (zlp : Bool)
  /-- A pulse on the own ARB line (R462). -/
  | arb (roleB : Bool)
  /-- A twin link message on a lane (R471). -/
  | link (lane seq : Nat) (item : LinkItem)
  /-- An Ethernet frame of a port, from destination address to FCS (R414). -/
  | eth (n : Nat) (frame : List Byte)
  /-- Bytes of a forward frame on a Wadi line (R154). -/
  | wadi (n : Nat) (bytes : List Byte)
deriving DecidableEq, Repr

end Sys2Proof.Machine
end

