-- ==== Sys2Proof/Machine/State.lean ====
section
/-! DEFINITION. The state of the block, its faults and refusals, and the state after reset. -/
namespace Sys2Proof.Machine

/-- The block has no fault that stops it: every fault of the manual is a record, a flag or a bus error in State. -/
inductive Fault where
deriving DecidableEq, Repr

/-- Why a command could be refused. -/
inductive Refusal where
  /-- Raised by `exec` for a row that has no meaning yet: safe, nothing is claimed of it. -/
  | notModelled (mnemonic : String)
deriving DecidableEq, Repr

/-- The module. -/
structure State where
  /-- The commands that wait, first in, first out. -/
  pending : List Instr := []
  /-- TB0-TB3 (R69). -/
  tb : TimeBases := {}
  /-- The model's own counter, to which the Config free values are applied (log 1). -/
  freeCtr : Nat := 0
  /-- How the last bus access ended. -/
  resp : Resp := .idle
  /-- Registers by physical address; a per-initiator register of initiator i at (i + 1) * 2^32 + address. -/
  regs : Sparse Word := []
  /-- Boot ROM, system SRAM, MRAM, NOR and DRAM by physical address (R20). -/
  mem : List Host.Cell := []
  /-- Pages whose `LOCK` key is armed, by base: the initiator plus one (R33). -/
  lockKey : Sparse Nat := []
  /-- Pages in block reset, by base (R41). -/
  resetting : Sparse Bool := []
  /-- Reset epochs of the pages, by base (R42). -/
  epoch : Sparse Nat := []
  /-- Accesses that wait for a page's READY (R41). -/
  stalled : List Stalled := []
  /-- Interrupt sources claimed: source to target plus one (R47). -/
  claims : Sparse Nat := []
  /-- Software interrupts SWI0-SWI7 (R45). -/
  swi : Nat := 0
  /-- What the module has sent, oldest first. -/
  sent : List Sent := []
  nand : Nand := {}
  cont : Cont := {}
  ser : Sparse SerPort := []
  usb : Usb := {}
  trg : Sparse TrgUnit := []
  cap : Sparse CapUnit := []
  detIn : Sparse DetInput := []
  det : Det := {}
  mir : Mir := {}
  ptab : Ptab := {}
  evq : Sparse EvStream := []
  evr : Evr := {}
  line : Sparse LineState := []
  pix : Sparse PixGroup := []
  dim : Dim := {}
  sched : Sched := {}
  attr : Attr := {}
  diag : Diag := {}
  nupd : Nupd := {}
  met : Met := {}
  crv : Crv := {}
  eth : Sparse Eth := []
  erg : Erg := {}
  twin : Twin := {}
  /-- The option bytes in force (R526). -/
  opt : List Byte := optDefaults
  /-- The key slots (R505). -/
  keys : Sparse KeySlot := []
  /-- The real-time clock of the Oasis domain: seconds × 2^15 + fraction (R485). -/
  rtc : Nat := 0
  /-- The internal rails are on: `PWR_ON` is asserted (R494). -/
  railsOn : Bool := true
  oas : Oasis := {}
  /-- The reset episode, supply and clocks (R541-R556). -/
  rst : RstState := {}
  sec : Sec := {}
  cryp : Cryp := {}
  boot : Boot := {}
  /-- NEXT of each DMA chain held at a quiesce, plus one (R568). -/
  dmaNext : Sparse Nat := []
  cmdq : Cmdq := {}
  /-- The levels outside at the GPIO lands, after the filter (R58). -/
  lands : Nat := 0
  /-- Transient faults for which no chapter gives a counter, by page base (R16, log 114). -/
  transient : Sparse Nat := []
deriving DecidableEq, Repr

/-- The module right after reset: every register at the value its map gives, nothing listed in memory, nothing in
flight (R39, R541). -/
def State.reset : State := {}

end Sys2Proof.Machine
end

