-- ==== Sys2Proof/Machine/Ops.lean ====
section
/-! DEFINITION. The named operations over registers, memory and free values that every meaning is written with. -/
namespace Sys2Proof.Machine

/-- The outcome of a command. -/
abbrev Out := Host.Outcome State Fault Refusal

/-- What a command leaves, with the queue and the time as they were. -/
def settle (s t : State) : State := { t with pending := s.pending, tb := s.tb }

/-- What a command that may set the time leaves, with the queue as it was. -/
def settleTb (s t : State) : State := { t with pending := s.pending }

/-- A command has run: `t` is the state it leaves.  No command but those of the time bases and the resets moves time, and none
touches the queue. -/
def done (s t : State) : Out := .next (settle s t)

/-- A command that may set the time bases has run. -/
def doneTb (s t : State) : Out := .next (settleTb s t)

/-! ### Registers -/

/-- The register map of a page. -/
def mapOf : Page → List RegRow
  | .irqr => mapIrqr | .sys => mapSys | .memc => mapMemc | .cont => mapCont | .gpio => mapGpio | .ser485 => mapSer
  | .ptab => mapPtab | .evq => mapEvq | .evr => mapEvr
  | .line _ => mapLine | .lseq => mapLseq | .pixb => mapPixb | .dim => mapDim | .det => mapDet | .mir => mapMir | .sched => mapSched | .diag => mapDiag
  | .crv => mapCrv | .rf n => mapRf n | .met => mapMet | .mch n => mapMch n | .attr => mapAttr | .nupd => mapNupd | .eth _ => mapEth | .erg => mapErg | .twin => mapTwin | .oasis => mapOasis | .sec => mapSec | .cryp => mapCryp | .optb => mapOptb | .rstclk => mapRstclk | .pwr => mapPwr | .dma => mapDma | .cmdq => mapCmdq | .ident => mapIdent | .usbd => mapUsbd | .tb n => mapTb n | .ttrig => mapTtrig

/-- The map line of an offset; a reserved offset has none (R6). -/
def rowOf (p : Page) (off : Nat) : Option RegRow :=
  if off < 0x40 then mapHeader.find? (rowHas · off) else (mapOf p).find? (rowHas · off)

/-- What a register holds after reset. -/
def regReset (key : Nat) : Word :=
  let a := key % 2 ^ 32
  match pageAt a with
  | none => 0
  | some p =>
    let off := a % 0x1000
    if off = 0 then word (blkId p)
    else if off = 4 then word (b01 (pageEnReset p))
    else match rowOf p off with
      | some r => word r.reset
      | none => 0

/-- The key of a register in the register store. -/
def regKey (p : Page) (off : Nat) : Nat := pageBase p + off

/-- The key of an initiator's own register. -/
def regKeyI (p : Page) (off : Nat) (i : Fin 10) : Nat := (i.val + 1) * 2 ^ 32 + (pageBase p + off)

/-- A register's value. -/
def reg (s : State) (p : Page) (off : Nat) : Word := spGet regReset s.regs (regKey p off)

/-- An initiator's own register. -/
def regI (s : State) (p : Page) (off : Nat) (i : Fin 10) : Word := spGet regReset s.regs (regKeyI p off i)

/-- Sets a register. -/
def setReg (p : Page) (off : Nat) (v : Word) (s : State) : State :=
  { s with regs := spPut regReset (regKey p off) v s.regs }

/-- Sets an initiator's own register. -/
def setRegI (p : Page) (off : Nat) (i : Fin 10) (v : Word) (s : State) : State :=
  { s with regs := spPut regReset (regKeyI p off i) v s.regs }

/-- A register as a number. -/
def regN (s : State) (p : Page) (off : Nat) : Nat := (reg s p off).toNat

/-- A field of a register. -/
def regF (s : State) (p : Page) (off hi lo : Nat) : Nat := fld (reg s p off) hi lo

/-- A bit of a register. -/
def regB (s : State) (p : Page) (off n : Nat) : Bool := bit (reg s p off) n

/-- Sets a field of a register. -/
def setRegF (p : Page) (off hi lo v : Nat) (s : State) : State := setReg p off (setFld (reg s p off) hi lo v) s

/-- Sets a bit of a register. -/
def setRegB (p : Page) (off n : Nat) (b : Bool) (s : State) : State := setReg p off (setBit (reg s p off) n b) s

/-- A 32-bit counter register counts up and saturates. -/
def bumpReg (p : Page) (off : Nat) (s : State) : State := setReg p off (word (satInc 0xFFFFFFFF (regN s p off))) s

/-- A counter in a field of a register counts up and saturates. -/
def bumpRegF (p : Page) (off hi lo : Nat) (s : State) : State :=
  setRegF p off hi lo (satInc (2 ^ (hi + 1 - lo) - 1) (regF s p off hi lo)) s

/-! ### Free values -/

/-- A word the manual leaves open. -/
def freeW (s : State) : Word := Config.freeWord s.freeCtr

/-- A choice the manual leaves open. -/
def freeN (s : State) : Nat := Config.freeNat s.freeCtr

/-- Bytes the manual leaves open. -/
def freeB (s : State) (len : Nat) : List Byte := takePad len (Config.freeBytes s.freeCtr)

/-- A number rounded to the nearest whole; the manual leaves open which way a half goes. -/
def ratRound (s : State) (x : Rat) : Int :=
  let f := x.floor
  if x - f < 1 / 2 then f else if 1 / 2 < x - f then f + 1 else f + (freeN s % 2 : Nat)

/-- The free value has been used; the next one is fresh. -/
def used (s : State) : State := { s with freeCtr := s.freeCtr + 1 }

/-! ### Memory -/

/-- What a byte of memory that nothing has written reads as: DRAM is zeroed at every core reset (R541); the boot ROM's
bytes are open; for the others zero is the model's (DESIGN CHOICE, log 2). -/
def memReset (a : Nat) : Byte := if a < 0x40000 then Config.romByte a else 0

/-- The canonical form of memory. -/
abbrev Memory.wf (m : List Host.Cell) : Bool := spWf memReset m

/-- One byte of memory. -/
def memByte (s : State) (a : Nat) : Byte := spGet memReset s.mem a

/-- Writes one byte. -/
def memPut (a : Nat) (b : Byte) (s : State) : State := { s with mem := spPut memReset a b s.mem }

/-- `len` bytes from an address. -/
def memRead (s : State) (a : Nat) : Nat → List Byte
  | 0 => []
  | len + 1 => memByte s a :: memRead s (a + 1) len

/-- Writes bytes from an address, in rising order. -/
def memWrite (a : Nat) : List Byte → State → State
  | [], s => s
  | b :: bs, s => memWrite (a + 1) bs (memPut a b s)

/-- A little-endian number of `len` bytes (R7). -/
def memNat (s : State) (a len : Nat) : Nat := leNat (memRead s a len)

/-- A little-endian word (R7). -/
def mem32 (s : State) (a : Nat) : Word := word (memNat s a 4)

/-- Writes a little-endian word (R7). -/
def setMem32 (a : Nat) (v : Word) (s : State) : State := memWrite a (leBytes 4 v.toNat) s

/-- `n` words from an address. -/
def memWords (s : State) (a : Nat) : Nat → List Word
  | 0 => []
  | n + 1 => mem32 s a :: memWords s (a + 4) n

/-- System SRAM (R20). -/
def inSram (a len : Nat) : Bool := decide (0x10000000 ≤ a) && decide (a + len ≤ 0x10400000)

/-- DRAM (R20). -/
def inDram (a len : Nat) : Bool := decide (0x80000000 ≤ a) && decide (a + len ≤ 0xC0000000)

/-- System SRAM or DRAM, the only places for buffers, rings and tables. -/
def inRam (a len : Nat) : Bool := inSram a len || inDram a len

/-! ### Page header -/

/-- The module's serial, [15:0], as location codes carry it; 0 while IDENT is not valid (R596, R600). -/
def serial16 (s : State) : Nat := regF s .ident 0x048 15 0

/-- `BLK_CTRL.EN` (R28). -/
def enabled (s : State) (p : Page) : Bool := regB s p 0x004 0

/-- A page is in a reset of reach DATAPATH or FULL (R41). -/
def inReset (s : State) (p : Page) : Bool := spGet (fun _ => false) s.resetting (pageBase p)

/-- ASLEEP (R37). -/
def asleep (s : State) (p : Page) : Bool := regB s p 0x008 4

/-- QUIESCED (R35). -/
def quiesced (s : State) (p : Page) : Bool := regB s p 0x008 1

/-- The block is asked to quiesce, or is quiesced (R35, R37). -/
def quiescing (s : State) (p : Page) : Bool := regB s p 0x004 2 || regB s p 0x004 1 || quiesced s p

/-- The PLL that a page consumes (R553): 1 SYS, 2 TB, 3 LINE, 5 ETH. -/
def pllOf : Page → Nat
  | .line _ => 3
  | .eth _ => 5
  | .tb _ => 2
  | .ttrig => 2
  | .det => 2
  | _ => 1

/-- The page's PLL has been started or has lost lock, and is not locked: READY follows lock, and the consumer stalls
(R553). -/
def pllStalls (s : State) (p : Page) : Bool := s.rst.pllDown.testBit (pllOf p)

/-- The block does work of its own: enabled, ready and not asleep (R631, R41, R37, R553). -/
def working (s : State) (p : Page) : Bool := enabled s p && !inReset s p && !asleep s p && !pllStalls s p

/-- Nothing stops the block's clocks: work it has accepted goes on, with EN set or not (R631, R41, R37, R553). -/
def running (s : State) (p : Page) : Bool := !inReset s p && !asleep s p && !pllStalls s p

/-- The block takes new work requests (R35, R631). -/
def accepting (s : State) (p : Page) : Bool := working s p && !quiescing s p

/-- A lock group of a page is frozen (R33). -/
def locked (s : State) (p : Page) (group : Nat) : Bool := regB s p 0x020 group

/-- A raw interrupt source rises: its `IRQ_STAT` bit sets whatever `IRQ_EN` holds (R30). -/
def raiseIrq (p : Page) (n : Nat) (s : State) : State := setRegB p 0x014 n true s

/-- A raw source that is a level: its `IRQ_RAW` bit follows, and its rise sets `IRQ_STAT` (R30). -/
def levelIrq (p : Page) (n : Nat) (b : Bool) (s : State) : State :=
  let s1 := setRegB p 0x00C n b s
  if b && !regB s p 0x00C n then raiseIrq p n s1 else s1

/-- Records an error with the low word of its location code (R31). -/
def recErrAt (p : Page) (code loc : Nat) (s : State) : State :=
  let n := satInc 255 (regF s p 0x018 23 16)
  raiseIrq p 31 (setRegB p 0x00C 31 true (setRegB p 0x008 3 true
    (setReg p 0x01C (word loc) (setReg p 0x018 (word (n * 65536 + code % 65536)) s))))

/-- Records an error of a page about itself: ARRAY, WORD and CELL none (R599). -/
def recErr (p : Page) (code : Nat) (s : State) : State := recErrAt p code locNone s

/-- An automatic operation of a page has succeeded on its retry, where the page's chapter names no counter for it: the
transient fault is recorded in the model's own count (R16; DESIGN CHOICE, log 114). -/
def noteTransient (p : Page) (s : State) : State :=
  { s with transient := spPut (fun _ => 0) (pageBase p) (spGet (fun _ => 0) s.transient (pageBase p) + 1) s.transient }

/-- The common codes of R32. -/
def errBusyQuiesced : Nat := 1
/-- BLOCK_RESET (R32). -/
def errBlockReset : Nat := 2
/-- LOCKED_WRITE (R32). -/
def errLockedWrite : Nat := 3
/-- BAD_KEY (R32). -/
def errBadKey : Nat := 4
/-- BAD_RESET (R32). -/
def errBadReset : Nat := 5
/-- ASLEEP (R32). -/
def errAsleep : Nat := 6
/-- DISABLED (R32). -/
def errDisabled : Nat := 7

/-- Answers the bus access. -/
def answer (r : Resp) (s : State) : State := { s with resp := r }

/-- A work request from a processor or the DMA engine: refused by a disabled or a quiescing block with its bus
error and its record, else carried out (R35, R38, R631). -/
def workRequest (p : Page) (fx : State → State) (s : State) : State :=
  if !enabled s p then answer (.err .disabled) (recErr p errDisabled s)
  else if quiescing s p then answer (.err .busyQuiesced) (recErr p errBusyQuiesced s)
  else fx s

/-- A keyed register: [31:24] must hold the key, else BAD_KEY (R32). -/
def keyed (p : Page) (key : Nat) (v : Word) (fx : State → State) (s : State) : State :=
  if fld v 31 24 = key then fx s else recErr p errBadKey s

/-- The module puts something on its wires. -/
def send (x : Sent) (s : State) : State := { s with sent := s.sent ++ [x] }

/-- A byte of the option bytes in force (R526). -/
def optByte (s : State) (n : Nat) : Nat := (s.opt.getD n 0).toNat

/-- The unit is in control: a unit whose `TW_CTRL.EN` is 0 always, another while `TW_STAT.CTRL` is 1 (R461, R462). -/
def inControl (s : State) : Bool := !regB s .twin 0x040 0 || regB s .twin 0x044 4

/-- Applies an operation for each number of a list. -/
def forEach {α : Type} (f : α → State → State) : List α → State → State
  | [], s => s
  | x :: xs, s => forEach f xs (f x s)

/-! ### Time -/

/-- A time base. -/
def tbOf (t : TimeBases) (n : Fin 4) : TimeBase :=
  match n with
  | 0 => t.t0 | 1 => t.t1 | 2 => t.t2 | 3 => t.t3

/-- Sets a time base. -/
def setTb (n : Fin 4) (b : TimeBase) (t : TimeBases) : TimeBases :=
  match n with
  | 0 => { t with t0 := b } | 1 => { t with t1 := b } | 2 => { t with t2 := b } | 3 => { t with t3 := b }

/-- `ACT_MS` of a time base (R72). -/
def actMsOf (b : TimeBase) : Nat := (b.sec * 1000 + b.ns / 1000000) % 2 ^ 32

/-- TB0's `ACT_MS`, against which action times are compared (R79, R80). -/
def nowMs (s : State) : Nat := actMsOf s.tb.t0

/-- TB0 in nanoseconds since its zero. -/
def tbNs (b : TimeBase) : Nat := b.sec * 1000000000 + b.ns

/-- TB0 seconds [31:0]. -/
def nowSec (s : State) : Nat := s.tb.t0.sec % 2 ^ 32

end Sys2Proof.Machine
end

