-- ==== Sys2Proof/Machine/Operands.lean ====
section
/-! DEFINITION. What a register write leaves in the register: access codes, range limits, guards and locks
(R25, R33, R632), and who may access what (R20-R23). -/
namespace Sys2Proof.Machine

/-- What comes of applying a chapter's rules to the value written: the new value, whether a frozen field would have
changed, or the code under which the whole write is refused. -/
inductive WriteResult where
  | value (v : Word) (lockedHit : Bool)
  | refuse (code : Nat)
deriving DecidableEq, Repr

/-- One rule applied to a write of `new` over `old`. -/
def applyRule (s : State) (p : Page) (off : Nat) (old new : Word) (hit : Bool) : FieldRule → WriteResult
  | .lock g m =>
    if locked s p g then .value ((old &&& word m) ||| (new &&& ~~~(word m))) (hit || ((old ^^^ new) &&& word m) != 0)
    else .value new hit
  | .clamp hi lo a b => .value (setFld new hi lo (clampNat a b (fld new hi lo))) hit
  | .sclamp hi lo a b =>
    .value (setFld new hi lo (unsigned (hi + 1 - lo) (clampInt a b (signed (hi + 1 - lo) (fld new hi lo))))) hit
  | .range hi lo a b c => if a ≤ fld new hi lo ∧ fld new hi lo ≤ b then .value new hit else .refuse c
  | .srange hi lo a b c =>
    let v := signed (hi + 1 - lo) (fld new hi lo)
    if a ≤ v ∧ v ≤ b then .value new hit else .refuse c
  | .oneOf hi lo vs c => if vs.contains (fld new hi lo) then .value new hit else .refuse c
  | .guard m ctl hi lo v c =>
    let own := ctl = off || ctl = 0xFFFF
    let before := if own then fld old hi lo else regF s p ctl hi lo
    let after := if own then fld new hi lo else before
    if ((old ^^^ new) &&& word m) != 0 && before != v && after != v then .refuse c else .value new hit
  | .keep m => .value ((old &&& word m) ||| (new &&& ~~~(word m))) hit
  | .le h1 l1 h2 l2 strict c =>
    if fld new h1 l1 < fld new h2 l2 || (!strict && fld new h1 l1 == fld new h2 l2) then .value new hit else .refuse c
  | .readMask _ => .value new hit
  | .priv _ => .value new hit
  | .machine => .value new hit
  | .only _ _ => .value new hit

/-- The rules of a register in their order. -/
def applyRules (s : State) (p : Page) (off : Nat) (old : Word) : List FieldRule → Word → Bool → WriteResult
  | [], new, hit => .value new hit
  | r :: rs, new, hit =>
    match applyRule s p off old new hit r with
    | .value v h => applyRules s p off old rs v h
    | .refuse c => .refuse c

/-- A write of a register's fields under its map line (R25): what `REG_WRITE` does where no chapter gives the write
an effect of its own. -/
def plainWrite (ini : Ini) (p : Page) (off : Nat) (v : Word) (s : State) : State :=
  match rowOf p off with
  | none => s
  | some r =>
    match r.acc with
    | .ro => s
    | .rc => s
    | .wo => s
    | .w1c => setReg p off (reg s p off &&& ~~~v) s
    | .rw =>
      let old := if r.perIni then regI s p off ini.id else reg s p off
      match applyRules s p off old r.rules (v &&& word r.mask) false with
      | .refuse c => recErr p c s
      | .value w hit =>
        let s1 := if r.perIni then setRegI p off ini.id w s else setReg p off w s
        if hit then recErr p errLockedWrite s1 else s1

/-- Whether a register write is carried out, or refused whole by a rule of its map line. -/
def writeTaken (p : Page) (off : Nat) (v : Word) (s : State) : Bool :=
  match rowOf p off with
  | none => false
  | some r =>
    match applyRules s p off (reg s p off) r.rules (v &&& word r.mask) false with
    | .refuse _ => false
    | .value _ _ => true

/-- The bits that reads of a map line show. -/
def shownMask (r : RegRow) : Nat := (r.rules.findSome? fun | .readMask m => some m | _ => none).getD 0xFFFFFFFF

/-- A read of a register as its map line gives it: a read of an RC register returns it and clears it (R25). -/
def plainRead (ini : Ini) (p : Page) (off : Nat) (s : State) : State :=
  match rowOf p off with
  | none => answer (.data 0) s
  | some r =>
    match r.acc with
    | .wo => answer (.data 0) s
    | .rc => answer (.data (reg s p off)) (setReg p off (word r.reset) s)
    | _ => answer (.data ((if r.perIni then regI s p off ini.id else reg s p off) &&& word (shownMask r))) s

/-- An application core in machine mode, or a processor that has no other mode. -/
def inMachineMode (ini : Ini) : Bool := !ini.user

/-- The rules of a map line that say who may write. -/
def writeAdmitted (ini : Ini) (p : Page) (off : Nat) : Bool :=
  match rowOf p off with
  | none => true
  | some r => r.rules.all fun
    | .priv who => who.contains ini.id.val
    | .machine => decide (3 < ini.id.val) || inMachineMode ini
    | _ => true

/-- The map line's rule that ignores the write of another initiator with a code (R46). -/
def writeIgnored (ini : Ini) (p : Page) (off : Nat) : Option Nat :=
  match rowOf p off with
  | none => none
  | some r => r.rules.findSome? fun
    | .only who c => if who.contains ini.id.val then none else some c
    | _ => none

/-- Which initiators a page admits at all (R23): USBD only the application cluster and the security core (R68); SEC
only processors (R507). -/
def pageAdmits (ini : Ini) : Page → Bool
  | .usbd => decide (ini.id.val < 4) || ini.id == 8
  | .sec => ini.id != 9
  | _ => true

/-- On HDL-GLF64-S1 the RFB page reads zero and ignores writes (R2). -/
def absentPage (p : Page) : Bool := p == .rf 1 && !Config.variantS2

/-- A write to the page other than the mask cancels an armed `LOCK` key with BAD_KEY and is otherwise carried out
(R33). -/
def cancelKey (p : Page) (s : State) : State :=
  if spGet (fun _ => 0) s.lockKey (pageBase p) = 0 then s
  else recErr p errBadKey { s with lockKey := spPut (fun _ => 0) (pageBase p) 0 s.lockKey }

/-- A register write that reaches a page: admission (R23, R2), the stall of a page in reset (R41), the writes a
sleeping page ignores (R37), the `LOCK` key it cancels (R33; `LOCK` and `IRQ_STAT` do so in their own effects), and then its
effect. -/
def admitWrite (ini : Ini) (p : Page) (off : Nat) (v : Word) (fx : State → State) (s : State) : State :=
  if absentPage p then answer .ok s
  else if !pageAdmits ini p || !writeAdmitted ini p off then answer (.err .priv) s
  else if inReset s p && off != 0x024 then
    { s with resp := .stalled, stalled := s.stalled ++ [{ ini := ini, addr := pageBase p + off, val := some v }] }
  else
    let s1 := if off = 0x020 ∨ off = 0x014 then s else cancelKey p s
    if asleep s1 p && decide (0x40 ≤ off) then answer .ok (recErr p errAsleep s1)
    else
      match writeIgnored ini p off with
      | some c => answer .ok (recErr p c s1)
      | none => fx (answer .ok s1)

/-- A register read that reaches a page. -/
def admitRead (ini : Ini) (p : Page) (off : Nat) (fx : State → State) (s : State) : State :=
  if absentPage p then answer (.data 0) s
  else if !pageAdmits ini p then answer (.err .priv) s
  else if inReset s p then
    { s with resp := .stalled, stalled := s.stalled ++ [{ ini := ini, addr := pageBase p + off, val := none }] }
  else fx s

end Sys2Proof.Machine
end

