-- ==== Sys2Proof/Machine/Flags.lean ====
section
/-! DEFINITION. Interrupt lines, what the router delivers, and the header's computed flags (R29, R30, R44-R47). -/
namespace Sys2Proof.Machine

/-- A page line is asserted while (`IRQ_STAT` AND `IRQ_EN`) is not zero (R30); source 105 never on S1 (R24). -/
def pageLine (s : State) (p : Page) : Bool := (reg s p 0x014 &&& reg s p 0x010) != 0 && !absentPage p

/-- Whether the line of an interrupt source is asserted (R44): page lines, DMA channels (R563), EVQ streams (R581),
trigger units (R83), capture units that hold a stamp (DEDUCED, log 6), GPIO pins (R59), DET inputs (R251), software
interrupts (R45). -/
def srcLine (s : State) (n : Nat) : Bool :=
  match irqPage n with
  | some p => pageLine s p
  | none =>
    if 134 ≤ n ∧ n ≤ 149 then reg s .dma (0x118 + (n - 134) * 0x20) != 0
    else if 150 ≤ n ∧ n ≤ 157 then
      (regF s .evq (0x12C + (n - 150) * 0x40) 1 0 &&& regF s .evq (0x100 + (n - 150) * 0x40) 15 14) != 0
    else if 159 ≤ n ∧ n ≤ 174 then regB s .ttrig (0x114 + (n - 159) * 0x20) 0
    else if 175 ≤ n ∧ n ≤ 182 then !(spGet (fun _ => {}) s.cap (n - 175)).stamps.isEmpty
    else if 183 ≤ n ∧ n ≤ 198 then regB s .gpio 0x068 (n - 183)
    else if 199 ≤ n ∧ n ≤ 214 then !(spGet (fun _ => {}) s.detIn (n - 199)).fifo.isEmpty
    else if 248 ≤ n ∧ n ≤ 255 then s.swi.testBit (n - 248)
    else false

/-- A source is claimed (R47). -/
def claimed (s : State) (n : Nat) : Bool := spGet (fun _ => 0) s.claims n != 0

/-- A source is pending while its line is asserted and it is not claimed (R47). -/
def srcPending (s : State) (n : Nat) : Bool := srcLine s n && !claimed s n

/-- The `ROUTE` register of a source. -/
def routeOf (s : State) (n : Nat) : Word := reg s .irqr (0x100 + 4 * n)

/-- A source may be delivered to a target: pending, routed there, its priority above the threshold (R46, R47). -/
def deliverable (s : State) (t n : Nat) : Bool :=
  srcPending s n && bit (routeOf s n) t && decide (regF s .irqr (0x608 + 0x10 * t) 3 0 < fld (routeOf s n) 19 16)

/-- The best of the sources 0 to n - 1 for a target: highest priority, the lowest number winning ties (R47). -/
def bestBelow (s : State) (t : Nat) : Nat → Option Nat
  | 0 => none
  | n + 1 =>
    let b := bestBelow s t n
    if deliverable s t n then
      match b with
      | none => some n
      | some m => if fld (routeOf s m) 19 16 < fld (routeOf s n) 19 16 then some n else some m
    else b

/-- What a read of `CLAIM_t` would return (R47). -/
def bestSource (s : State) (t : Nat) : Option Nat := bestBelow s t 256

/-- A processor has an interrupt above its threshold (R549). -/
def anyInterrupt (s : State) (t : Nat) : Bool := (bestSource s t).isSome

/-- `PENDk` (R45). -/
def pendWord (s : State) (k : Nat) : Word :=
  word ((List.range 32).foldl (fun a i => if srcPending s (32 * k + i) then a + 2 ^ i else a) 0)

end Sys2Proof.Machine
end

