-- ==== Sys2Proof/Machine/TimeBase.lean ====
section
/-! DEFINITION. The time bases TB0-TB3 but for their steps, and the capture units (R69-R78, R81, R85). -/
namespace Sys2Proof.Machine

/-- The page of a time base. -/
abbrev tbPage (n : Fin 4) : Page := .tb n

/-- `TB_CTRL.FOLLOW` (R73). -/
def follow (s : State) (n : Fin 4) : Nat := regF s (.tb n) 0x040 6 4

/-- The nominal increment of 4 ns in units of 2^-32 ns (R70). -/
def incNominal : Nat := 4 * 2 ^ 32

/-- INC within 4 ns ± 500 ppm (R74). -/
def incInRange (i : Int) : Bool :=
  let d := (i - (incNominal : Int)) * 1000000
  decide (-(500 * (incNominal : Int)) ≤ d) && decide (d ≤ 500 * (incNominal : Int))

/-- The signed slew offset of a base in effect: none while it is stopped or no slew runs (R71, R76). -/
def slewNow (s : State) (n : Fin 4) : Int :=
  let b := tbOf s.tb n
  if enabled s (.tb n) && decide (0 < b.slewLeft) then b.slewOff else 0

/-- The effective increment of a base: its own, slew included, or that of the base it follows; a stopped base gives its followers
the INC it has configured, whatever it follows itself (R71, R73, R76). -/
def effInc (s : State) : Nat → Fin 4 → Nat
  | 0, n => (tbOf s.tb n).inc
  | k + 1, n =>
    let f := follow s n
    let m : Fin 4 := Fin.ofNat 4 (f - 1)
    if 1 ≤ f ∧ f ≤ 4 then (if enabled s (.tb m) then effInc s k m else (tbOf s.tb m).inc)
    else ((tbOf s.tb n).inc + slewNow s n : Int).toNat

/-- One cycle of a base: the fraction carries into nanoseconds, and these into seconds (R70). -/
def tbCycle (inc : Nat) (b : TimeBase) : TimeBase :=
  let f := b.frac + inc
  let ns := b.ns + f / 2 ^ 32
  { b with
    frac := f % 2 ^ 32
    ns := if 1000000000 ≤ ns then ns - 1000000000 else ns
    sec := if 1000000000 ≤ ns then (b.sec + 1) % 2 ^ 48 else b.sec
    slewLeft := b.slewLeft - 1 }

/-- One base at one cycle of the 250 MHz clock: a stopped base keeps its time and its slew (R71). -/
def tbTick (s : State) (n : Fin 4) : TimeBase :=
  if enabled s (.tb n) then tbCycle (effInc s 4 n) (tbOf s.tb n) else tbOf s.tb n

/-- One cycle of the time-base clock for all four bases. -/
def tbsTick (s : State) : TimeBases :=
  { t0 := tbTick s 0, t1 := tbTick s 1, t2 := tbTick s 2, t3 := tbTick s 3, cycles := s.tb.cycles + 1 }

/-- Replaces a time base. -/
def putTb (n : Fin 4) (b : TimeBase) (s : State) : State := { s with tb := setTb n b s.tb }

/-- `FAST_NS` (R72). -/
def fastNs (b : TimeBase) : Nat := (b.sec * 1000000000 + b.ns) % 2 ^ 32

/-- `TB_STAT` (R73). -/
def tbStat (s : State) (n : Fin 4) : Word :=
  let b := tbOf s.tb n
  word (b01 b.stepAvail + 2 * b01 b.stepped + 4 * b01 (decide (0 < b.slewLeft)) + 8 * b01 (follow s n != 0))

/-- The registers of a TB page whose reads are computed. -/
def tbView (s : State) (n : Fin 4) (off : Nat) : Option Word :=
  let b := tbOf s.tb n
  match off with
  | 0x044 => some (tbStat s n)
  | 0x054 => some (word (fastNs b))
  | 0x058 => some (word (actMsOf b))
  | 0x06C => some (word b.slewLeft)
  | _ => none

/-- A read of `NOW_NS` latches the seconds of the same cycle for that initiator (R78). -/
def nowNsRead (ini : Ini) (n : Fin 4) (s : State) : State :=
  let b := tbOf s.tb n
  answer (.data (word b.ns))
    (setRegI (.tb n) 0x050 ini.id (word (b.sec / 2 ^ 32 % 2 ^ 16)) (setRegI (.tb n) 0x04C ini.id (word (b.sec % 2 ^ 32)) s))

/-- Whether following `f` from page n closes a chain of followers or names the page itself (R74). -/
def followLoop (s : State) (n : Fin 4) : Nat → Nat → Bool
  | 0, _ => true
  | k + 1, f => if f = 0 then false else if f - 1 = n.val then true else followLoop s n k (follow s (Fin.ofNat 4 (f - 1)))

/-- A write of `TB_CTRL`: a reserved FOLLOW or one that closes a loop is refused with FOLLOW_LOOP (R73, R74). -/
def tbCtrlWrite (ini : Ini) (n : Fin 4) (v : Word) (s : State) : State :=
  let f := fld v 6 4
  if 4 < f || followLoop s n 5 f then recErr (.tb n) 0x103 s else plainWrite ini (.tb n) 0x040 v s

/-- A write of `INC_INT` or `SLEW_FRAC`: ignored with FOLLOW_RATE while the base follows (R74). -/
def tbRateWrite (ini : Ini) (n : Fin 4) (off : Nat) (v : Word) (s : State) : State :=
  if follow s n != 0 then recErr (.tb n) 0x104 s else plainWrite ini (.tb n) off v s

/-- A write of `INC_FRAC` commits both halves of INC, unless INC or INC plus the slew offset leaves its range
(R72, R74, R76). -/
def incCommit (ini : Ini) (n : Fin 4) (v : Word) (s : State) : State :=
  if follow s n != 0 then recErr (.tb n) 0x104 s
  else
    let inc := regF s (.tb n) 0x060 3 0 * 2 ^ 32 + v.toNat
    let b := tbOf s.tb n
    let off : Int := if 0 < b.slewLeft then b.slewOff else 0
    if incInRange (Int.ofNat inc) && incInRange (Int.ofNat inc + off) then
      putTb n { b with inc := inc } (plainWrite ini (.tb n) 0x064 v s)
    else recErr (.tb n) 0x101 s

/-- A write of `SLEW_CYCLES`: not zero starts or restarts a slew with `SLEW_FRAC`, zero ends one (R76). -/
def slewWrite (n : Fin 4) (v : Word) (s : State) : State :=
  let b := tbOf s.tb n
  if follow s n != 0 then recErr (.tb n) 0x104 s
  else if v = 0 then putTb n { b with slewLeft := 0 } s
  else
    let off := signed 32 (regN s (.tb n) 0x068)
    if incInRange (Int.ofNat b.inc + off) then putTb n { b with slewOff := off, slewLeft := v.toNat } s
    else recErr (.tb n) 0x101 s

/-- A write of `STEP_ARM`, by an initiator that its map line admits: the key permits one more step, any other value records
BAD_KEY (R75). -/
def stepArmWrite (n : Fin 4) (v : Word) (s : State) : State :=
  if v = 0x53544550 then putTb n { tbOf s.tb n with stepAvail := true } s else recErr (.tb n) errBadKey s

/-- `INC_COMMIT`. -/
def execIncCommit (ini : Ini) (n : Fin 4) (v : Word) (s : State) : Out :=
  doneTb s (admitWrite ini (.tb n) 0x064 v (incCommit ini n v) s)

/-- `SLEW_START`: a write of `SLEW_CYCLES` that is not zero. -/
def execSlewStart (ini : Ini) (n : Fin 4) (v : Word) (s : State) : Out :=
  doneTb s (admitWrite ini (.tb n) 0x06C v (slewWrite n v) s)

/-- `SLEW_END`: a write of 0 to `SLEW_CYCLES`. -/
def execSlewEnd (ini : Ini) (n : Fin 4) (s : State) : Out :=
  doneTb s (admitWrite ini (.tb n) 0x06C 0 (slewWrite n 0) s)

/-- `SLEW_EXPIRE`: the cycles of a slew have run out, and the increment returns to INC (R76); on a stopped base they do not run
(R71). -/
def execSlewExpire (n : Fin 4) (s : State) : Out :=
  doneTb s (if enabled s (.tb n) then putTb n { tbOf s.tb n with slewLeft := 0 } s else s)

/-- `STEP_ARM`. -/
def execStepArm (ini : Ini) (n : Fin 4) (v : Word) (s : State) : Out :=
  doneTb s (admitWrite ini (.tb n) 0x080 v (stepArmWrite n v) s)

/-- `NOW_NS_READ`. -/
def execNowNsRead (ini : Ini) (n : Fin 4) (s : State) : Out :=
  done s (admitRead ini (.tb n) 0x048 (nowNsRead ini n) s)

/-! ### Trigger units as others read them -/

/-- A trigger unit. -/
def trgOf (s : State) (u : Nat) : TrgUnit := spGet (fun _ => {}) s.trg u

/-- Sets a trigger unit. -/
def putTrg (u : Nat) (t : TrgUnit) (s : State) : State := { s with trg := spPut (fun _ => {}) u t s.trg }

/-- `TARGET` of a unit (R82). -/
def trgTarget (s : State) (u : Nat) : Nat := regF s .ttrig (0x100 + 0x20 * u) 15 8

/-- `EN` of a unit (R82). -/
def trgEn (s : State) (u : Nat) : Bool := regB s .ttrig (0x100 + 0x20 * u) 0

/-- The time base a unit compares against (R82). -/
def trgTb (s : State) (u : Nat) : TimeBase := tbOf s.tb (Fin.ofNat 4 (regF s .ttrig (0x100 + 0x20 * u) 5 4))

/-- Instant k of a unit in ns: the first instant plus k periods, exactly (R83).  A `TRG_NS_u` of 10^9 or more, to which R81 sets
no limit, adds to the seconds (DESIGN CHOICE, log 123). -/
def trgInstant (s : State) (u k : Nat) : Nat :=
  regN s .ttrig (0x104 + 0x20 * u) * 1000000000 + regN s .ttrig (0x108 + 0x20 * u) + k * regN s .ttrig (0x10C + 0x20 * u)

/-- The unit has an instant left: a one-shot has one (R81). -/
def trgHas (s : State) (u : Nat) : Bool := (trgOf s u).next == 0 || reg s .ttrig (0x10C + 0x20 * u) != 0

/-- A base's time as the units compare it: seconds [31:0] and nanoseconds (R83). -/
def trgTime (b : TimeBase) : Nat := b.sec % 2 ^ 32 * 1000000000 + b.ns

/-! ### Capture units -/

/-- A capture unit. -/
def capOf (s : State) (c : Nat) : CapUnit := spGet (fun _ => {}) s.cap c

/-- Sets a capture unit. -/
def putCap (c : Nat) (u : CapUnit) (s : State) : State := { s with cap := spPut (fun _ => {}) c u s.cap }

/-- The unit stamps this edge of this source: EN, the source and the edge selection of `CAP_CTRL_c` (R85). -/
def capSelects (s : State) (c src : Nat) (rising : Bool) : Bool :=
  let k := reg s .ttrig (0x400 + c * 0x20)
  bit k 0 && fld k 13 8 == src && bit k (if rising then 4 else 5)

/-- One unit at an edge: it stamps the time of its base, or drops a fifth edge and counts OVR (R85). -/
def capEdgeUnit (src : Nat) (rising : Bool) (c : Nat) (s : State) : State :=
  if capSelects s c src rising then
    let b := tbOf s.tb (Fin.ofNat 4 (regF s .ttrig (0x400 + c * 0x20) 3 2))
    let u := capOf s c
    if u.stamps.length < 4 then putCap c { u with stamps := u.stamps ++ [(b.sec, b.ns)] } s
    else bumpRegF .ttrig (0x410 + c * 0x20) 15 8 s
  else s

/-- An edge at a capture source; a TTRIG page whose EN is 0 takes no stamps (R71). -/
def captureEdge (src : Nat) (rising : Bool) (s : State) : State :=
  if enabled s .ttrig && !inReset s .ttrig then forEach (capEdgeUnit src rising) (List.range 8) s else s

/-- `CAPTURE_EDGE`: a selected edge on a source is stamped, or dropped (R85). -/
def execCaptureEdge (src : Fin 35) (rising : Bool) (s : State) : Out := done s (captureEdge src.val rising s)

/-- A read of `CAP_NS_c` pops the oldest stamp and latches its seconds (R81); with no stamp the read returns 0 and
latches nothing (DESIGN CHOICE, log 7). -/
def capPop (c : Nat) (s : State) : State :=
  match (capOf s c).stamps with
  | [] => answer (.data 0) s
  | (sec, ns) :: r =>
    answer (.data (word ns)) (setReg .ttrig (0x40C + c * 0x20) (word (sec / 2 ^ 32 % 2 ^ 16))
      (setReg .ttrig (0x408 + c * 0x20) (word (sec % 2 ^ 32)) (putCap c { stamps := r } s)))

/-- `CAP_POP`. -/
def execCapPop (ini : Ini) (c : Fin 8) (s : State) : Out :=
  done s (admitRead ini .ttrig (0x404 + c.val * 0x20) (capPop c.val) s)

/-- A write of `CAP_CTRL_c` clears OVR; a unit whose source is reserved does not enable (R81, R85). -/
def capCtrlWrite (ini : Ini) (c : Nat) (v : Word) (s : State) : State :=
  let v1 := if 34 < fld v 13 8 then setBit v 0 false else v
  setRegF .ttrig (0x410 + c * 0x20) 15 8 0 (plainWrite ini .ttrig (0x400 + c * 0x20) v1 s)

/-- `CAP_STAT_c`: OVR and the stamps held (R81). -/
def capStat (s : State) (c : Nat) : Word :=
  setFld (reg s .ttrig (0x410 + c * 0x20)) 2 0 (capOf s c).stamps.length

/-- The registers of TTRIG whose reads are computed. -/
def ttrigView (s : State) (off : Nat) : Option Word :=
  if 0x410 ≤ off ∧ off < 0x500 ∧ off % 0x20 = 0x10 then some (capStat s ((off - 0x410) / 0x20)) else none

/-- TTRIG's units run: enabled, not in reset, its clock locked; sleep gates only the register interface (R71, R633). -/
def trgRuns (s : State) : Bool := enabled s .ttrig && !inReset s .ttrig && !pllStalls s .ttrig

end Sys2Proof.Machine
end

