-- ==== Sys2Proof/Machine/SmallPages.lean ====
section
/-! DEFINITION. IRQR, SYS, MEMC's NAND port, CONT and GPIO (R44-R60). -/
namespace Sys2Proof.Machine

/-! ### IRQR and SYS -/

/-- `SWI_SET` asserts software interrupt sources (R45). -/
def swiSet (v : Word) (s : State) : State := { s with swi := s.swi ||| fld v 7 0 }

/-- `SWI_CLR` deasserts them (R45). -/
def swiClr (v : Word) (s : State) : State := { s with swi := s.swi &&& (255 - fld v 7 0) }

/-- A read of `CLAIM_t` returns the best pending source and marks it claimed, or returns 0x1FF (R47). -/
def irqClaim (t : Nat) (s : State) : State :=
  match bestSource s t with
  | none => answer (.data 0x1FF) s
  | some n => answer (.data (word n)) { s with claims := spPut (fun _ => 0) n (t + 1) s.claims }

/-- A write of `DONE_t` completes a source that the target claimed; any other is ignored (R47). -/
def irqDone (t : Nat) (v : Word) (s : State) : State :=
  if v.toNat < 256 ∧ spGet (fun _ => 0) s.claims v.toNat = t + 1 then
    { s with claims := spPut (fun _ => 0) v.toNat 0 s.claims }
  else s

/-- `SWI_SET`. -/
def execSwiSet (ini : Ini) (v : Word) (s : State) : Out := done s (admitWrite ini .irqr 0x040 v (swiSet v) s)

/-- `SWI_CLR`. -/
def execSwiClr (ini : Ini) (v : Word) (s : State) : Out := done s (admitWrite ini .irqr 0x044 v (swiClr v) s)

/-- `IRQ_CLAIM`. -/
def execIrqClaim (ini : Ini) (t : Fin 9) (s : State) : Out :=
  done s (admitRead ini .irqr (0x600 + 0x10 * t.val) (irqClaim t.val) s)

/-- `IRQ_DONE`. -/
def execIrqDone (ini : Ini) (t : Fin 9) (v : Word) (s : State) : Out :=
  done s (admitWrite ini .irqr (0x604 + 0x10 * t.val) v (irqDone t.val v) s)

/-- `CORE_REL`: a bit can only be set; it releases the processor at its `BOOT_VEC_t` (R49). -/
def coreRel (v : Word) (s : State) : State :=
  let r := reg s .sys 0x040 ||| (v &&& 0x1FF)
  setReg .sys 0x044 (reg s .sys 0x044 ||| (v &&& 0x1FF)) (setReg .sys 0x040 r s)

/-- `CORE_REL`. -/
def execCoreRel (ini : Ini) (v : Word) (s : State) : Out := done s (admitWrite ini .sys 0x040 v (coreRel v) s)

/-- `CORE_STAT` (R48).  Which released processors wait in WFI is a fact of the programs they run: open, but for the reader, which
does not, and for the application cores in IDLE, which do (R549). -/
def coreStat (s : State) (ini : Ini) : Word :=
  let runs := fld (reg s .sys 0x044) 8 0
  let waits := fun t => runs.testBit t && t != ini.id.val
    && (if regF s .pwr 0x044 25 24 = 1 ∧ t < 4 then true else (freeN s).testBit t)
  word (runs + (List.range 9).foldl (fun a t => a + b01 (waits t) * 2 ^ (16 + t)) 0)

/-- `BOOT_VEC_t` after processor t has been released is ignored with LOCKED_WRITE (R49). -/
def bootVecWrite (ini : Ini) (t : Nat) (v : Word) (s : State) : State :=
  if regB s .sys 0x040 t then recErr .sys errLockedWrite s else plainWrite ini .sys (0x080 + 4 * t) v s

/-! ### The NAND behind MEMC -/

/-- The initiators that may program and erase a NAND page (R52). -/
def nandWriters (page : Nat) : List Nat :=
  if page < 131072 then [0, 1, 2, 3, 7, 8] else if page < 393216 then [8] else [0, 1, 2, 3, 4, 5, 6, 7, 8]

/-- A NAND byte; erased cells read 0xFF (PRESUMED, log 8). -/
def nandByte (n : Nand) (a : Nat) : Byte := spGet (fun _ => 0xFF#8) n.cells a

/-- The bytes of a NAND page. -/
def nandPage (n : Nand) (page : Nat) : List Byte := (List.range 4096).map fun i => nandByte n (4096 * page + i)

/-- Writes bytes into NAND cells. -/
def nandPut (a : Nat) : List Byte → Sparse Byte → Sparse Byte
  | [], c => c
  | b :: bs, c => nandPut (a + 1) bs (spPut (fun _ => 0xFF#8) a b c)

/-- An ECC event (R53): counts it, latches its location code, raises ECC_CORR or ECC_UNCORR. -/
def eccEvent (uncorr : Bool) (site off cell : Nat) (s : State) : State :=
  let loc := locOfMem (serial16 s) site off cell
  raiseIrq .memc (if uncorr then 2 else 1) (setReg .memc 0x04C (word (loc / 2 ^ 32)) (setReg .memc 0x048 (word (loc % 2 ^ 32))
    (if uncorr then bumpRegF .memc 0x044 31 16 s else bumpRegF .memc 0x044 15 0 s)))

/-- Records an ECC event; an uncorrectable one is an error of MEMC too (R53, R54). -/
def eccRecord (uncorr : Bool) (site off cell : Nat) (s : State) : State :=
  let s1 := eccEvent uncorr site off cell s
  if uncorr then recErrAt .memc 0x101 (locOfMem (serial16 s) site off cell % 2 ^ 32) s1 else s1

/-- The place of a codeword of a NAND page: which of its eight an event concerns is open (R53, R597). -/
def codeword (s : State) (page : Nat) : Nat := 4096 * page + 512 * (freeN s % 8)

/-- What a page holds is not given: the boot ROM has copied into its area, and it has been neither erased nor programmed
since. -/
def nandOpen (n : Nand) (page : Nat) : Bool := n.areas.contains (page / 131072) && !spGet (fun _ => false) n.known page

/-- The boot ROM copies components into an area (R535): where it lays them is not given. -/
def nandCopied (area : Nat) (n : Nand) : Nand :=
  { n with areas := area :: n.areas.erase area, known := n.known.filter fun k => k.1 / 131072 != area }

/-- `NAND_STAT` of an initiator is BUSY (R51). -/
def nandBusy (s : State) (i : Fin 10) : Bool := bit (regI s .memc 0x08C i) 0

/-- A keyed `NAND_CMD`: 1 READ, 2 PROGRAM, 3 ERASE.  The operation joins those that run one at a time (R52).  Operation 0, of
which R51 says nothing, does nothing and records nothing (DESIGN CHOICE, log 119). -/
def nandCmd (ini : Ini) (kind : Nat) (s : State) : State :=
  let page := (regI s .memc 0x080 ini.id).toNat
  let buf := (regI s .memc 0x084 ini.id).toNat
  if nandBusy s ini.id then recErr .memc 0x105 s
  else if kind = 0 then s
  else if 1048576 ≤ page || (kind != 3 && (buf % 64 != 0 || !inRam buf 4096)) then recErr .memc 0x103 s
  else if kind != 1 && !(nandWriters page).contains ini.id.val then recErr .memc 0x104 s
  else setRegI .memc 0x08C ini.id 1
    { s with nand := { s.nand with ops := s.nand.ops ++ [{ ini := ini.id.val, kind := kind, page := page, buf := buf }] } }

/-- A write of `NAND_CMD` (R51, R54).  The key is looked at before the port's BUSY: without it BAD_KEY is recorded, and not
PORT_BUSY (DESIGN CHOICE, log 119). -/
def nandCmdWrite (ini : Ini) (v : Word) (s : State) : State :=
  keyed .memc 0x4D v (workRequest .memc (nandCmd ini (fld v 1 0))) s

/-- A write of another NAND port register while BUSY is ignored with PORT_BUSY (R52). -/
def nandPortWrite (ini : Ini) (off : Nat) (v : Word) (s : State) : State :=
  if nandBusy s ini.id then recErr .memc 0x105 s else plainWrite ini .memc off v s

/-- `NAND_READ`. -/
def execNandRead (ini : Ini) (s : State) : Out := done s (admitWrite ini .memc 0x088 0x4D000001 (nandCmdWrite ini 0x4D000001) s)

/-- `NAND_PROGRAM`. -/
def execNandProgram (ini : Ini) (s : State) : Out := done s (admitWrite ini .memc 0x088 0x4D000002 (nandCmdWrite ini 0x4D000002) s)

/-- `NAND_ERASE`. -/
def execNandErase (ini : Ini) (s : State) : Out := done s (admitWrite ini .memc 0x088 0x4D000003 (nandCmdWrite ini 0x4D000003) s)

/-- The end of an operation: `NAND_STAT` [31:24] bits, RETRIED, UNCORR, FAIL, DONE; NAND_DONE rises (R51, R54). -/
def nandEnd (i : Fin 10) (bits : Nat) (retried uncorr fail : Bool) (s : State) : State :=
  raiseIrq .memc 3 (setRegI .memc 0x08C i
    (word (bits * 2 ^ 24 + 16 * b01 retried + 8 * b01 uncorr + 4 * b01 fail + 2)) s)

/-- A lasting failure: NAND_FAIL with the block's location code (R52). -/
def nandFail (i : Fin 10) (page : Nat) (retried : Bool) (s : State) : State :=
  let loc := locOfMem (serial16 s) 5 (page / 64 * 64 * 4096) 0x7F
  nandEnd i 0 retried false true (recErrAt .memc 0x102 (loc % 2 ^ 32) s)

/-- A READ that delivered its page: the corrected bits are an ECC event, and so is the uncorrectable codeword of a first try
(R52, R53; DEDUCED, log 118).  One READ counts one ECC_CORR however many of its codewords were corrected (DESIGN CHOICE, log 152).
Where the boot ROM lays the components it copies is not given: such a page reads as free bytes until it is erased. -/
def nandReadOk (i : Fin 10) (o : NandOp) (bits : Nat) (retried : Bool) (s : State) : State :=
  let s1 := if nandOpen s.nand o.page then used (memWrite o.buf (freeB s 4096) s)
    else memWrite o.buf (nandPage s.nand o.page) s
  let s2 := if retried then used (eccEvent true 5 (codeword s1 o.page) 0x7F s1) else s1
  let s3 := if 0 < bits then used (eccRecord false 5 (codeword s2 o.page) 0x7F s2) else s2
  nandEnd i bits retried false false s3

/-- A READ whose codeword stayed uncorrectable at the reread: the data is delivered as read; both tries are events (R52,
R53). -/
def nandReadBad (i : Fin 10) (o : NandOp) (s : State) : State :=
  let s1 := used (memWrite o.buf (freeB s 4096) s)
  let a := codeword s1 o.page
  nandEnd i 0 false true false (used (eccRecord true 5 a 0x7F (eccEvent true 5 a 0x7F s1)))

/-- A PROGRAM that took (R52): a page programmed before its erase will read back with uncorrectable errors.  Whether the boot ROM's
copy had programmed the page is open where its layout matters. -/
def nandProgramOk (i : Fin 10) (o : NandOp) (retried : Bool) (s0 : State) : State :=
  let s := if nandOpen s0.nand o.page then used s0 else s0
  let n := s.nand
  let was := if nandOpen s0.nand o.page then freeN s0 % 2 == 1 else spGet (fun _ => false) n.programmed o.page
  nandEnd i 0 retried false false { s with nand := { n with
    cells := nandPut (4096 * o.page) (memRead s o.buf 4096) n.cells
    known := if n.areas.contains (o.page / 131072) then spPut (fun _ => false) o.page true n.known else n.known
    programmed := spPut (fun _ => false) o.page true n.programmed
    twice := if was then spPut (fun _ => false) o.page true n.twice else n.twice } }

/-- An ERASE that took: the block's 64 pages are erased (R52). -/
def nandEraseOk (i : Fin 10) (o : NandOp) (retried : Bool) (s : State) : State :=
  let n := s.nand
  let b := o.page / 64
  nandEnd i 0 retried false false { s with nand := { n with
    known := if n.areas.contains (o.page / 131072) then (List.range 64).foldl (fun k j => spPut (fun _ => false) (b * 64 + j) true k) n.known else n.known
    cells := n.cells.filter fun c => c.1 / 262144 != b
    programmed := n.programmed.filter fun c => c.1 / 64 != b
    twice := n.twice.filter fun c => c.1 / 64 != b } }

/-- What a PROGRAM or an ERASE that failed leaves is not given: free bytes in the one page that was named, and the rest of an
ERASE's block as it was (DESIGN CHOICE, log 119). -/
def nandSpoil (o : NandOp) (s : State) : State :=
  used { s with nand := { s.nand with cells := nandPut (4096 * o.page) (freeB s 4096) s.nand.cells } }

/-- The operation at the head ends as the NAND reports (R52): one retry of a failed PROGRAM or ERASE, one reread of an
uncorrectable READ (R16); a block marked bad fails at once. -/
def nandFinish (i : Fin 10) (o : NandOp) (r : NandResult) (s : State) : State :=
  let twice := spGet (fun _ => false) s.nand.twice o.page
  match o.kind, r with
  | _, .badBlock => nandFail i o.page false s
  | 1, .ok b => if twice then nandReadBad i o s else nandReadOk i o b.val false s
  | 1, .okOnRetry b => if twice then nandReadBad i o s else nandReadOk i o b.val true s
  | 1, .failed => nandReadBad i o s
  | 2, .ok _ => nandProgramOk i o false s
  | 2, .okOnRetry _ => nandProgramOk i o true s
  | 2, .failed => nandFail i o.page false (nandSpoil o s)
  | _, .ok _ => nandEraseOk i o false s
  | _, .okOnRetry _ => nandEraseOk i o true s
  | _, .failed => nandFail i o.page false (nandSpoil o s)

/-- `NAND_DONE`: the operation at the head, if it is this initiator's, ends (R52). -/
def nandDone (i : Fin 10) (r : NandResult) (s : State) : State :=
  match s.nand.ops with
  | [] => s
  | o :: rest => if o.ini = i.val then nandFinish i o r { s with nand := { s.nand with ops := rest } } else s

/-- `NAND_DONE`. -/
def execNandDone (i : Fin 10) (r : NandResult) (s : State) : Out := done s (nandDone i r s)

/-- `MEM_STAT` (R51): ZEROING while a core reset's episode is open, whose release carries the bring-up to its end (DESIGN
CHOICE, log 120); NOR_BUSY while the security core rewrites a slot's copies, by COMMIT or ERASE (R505, R513). -/
def memcView (s : State) (off : Nat) : Option Word :=
  if off = 0x040 then some (setBit (setBit (reg s .memc 0x040) 4 s.rst.active) 1 (s.sec.run.any fun x => x.err == 0 && (x.req.op == 4 || x.req.op == 5))) else none

/-! ### CONT -/

/-- The pulse in progress on a contactor (R56). -/
def contPulse (s : State) (c : Nat) : Option (Bool × Nat) := spGet (fun _ => none) s.cont.pulse c

/-- A contactor is in duty hold-off (R56). -/
def contHold (s : State) (c : Nat) : Bool := spGet (fun _ => false) s.cont.hold c

/-- `CONT_STAT` (R55). -/
def contStat (s : State) : Word :=
  let a := match s.cont.armed with
    | none => 0
    | some (coil, c) => 2 ^ 31 + b01 coil * 2 ^ 20 + c * 2 ^ 16
  let puls := (List.range 8).foldl (fun x c => x + b01 (contPulse s c).isSome * 2 ^ c) 0
  let last := (List.range 8).foldl (fun x c => x + b01 (spGet (fun _ => false) s.cont.lastSet c) * 2 ^ c) 0
  word (a + puls * 256 + last)

/-- The registers of CONT whose reads are computed. -/
def contView (s : State) (off : Nat) : Option Word :=
  match off with
  | 0x04C => some (contStat s)
  | 0x050 => some (word ((List.range 8).foldl (fun x c => x + b01 (contHold s c) * 2 ^ c) 0))
  | _ => none

/-- The conditions under which ARM is accepted (R56): enabled, configured, nothing frozen, not pulsing, not in
hold-off. -/
def contReady (s : State) (c : Nat) : Bool :=
  enabled s .cont && regB s .cont 0x040 c && reg s .cont 0x020 == 0 && (contPulse s c).isNone && !contHold s c

/-- A write of `ARM` (R56): the key 0x41, then BUSY_QUIESCED, then NOT_READY, else it replaces any earlier arm. -/
def contArm (v : Word) (s : State) : State :=
  keyed .cont 0x41 v (fun s =>
    if quiescing s .cont then answer (.err .busyQuiesced) (recErr .cont errBusyQuiesced s)
    else if contReady s (fld v 2 0) then { s with cont := { s.cont with armed := some (bit v 4, fld v 2 0) } }
    else recErr .cont 0x101 s) s

/-- Starts the pulse of a driver: `PCNT_n` counts it and the coil last pulsed is remembered (R55, R56). -/
def contStart (coil : Bool) (c : Nat) (s : State) : State :=
  let u := regF s .cont 0x040 15 8
  let s1 := { s with cont := { s.cont with
    armed := none
    pulse := spPut (fun _ => none) c (some (coil, u)) s.cont.pulse
    lastSet := spPut (fun _ => false) c (!coil) s.cont.lastSet } }
  send (.coil c coil u) (if coil then bumpRegF .cont (0x080 + 4 * c) 15 0 s1 else bumpRegF .cont (0x080 + 4 * c) 31 16 s1)

/-- A write of `FIRE` (R56, R546): naming the armed driver it starts the pulse; else NOT_ARMED, and any arm is
cleared.  A FIRE refused with BUSY_QUIESCED leaves an earlier arm as it is, whatever it names: R56 says what clears an arm only of
NOT_ARMED (DESIGN CHOICE, log 153). -/
def contFire (v : Word) (s : State) : State :=
  keyed .cont 0x46 v (fun s =>
    if quiescing s .cont then answer (.err .busyQuiesced) (recErr .cont errBusyQuiesced s)
    else if s.cont.armed = some (bit v 4, fld v 2 0) then
      if contReady s (fld v 2 0) then contStart (bit v 4) (fld v 2 0) s
      else recErr .cont 0x101 { s with cont := { s.cont with armed := none } }
    else recErr .cont 0x100 { s with cont := { s.cont with armed := none } }) s

/-- `ARM`. -/
def execArm (ini : Ini) (v : Word) (s : State) : Out := done s (admitWrite ini .cont 0x044 v (contArm v) s)

/-- `FIRE`. -/
def execFire (ini : Ini) (v : Word) (s : State) : Out := done s (admitWrite ini .cont 0x048 v (contFire v) s)

/-- `ARM_LAPSED`: the window ends without FIRE (R56). -/
def execArmLapsed (s : State) : Out :=
  done s (if s.cont.armed.isSome then raiseIrq .cont 0 { s with cont := { s.cont with armed := none } } else s)

/-- `PULSE_DONE`: the driver turns off after PULSE × 10 ms, and the contactor's hold-off starts (R56). -/
def execPulseDone (c : Fin 8) (s : State) : Out :=
  done s (if (contPulse s c.val).isSome then raiseIrq .cont 1 { s with cont := { s.cont with
      pulse := spPut (fun _ => none) c.val none s.cont.pulse
      hold := spPut (fun _ => false) c.val true s.cont.hold } }
    else s)

/-- `HOLD_OFF_END`: the hold-off of 9 × t ends (R56). -/
def execHoldOffEnd (c : Fin 8) (s : State) : Out :=
  done s { s with cont := { s.cont with hold := spPut (fun _ => false) c.val false s.cont.hold } }

/-- A reset that turns the drivers off at once, ends pulses and clears ARMED (R57); `CONT_STAT` returns to 0 (R55), and the
duty hold-off, which is the driver's, runs on (DEDUCED, log 9). -/
def contOff (s : State) : State := { s with cont := { s.cont with
  armed := none
  pulse := []
  lastSet := []
  hold := (s.cont.pulse.filter fun x => x.2.isSome).foldl (fun h x => spPut (fun _ => false) x.1 true h) s.cont.hold } }

/-- CONT is asked to quiesce, or released (R472). -/
def contQuiesce (b : Bool) (s : State) : State :=
  let s1 := setRegB .cont 0x004 2 b s
  if b || regB s .cont 0x004 1 then s1 else setRegB .cont 0x008 1 false s1

/-- The twin link controller keeps CONT quiesced while its unit is not in control, whatever released it (R57). -/
def contKeep (s : State) : State := if inControl s then s else contQuiesce true s

/-! ### GPIO -/

/-- The pin is held as an input while its unit is not in control (R59). -/
def gpioGated (s : State) (n : Nat) : Bool := regB s .twin 0x058 n && !inControl s

/-- `GP_FUNC` of a pin: 0 SOFTWARE, 1 TRIGGER, 2 TEST_OUT (R58). -/
def gpFunc (s : State) (n : Nat) : Nat := regF s .gpio 0x060 (2 * n + 1) (2 * n)

/-- The pin is handed to the metrology test output (R59, R333). -/
def testPin (s : State) (n : Nat) : Bool :=
  gpFunc s n == 2 && regB s .met 0x068 31 && regF s .met 0x068 19 16 == n

/-- The pin drives its `GP_OUT` bit (R59). -/
def pinDrives (s : State) (n : Nat) : Bool := regB s .gpio 0x040 n && !gpioGated s n

/-- What the module drives on a pin's land: its `GP_OUT` bit; with `GP_OD` at 1 it drives low for 0 and releases the land for 1
(R59). -/
def gpDrive (s : State) (n : Nat) : Option Bool :=
  let b := regB s .gpio 0x044 n
  if !pinDrives s n || (regB s .gpio 0x05C n && b) then none else some b

/-- The level at a land: the one the module drives there, else the last filtered level of what is outside (R58; DEDUCED,
log 117). -/
def gpLevel (s : State) (n : Nat) : Bool := (gpDrive s n).getD (regB s .gpio 0x054 n)

/-- `GP_IN`. -/
def gpioView (s : State) (off : Nat) : Option Word :=
  if off = 0x054 then some (word ((List.range 16).foldl (fun a n => a + b01 (gpLevel s n) * 2 ^ n) 0)) else none

/-- The `GP_OUT` bits that writes may change: not those handed to the test output (R59). -/
def gpWritable (s : State) : Word :=
  word ((List.range 16).foldl (fun a n => if testPin s n then a else a + 2 ^ n) 0)

/-- Changes `GP_OUT` where writes may change it. -/
def gpOutWrite (f : Word → Word) (s : State) : State :=
  let old := reg s .gpio 0x044
  setReg .gpio 0x044 ((old &&& ~~~(gpWritable s)) ||| (f old &&& gpWritable s &&& 0xFFFF)) s

/-- `GP_SET` (R58). -/
def gpSet (v : Word) : State → State := gpOutWrite fun o => o ||| v
/-- `GP_CLR` (R58). -/
def gpClr (v : Word) : State → State := gpOutWrite fun o => o &&& ~~~v
/-- `GP_TGL` (R58). -/
def gpTgl (v : Word) : State → State := gpOutWrite fun o => o ^^^ v

/-- `GP_SET`. -/
def execGpSet (ini : Ini) (v : Word) (s : State) : Out := done s (admitWrite ini .gpio 0x048 v (gpSet v) s)
/-- `GP_CLR`. -/
def execGpClr (ini : Ini) (v : Word) (s : State) : Out := done s (admitWrite ini .gpio 0x04C v (gpClr v) s)
/-- `GP_TGL`. -/
def execGpTgl (ini : Ini) (v : Word) (s : State) : Out := done s (admitWrite ini .gpio 0x050 v (gpTgl v) s)

/-- A `GP_FUNC` write with the reserved value 3 in any field is refused with FUNC_INVALID (R60). -/
def gpFuncWrite (ini : Ini) (v : Word) (s : State) : State :=
  if (List.range 16).any fun n => fld v (2 * n + 1) (2 * n) == 3 then recErr .gpio 0x100 s
  else plainWrite ini .gpio 0x060 v s

/-- A trigger unit toggles a pin that is in TRIGGER (R59). -/
def gpTrigger (n : Nat) (s : State) : State :=
  if gpFunc s n = 1 ∧ working s .gpio then setRegB .gpio 0x044 n (!regB s .gpio 0x044 n) s else s

/-- The page's registers follow the lands: it is not asleep and not in reset (R37, R41). -/
def sees (s : State) (p : Page) : Bool := !asleep s p && !inReset s p

/-- GPIO sees the levels at its lands: a page that wakes takes them as they are (R37; DEDUCED, log 156). -/
def gpioSee (s : State) : State := setReg .gpio 0x054 (word s.lands) s

/-- A filtered edge at a pin: the level is seen, `GP_EVT` sets under `GP_EDGE`, capture units may stamp it (R59,
R85).  A page that is asleep or in reset filters nothing, and takes the level up when it goes on (R37, R41). -/
def gpioEdge (n : Nat) (rising : Bool) (s : State) : State :=
  let s0 := { s with lands := s.lands / 2 ^ (n + 1) * 2 ^ (n + 1) + b01 rising * 2 ^ n + s.lands % 2 ^ n }
  if !sees s .gpio then s0
  else
    let s1 := setRegB .gpio 0x054 n rising s0
    let sel := regF s .gpio 0x064 (2 * n + 1) (2 * n)
    let s2 := if working s .gpio && sel.testBit (if rising then 0 else 1) then setRegB .gpio 0x068 n true s1 else s1
    captureEdge (19 + n) rising s2

/-- `GPIO_EDGE`. -/
def execGpioEdge (n : Fin 16) (rising : Bool) (s : State) : Out := done s (gpioEdge n.val rising s)

end Sys2Proof.Machine
end

