-- ==== Sys2Proof/Machine/Serial.lean ====
section
/-! DEFINITION. The serial ports SER485 and the service port USBD (R61-R68). -/
namespace Sys2Proof.Machine

/-! ### SER485 -/

/-- A port. -/
def serPort (s : State) (q : Nat) : SerPort := spGet (fun _ => {}) s.ser q

/-- Sets a port. -/
def putSer (q : Nat) (p : SerPort) (s : State) : State := { s with ser := spPut (fun _ => {}) q p s.ser }

/-- `SP_CFG_p.EN` (R62). -/
def spEn (s : State) (q : Nat) : Bool := regB s .ser485 (0x100 + 0x200 * q) 31

/-- `SP_CFG_p.MODE`: true for MODBUS (R62). -/
def spModbus (s : State) (q : Nat) : Bool := regB s .ser485 (0x100 + 0x200 * q) 30

/-- Register k of a transaction in `MB_DATA_p` (R63). -/
def mbReg (s : State) (q k : Nat) : Nat :=
  let w := reg s .ser485 (0x200 + 0x200 * q + 4 * (k / 2))
  if k % 2 = 0 then fld w 15 0 else fld w 31 16

/-- Sets register k of `MB_DATA_p`. -/
def mbPut (q k v : Nat) (s : State) : State :=
  if k % 2 = 0 then setRegF .ser485 (0x200 + 0x200 * q + 4 * (k / 2)) 15 0 v s
  else setRegF .ser485 (0x200 + 0x200 * q + 4 * (k / 2)) 31 16 v s

/-- A frame with its RTU CRC-16, low byte first (R61). -/
def rtuFrame (body : List Byte) : List Byte := body ++ leBytes 2 (crc16 body)

/-- The request frame of a transaction (R61, R63). -/
def mbRequest (s : State) (q fc slave addr qty : Nat) : List Byte :=
  let head := leBytes 1 slave ++ leBytes 1 fc ++ beBytes 2 addr ++ beBytes 2 qty
  rtuFrame (if fc = 16 then head ++ leBytes 1 (2 * qty) ++ (List.range qty).flatMap (fun k => beBytes 2 (mbReg s q k)) else head)

/-- Function code, quantity and address are among those supported (R61, R63). -/
def mbValid (fc slave qty : Nat) : Bool :=
  decide (slave ≤ 247) &&
  ((decide (fc = 3 ∨ fc = 4) && decide (1 ≤ qty) && decide (qty ≤ 125) && decide (slave ≠ 0))
    || decide (fc = 6)
    || (decide (fc = 16) && decide (1 ≤ qty) && decide (qty ≤ 123)))

/-- The end of a transaction: RESULT, EXC_CODE, RETRIED, DONE; the DONE interrupt rises, and FAIL as well when RESULT
is not OK (R62, R63). -/
def mbEnd (q result exc : Nat) (retried : Bool) (s : State) : State :=
  let s1 := setReg .ser485 (0x114 + 0x200 * q) (word (result * 2 ^ 28 + exc * 2 ^ 16 + b01 retried * 256 + 2))
    (putSer q { serPort s q with txn := none } s)
  let s2 := raiseIrq .ser485 q s1
  if result = 0 then s2 else raiseIrq .ser485 (4 + q) s2

/-- `MB_STAT_p.BUSY`. -/
def mbBusy (s : State) (q : Nat) : Bool := (serPort s q).txn.isSome

/-- A write of `MB_GO_p` (R63-R65). -/
def mbGo (q : Nat) (v : Word) (s : State) : State :=
  if mbBusy s q then recErr .ser485 0x102 s
  else if v != 1 then s
  else
    let r := reg s .ser485 (0x108 + 0x200 * q)
    let fc := fld r 31 24
    let slave := fld r 23 16
    let qty := regF s .ser485 (0x10C + 0x200 * q) 15 0
    if !spModbus s q || !mbValid fc slave qty then recErr .ser485 0x101 s
    else if !spEn s q then s
    else if !inControl s then mbEnd q 5 0 false s
    else
      let f := mbRequest s q fc slave (fld r 15 0) qty
      send (.modbus q f) (setReg .ser485 (0x114 + 0x200 * q) 1
        (putSer q { serPort s q with txn := some { attempt := 0, fc := fc, slave := slave, addr := fld r 15 0, qty := qty, frame := f } } s))

/-- `MB_GO`.  Where the page quiesces while the port is BUSY, BUSY_QUIESCED comes first and PORT_BUSY is not recorded (DESIGN
CHOICE, log 154: R63 and R65 both apply). -/
def execMbGo (ini : Ini) (q : Fin 2) (v : Word) (s : State) : Out :=
  done s (admitWrite ini .ser485 (0x110 + 0x200 * q.val) v (workRequest .ser485 (mbGo q.val v)) s)

/-- An attempt of a transaction failed with a cause: the request is sent once more, or the failure is lasting
(R16, R63).  A retry that finds the unit not in control fails with DRIVER_OFF and sends nothing (R65). -/
def mbAttemptFailed (q cause : Nat) (t : MbTxn) (s : State) : State :=
  if t.attempt = 0 && !inControl s then mbEnd q 5 0 false (bumpRegF .ser485 (0x118 + 0x200 * q) 31 16 s)
  else if t.attempt = 0 then send (.modbus q t.frame) (putSer q { serPort s q with txn := some { t with attempt := 1 } } s)
  else mbEnd q cause 0 false (bumpRegF .ser485 (0x118 + 0x200 * q) 31 16 s)

/-- A transaction was answered validly: the retry counts as transient (R63). -/
def mbAnswered (q result exc : Nat) (t : MbTxn) (s : State) : State :=
  if t.attempt = 0 then mbEnd q result exc false s
  else mbEnd q result exc true (bumpRegF .ser485 (0x118 + 0x200 * q) 15 0 s)

/-- Stores the registers of a response (R63). -/
def mbStore (q : Nat) (data : List Byte) (s : State) : Nat → State
  | 0 => s
  | k + 1 => mbPut q k (beNat ((data.drop (2 * k)).take 2)) (mbStore q data s k)

/-- The response matches its request: slave and function code, byte count, echo (R63). -/
def mbMatches (t : MbTxn) (body : List Byte) : Bool :=
  body.take 2 == leBytes 1 t.slave ++ leBytes 1 t.fc &&
  (if t.fc = 3 ∨ t.fc = 4 then ((body.drop 2).take 1 == leBytes 1 (2 * t.qty)) && body.length == 3 + 2 * t.qty
   else body == t.frame.take 6)

/-- A response frame has ended (R63). -/
def mbResponse (q : Nat) (frame : List Byte) (framingOk : Bool) (s : State) : State :=
  match (serPort s q).txn with
  | none => s
  | some t =>
    if t.slave = 0 then s
    else
      let body := frame.take (frame.length - 2)
      if !framingOk || decide (frame.length < 4) || frame.drop (frame.length - 2) != leBytes 2 (crc16 body) then
        mbAttemptFailed q 2 t s
      else if body.take 2 == leBytes 1 t.slave ++ leBytes 1 (t.fc + 0x80) && body.length == 3 then
        mbAnswered q 3 (leNat (body.drop 2)) t s
      else if mbMatches t body then
        if t.fc = 3 ∨ t.fc = 4 then mbAnswered q 0 0 t (mbStore q (body.drop 3) s t.qty) else mbAnswered q 0 0 t s
      else mbAttemptFailed q 4 t s

/-- `MB_RESPONSE`. -/
def execMbResponse (q : Fin 2) (frame : List Byte) (framingOk : Bool) (s : State) : Out :=
  done s (mbResponse q.val frame framingOk s)

/-- `MB_RESP_TIMEOUT`: RESP_TMO without a valid response is a failed attempt (R63). -/
def execMbRespTimeout (q : Fin 2) (s : State) : Out :=
  done s (match (serPort s q.val).txn with
    | some t => if t.slave = 0 then s else mbAttemptFailed q.val 1 t s
    | none => s)

/-- `MB_TURN_DONE`: a broadcast completes with OK after TURN (R63). -/
def execMbTurnDone (q : Fin 2) (s : State) : Out :=
  done s (match (serPort s q.val).txn with
    | some t => if t.slave = 0 then mbEnd q.val 0 0 false s else s
    | none => s)

/-- A write of a transaction register while BUSY is ignored with PORT_BUSY (R63). -/
def mbRegWrite (ini : Ini) (q off : Nat) (v : Word) (s : State) : State :=
  if mbBusy s q then recErr .ser485 0x102 s else plainWrite ini .ser485 off v s

/-- A write of `RAW_TX_p` (R64, R65): FC_INVALID in MODBUS mode; discarded while not in control; refused and counted
when the FIFO is full.  With `SP_CFG_p.EN` at 0, of which R64 says nothing, the byte is discarded without a record or a count
(DESIGN CHOICE, log 121). -/
def rawTx (q : Nat) (v : Word) (s : State) : State :=
  if spModbus s q then recErr .ser485 0x101 s
  else if !spEn s q || !inControl s then s
  else
    let p := serPort s q
    if p.tx.length < 256 then putSer q { p with tx := p.tx ++ [BitVec.ofNat 8 v.toNat] } s
    else bumpRegF .ser485 (0x12C + 0x200 * q) 15 0 s

/-- `RAW_TX_WRITE`. -/
def execRawTxWrite (ini : Ini) (q : Fin 2) (v : Word) (s : State) : Out :=
  done s (admitWrite ini .ser485 (0x120 + 0x200 * q.val) v (workRequest .ser485 (rawTx q.val v)) s)

/-- `RAW_RX_BYTE`: a received byte enters the FIFO, or is dropped and counted (R64). -/
def rawRx (q : Nat) (b : Byte) (s : State) : State :=
  if spEn s q && !spModbus s q && working s .ser485 then
    let p := serPort s q
    if p.rx.length < 256 then putSer q { p with rx := p.rx ++ [b], rxSince := true } s
    else bumpRegF .ser485 (0x12C + 0x200 * q) 31 16 (putSer q { p with rxSince := true } s)
  else s

/-- `RAW_RX_BYTE`. -/
def execRawRxByte (q : Fin 2) (b : Byte) (s : State) : Out := done s (rawRx q.val b s)

/-- A read of `RAW_RX_p` pops one byte, or returns EMPTY (R64). -/
def rawRxPop (q : Nat) (s : State) : State :=
  let p := serPort s q
  match p.rx with
  | [] => answer (.data 0x100) s
  | b :: r => answer (.data (word b.toNat)) (putSer q { p with rx := r } s)

/-- `RAW_RX_POP`. -/
def execRawRxPop (ini : Ini) (q : Fin 2) (s : State) : Out :=
  done s (admitRead ini .ser485 (0x124 + 0x200 * q.val) (rawRxPop q.val) s)

/-- `RAW_RX_SILENCE`: 3.5 character times of silence after received data raise RAW_RX (R64). -/
def execRawRxSilence (q : Fin 2) (s : State) : Out :=
  let p := serPort s q.val
  done s (if p.rxSince then raiseIrq .ser485 (2 + q.val) (putSer q.val { p with rxSince := false } s) else s)

/-- One byte of a transmit FIFO leaves (R64); while the unit is not in control the driver is off, and what waits is discarded
(R65). -/
def rawDrain (q : Nat) (s : State) : State :=
  let p := serPort s q
  match p.tx with
  | [] => s
  | b :: r => if !inControl s then putSer q { p with tx := [] } s else send (.raw q b) (putSer q { p with tx := r } s)

/-- The registers of SER485 whose reads are computed. -/
def serView (s : State) (off : Nat) : Option Word :=
  if off = 0x128 ∨ off = 0x328 then
    let p := serPort s ((off - 0x128) / 0x200)
    some (word (p.tx.length * 65536 + p.rx.length))
  else none

/-- A block reset of reach DATAPATH: transactions end with RESULT ABORTED, the FIFOs empty (R65). -/
def serDatapath (s : State) : State :=
  forEach (fun q s => putSer q {} (if mbBusy s q then mbEnd q 6 0 false s else s)) [0, 1] s

/-! ### USBD -/

/-- An endpoint is armed (R67). -/
def epArmed (s : State) (e : Nat) : Bool := regB s .usbd (0x08C + 0x10 * e) 28

/-- A write of `EP_CTRL_e` with ARM: EP_BUSY and EP_RANGE change nothing (R68). -/
def epArm (e : Nat) (noZlp : Bool) (s : State) : State :=
  let buf := regN s .usbd (0x080 + 0x10 * e)
  let len := regN s .usbd (0x084 + 0x10 * e)
  if epArmed s e then recErr .usbd 0x101 s
  else if buf % 64 != 0 || !inRam buf len || decide (65536 < len) then recErr .usbd 0x100 s
  else setReg .usbd (0x08C + 0x10 * e) 0x10000000 { s with usb := { s.usb with
    noZlp := spPut (fun _ => false) e noZlp s.usb.noZlp, stall := spPut (fun _ => false) e false s.usb.stall } }

/-- STALL: the endpoint's next tokens are answered with STALL (R68).  `EP_STAT_e.STALLED`, whose end R67 does not give, clears
when the endpoint is armed again, not at a SETUP or a bus reset (DESIGN CHOICE, log 122). -/
def epStall (e : Nat) (s : State) : State :=
  setRegB .usbd (0x08C + 0x10 * e) 30 true { s with usb := { s.usb with stall := spPut (fun _ => false) e true s.usb.stall } }

/-- A write of `EP_CTRL_e` (R67).  With ARM and STALL both 1 it arms first and stalls then, and a STALL leaves an armed transfer
armed (DESIGN CHOICE, log 155). -/
def epCtrl (e : Nat) (v : Word) (s : State) : State :=
  let s1 := if bit v 0 then epArm e (bit v 2) s else s
  if bit v 1 then epStall e s1 else s1

/-- `EP_ARM`. -/
def execEpArm (ini : Ini) (e : Fin 6) (v : Word) (s : State) : Out :=
  done s (admitWrite ini .usbd (0x088 + 0x10 * e.val) (v ||| 1) (workRequest .usbd (epCtrl e.val (v ||| 1))) s)

/-- `EP_STALL`. -/
def execEpStall (ini : Ini) (e : Fin 6) (v : Word) (s : State) : Out :=
  done s (admitWrite ini .usbd (0x088 + 0x10 * e.val) (v ||| 2) (workRequest .usbd (epCtrl e.val (v ||| 2))) s)

/-- A written address takes effect (R68). -/
def usbAddrApply (s : State) : State :=
  match s.usb.addrPending with
  | none => { s with usb := { s.usb with ctlBusy := false } }
  | some a => { s with usb := { s.usb with addrPending := none, addrInForce := a, ctlBusy := false } }

/-- A write of `USB_ADDR` waits for the status stage of the control transfer in progress (R68).  With none in progress it takes
effect at once, and one that EP0 answered with STALL stays in progress until a later status stage (DESIGN CHOICE, log 155). -/
def usbAddrWrite (ini : Ini) (v : Word) (s : State) : State :=
  let s1 := plainWrite ini .usbd 0x048 v { s with usb := { s.usb with addrPending := some (fld v 6 0) } }
  if s1.usb.ctlBusy then s1 else usbAddrApply s1

/-- The packet size of an endpoint at the port's speed (R66). -/
def epPacket (s : State) (e : Nat) : Nat := if e < 2 then 64 else if regF s .usbd 0x044 9 8 = 2 then 512 else 64

/-- The control transfer in progress reads data: its status stage is an OUT, any other's an IN (R68, as USB 2.0 has it). -/
def ctlReads (s : State) : Bool := regB s .usbd 0x050 7 && regF s .usbd 0x054 31 16 != 0

/-- A transfer ends (R68), unless the endpoint answers with STALL: an IN transfer has sent `EP_LEN_e` bytes, with a zero-length packet where the length is a
whole number of packets and NO_ZLP is not set; an OUT transfer has received until its length or a short packet.  An empty
transfer of EP0 in the direction of the status stage is that stage, after which a written address takes effect. -/
def epDone (e : Nat) (data : List Byte) (short : Bool) (s : State) : State :=
  if !epArmed s e || spGet (fun _ => false) s.usb.stall e then s
  else
    let buf := regN s .usbd (0x080 + 0x10 * e)
    let len := regN s .usbd (0x084 + 0x10 * e)
    if e % 2 = 0 then
      let zlp := decide (len % epPacket s e = 0) && !(spGet (fun _ => false) s.usb.noZlp e)
      let s1 := raiseIrq .usbd e (setReg .usbd (0x08C + 0x10 * e) (word (2 ^ 31 + len)) (send (.usbIn e (memRead s buf len) zlp) s))
      if e = 0 ∧ len = 0 ∧ ctlReads s = false then usbAddrApply s1 else s1
    else
      let d := data.take len
      let sh := short && decide (d.length < len)
      let s1 := memWrite buf d s
      let s2 := raiseIrq .usbd e (setReg .usbd (0x08C + 0x10 * e) (word (2 ^ 31 + b01 sh * 2 ^ 29 + d.length)) s1)
      if e = 1 ∧ d.length = 0 ∧ ctlReads s = true then usbAddrApply s2 else s2

/-- `EP_DONE`. -/
def execEpDone (e : Fin 6) (data : List Byte) (short : Bool) (s : State) : Out := done s (epDone e.val data short s)

/-- An armed transfer is cancelled. -/
def epCancel (e : Nat) (s : State) : State := setRegB .usbd (0x08C + 0x10 * e) 28 false s

/-- A SETUP packet cancels any armed EP0 transfer, latches its 8 bytes and raises SETUP (R68). -/
def usbSetup (bytes : List Byte) (s : State) : State :=
  if !working s .usbd || !regB s .usbd 0x040 0 then s
  else
    let b := takePad 8 bytes
    let s1 := { (epCancel 0 (epCancel 1 s)) with usb := { s.usb with
      stall := spPut (fun _ => false) 0 false (spPut (fun _ => false) 1 false s.usb.stall), ctlBusy := true } }
    raiseIrq .usbd 6 (setReg .usbd 0x054 (word (leNat (b.drop 4))) (setReg .usbd 0x050 (word (leNat (b.take 4))) s1))

/-- `SETUP`. -/
def execSetup (bytes : List Byte) (s : State) : Out := done s (usbSetup bytes s)

/-- A USB bus reset clears `USB_ADDR`, cancels every armed transfer and raises BUS_RESET; a STALL outlives it (R68).  The handshake
gives the speed, full where FS_ONLY asks for it (R66, R67). -/
def usbBusReset (high : Bool) (s : State) : State :=
  if !working s .usbd || !regB s .usbd 0x040 0 then s
  else
    let sp := if high && !regB s .usbd 0x040 1 then 2 else 1
    let s1 := forEach epCancel [0, 1, 2, 3, 4, 5] (setReg .usbd 0x048 0
      { s with usb := { s.usb with addrPending := none, addrInForce := 0, ctlBusy := false } })
    raiseIrq .usbd 7 (setRegF .usbd 0x044 9 8 sp (setRegB .usbd 0x044 4 false s1))

/-- `BUS_RESET`. -/
def execBusReset (high : Bool) (s : State) : Out := done s (usbBusReset high s)

/-- `SUSPEND`: detected and reported (R66). -/
def execSuspend (s : State) : Out :=
  done s (if working s .usbd && regB s .usbd 0x040 0 then raiseIrq .usbd 8 (setRegB .usbd 0x044 4 true s) else s)

/-- `SUSPEND_END`: bus activity clears SUSPENDED (R67); a page whose clocks are gated sees none (R37). -/
def execSuspendEnd (s : State) : Out := done s (if asleep s .usbd then s else setRegB .usbd 0x044 4 false s)

/-- USBD sees whether VBUS is present: a change shows in `USB_STAT` and raises VBUS_CHG (R67). -/
def usbVbus (s : State) : State :=
  if regB s .usbd 0x044 3 = s.usb.vbus then s else raiseIrq .usbd 9 (setRegB .usbd 0x044 3 s.usb.vbus s)

/-- `VBUS_CHG`: the sensed VBUS presence changes (R67); an asleep page sees it when it wakes (R37). -/
def execVbusChg (present : Bool) (s : State) : Out :=
  let s1 := { s with usb := { s.usb with vbus := present } }
  done s (if sees s .usbd then usbVbus s1 else s1)

/-- The registers of USBD whose reads are computed: CONNECTED while the pull-up is on and VBUS is present (DEDUCED,
log 10).  SPEED and SUSPENDED keep their values when CONNECT is cleared by a write or VBUS is lost, of which R67 says nothing
(DESIGN CHOICE, log 122). -/
def usbView (s : State) (off : Nat) : Option Word :=
  if off = 0x044 then some (setBit (reg s .usbd 0x044) 0 (regB s .usbd 0x040 0 && regB s .usbd 0x044 3)) else none

/-- A reset that detaches the port (R68): CONNECT clears, and the endpoints' status and transfers are reset (R39). -/
def usbOff (s : State) : State :=
  setRegB .usbd 0x044 4 false <| setRegF .usbd 0x044 9 8 0 (setRegB .usbd 0x040 0 false
    (forEach (fun e t => setReg .usbd (0x08C + 0x10 * e) 0 t) [0, 1, 2, 3, 4, 5] { s with usb := { vbus := s.usb.vbus } }))

end Sys2Proof.Machine
end

