-- ==== Sys2Proof/Machine/Queues.lean ====
section
/-! DEFINITION. The event streams EVQ and the event recorder EVR (R575-R594). -/
namespace Sys2Proof.Machine

/-! ### EVQ -/

/-- A stream. -/
def evStream (s : State) (k : Nat) : EvStream := spGet (fun _ => {}) s.evq k

/-- Sets a stream. -/
def putStream (k : Nat) (t : EvStream) (s : State) : State := { s with evq := spPut (fun _ => {}) k t s.evq }

/-- `ES_CFG` of a stream. -/
def esCfg (s : State) (k : Nat) : Word := reg s .evq (0x100 + 0x40 * k)

/-- The unread count C (R575). -/
def esCount (t : EvStream) : Nat := (t.w + 8192 - t.r) % 8192

/-- The oldest item held (R578). -/
def esOldest (t : EvStream) : Nat := if t.pushed < 4096 then 0 else (t.w + 4096) % 8192

/-- `ES_EVT.LVL` sets when C rises from below LEVEL to LEVEL or above (R581). -/
def esLevel (k before : Nat) (s : State) : State :=
  let lv := fld (esCfg s k) 12 0
  if before < lv ∧ lv ≤ esCount (evStream s k) then setRegB .evq (0x12C + 0x40 * k) 1 true s else s

/-- The item is written at W; a push that overwrites the marked item's slot loses the mark (R579). -/
def esStore (k : Nat) (item : Nat) (s : State) : State :=
  let t := evStream s k
  let lostMark := decide (t.pushed = 4096) && t.mark == some ((t.w + 4096) % 8192)
  let t1 := { t with
    items := spPut (fun _ => 0) (t.w % 4096) item t.items
    w := (t.w + 1) % 8192
    pushed := satInc 4096 t.pushed
    mark := if lostMark then none else t.mark
    lost := t.lost || lostMark }
  let s1 := putStream k t1 s
  if lostMark then raiseIrq .evq k (setRegB .evq (0x12C + 0x40 * k) 0 true s1) else s1

/-- A push to an enabled stream; false where it is refused (R576, R578). -/
def esPush (k : Nat) (item : Nat) (s : State) : Bool × State :=
  let t := evStream s k
  if !bit (esCfg s k) 31 then (false, s)
  else if nfld item 63 60 = 15 then (false, recErr .evq 0x102 s)
  else if esCount t < 4096 then (true, esLevel k (esCount t) (esStore k item s))
  else if !bit (esCfg s k) 16 then (false, bumpRegF .evq (0x128 + 0x40 * k) 15 0 s)
  else
    let s1 := esStore k item s
    let t1 := evStream s1 k
    (true, bumpRegF .evq (0x128 + 0x40 * k) 31 16 (putStream k { t1 with r := (t1.r + 1) % 8192 } s1))

/-- A processor or the DMA engine writes `ES_PUSH_HI`, which pushes with its own `ES_PUSH_LO` (R576). -/
def esPushWrite (ini : Ini) (k : Nat) (v : Word) (s : State) : State :=
  workRequest .evq (fun s => (esPush k (v.toNat * 2 ^ 32 + (regI s .evq (0x11C + 0x40 * k) ini.id).toNat) s).2) s

/-- A read of `ES_POP_LO` pops the item at R, or returns the idle item (R575, R577). -/
def esPop (ini : Ini) (k : Nat) (s : State) : State :=
  let t := evStream s k
  if !bit (esCfg s k) 31 || esCount t == 0 then
    answer (.data 0) (setRegI .evq (0x118 + 0x40 * k) ini.id 0xF0000000 s)
  else
    let item := spGet (fun _ => 0) t.items (t.r % 4096)
    answer (.data (word (item % 2 ^ 32))) (setRegI .evq (0x118 + 0x40 * k) ini.id (word (item / 2 ^ 32))
      (putStream k { t with r := (t.r + 1) % 8192 } s))

/-- MARK sets the mark at R; in BLOCK mode NO_MARK (R579). -/
def esMark (k : Nat) (s : State) : State :=
  if !bit (esCfg s k) 16 then recErr .evq 0x101 s
  else putStream k { evStream s k with mark := some (evStream s k).r, lost := false } s

/-- REWIND sets R to the mark; while LOST it fails with MARK_LOST and sets R to the oldest item held (R579). -/
def esRewind (k : Nat) (s : State) : State :=
  let t := evStream s k
  if !bit (esCfg s k) 16 then recErr .evq 0x101 s
  else if t.lost then esLevel k (esCount t) (putStream k { t with r := esOldest t } (recErr .evq 0x100 s))
  else match t.mark with
    | none => recErr .evq 0x101 s
    | some m => esLevel k (esCount t) (putStream k { t with r := m } s)

/-- FLUSH sets R to W and keeps the mark (R579). -/
def esFlush (k : Nat) (s : State) : State := putStream k { evStream s k with r := (evStream s k).w } s

/-- A write of `ES_CMD` acts in the order MARK, REWIND, FLUSH (R579). -/
def esCmd (k : Nat) (v : Word) (s : State) : State :=
  let s1 := if bit v 0 then esMark k s else s
  let s2 := if bit v 1 then esRewind k s1 else s1
  if bit v 2 then esFlush k s2 else s2

/-- A write of `ES_CFG`: setting EN from 0 empties the stream and clears the mark and LOST (R575). -/
def esCfgWrite (ini : Ini) (k : Nat) (v : Word) (s : State) : State :=
  let was := bit (esCfg s k) 31
  let s1 := plainWrite ini .evq (0x100 + 0x40 * k) v s
  if !was && bit (esCfg s1 k) 31 then putStream k {} s1 else s1

/-- The registers of EVQ whose reads are computed (R583). -/
def evqView (s : State) (off : Nat) : Option Word :=
  if off < 0x100 ∨ 0x300 ≤ off then none
  else
    let k := (off - 0x100) / 0x40
    let t := evStream s k
    match off % 0x40 with
    | 0x04 => some (word (b01 t.mark.isSome * 2 ^ 31 + b01 t.lost * 2 ^ 30 + esCount t))
    | 0x08 => some (word t.w)
    | 0x0C => some (word t.r)
    | 0x10 => some (word (t.mark.getD 0))
    | _ => none

/-- `ES_PUSH`. -/
def execEsPush (ini : Ini) (k : Fin 8) (v : Word) (s : State) : Out :=
  done s (admitWrite ini .evq (0x120 + 0x40 * k.val) v (esPushWrite ini k.val v) s)
/-- `ES_POP`. -/
def execEsPop (ini : Ini) (k : Fin 8) (s : State) : Out :=
  done s (admitRead ini .evq (0x114 + 0x40 * k.val) (esPop ini k.val) s)
/-- `MARK`. -/
def execMark (ini : Ini) (k : Fin 8) (s : State) : Out :=
  done s (admitWrite ini .evq (0x124 + 0x40 * k.val) 1 (esCmd k.val 1) s)
/-- `REWIND`. -/
def execRewind (ini : Ini) (k : Fin 8) (s : State) : Out :=
  done s (admitWrite ini .evq (0x124 + 0x40 * k.val) 2 (esCmd k.val 2) s)
/-- `ES_FLUSH`. -/
def execEsFlush (ini : Ini) (k : Fin 8) (s : State) : Out :=
  done s (admitWrite ini .evq (0x124 + 0x40 * k.val) 4 (esCmd k.val 4) s)
/-- `ES_ENABLE`: a write of `ES_CFG` with EN set. -/
def execEsEnable (ini : Ini) (k : Fin 8) (v : Word) (s : State) : Out :=
  done s (admitWrite ini .evq (0x100 + 0x40 * k.val) (v ||| 0x80000000) (esCfgWrite ini k.val (v ||| 0x80000000)) s)

/-- A block reset of reach DATAPATH empties every stream and clears counts, events and the ports (R582). -/
def evqDatapath (s : State) : State :=
  forEach (fun k s => setReg .evq (0x12C + 0x40 * k) 0 (setReg .evq (0x128 + 0x40 * k) 0
      (forEach (fun i s => setRegI .evq (0x118 + 0x40 * k) i 0 (setRegI .evq (0x11C + 0x40 * k) i 0 s)) (List.finRange 10) s)))
    (List.range 8) { s with evq := [] }

/-! ### EVR -/

/-- The base of the recorder's MRAM region (R13, R585). -/
def evrBase : Nat := 0x20040000

/-- The slot of a record k = SEQ - C (R585). -/
def evrSlot (k : Nat) : Nat := if k < 1024 then k else 1024 + (k - 1024) % 15360

/-- Bytes 0-59 of a record (R584). -/
def evrBody (s : State) (r : EvrRec) (seq : Nat) : List Byte :=
  leBytes 5 s.evr.opsec ++ leBytes 3 s.evr.pcyc ++ leBytes 2 r.code ++ leBytes 1 (min r.pay.length 36) ++ leBytes 1 r.src
    ++ leBytes 8 r.loc ++ takePad 36 r.pay ++ leBytes 4 seq

/-- A whole record: the CRC follows bytes 0-59 (R584). -/
def evrBytes (s : State) (r : EvrRec) (seq : Nat) : List Byte :=
  let b := evrBody s r seq
  b ++ leBytes 4 (crc32 b)

/-- The bytes of a slot. -/
def evrRead (s : State) (slot : Nat) : List Byte := memRead s (evrBase + 64 * slot) 64

/-- A record is valid when its CRC holds (R584). -/
def evrValid (b : List Byte) : Bool := leNat (b.drop 60) == crc32 (b.take 60)

/-- SEQ of a record's bytes. -/
def evrSeq (b : List Byte) : Nat := leNat ((b.drop 56).take 4)

/-- CODE of a record's bytes. -/
def evrCode (b : List Byte) : Nat := leNat ((b.drop 8).take 2)

/-- A sequence is held (R585). -/
def evrHeld (e : Evr) (seq : Nat) : Bool :=
  decide (e.c ≤ seq) && decide (seq ≤ e.n) && (decide (seq - e.c ≤ 1023) || decide (e.n < seq + 15360))

/-- An engine offers a record: SRC 0xF and the code of its page (R584, R599). -/
def evrOffer (p : Page) (code : Nat) (pay : List Byte) (s : State) : State :=
  { s with evr := { s.evr with offers := s.evr.offers ++
    [{ code := code, pay := pay, src := 0xF, loc := locOfPage (serial16 s) p }] } }

/-- A record EVR writes itself: SRC 0xE. -/
def evrOwn (s : State) (code : Nat) (pay : List Byte) : EvrRec :=
  { code := code, pay := pay, src := 0xE, loc := locOfPage (serial16 s) .evr }

/-- EVR takes records: enabled, not quiescing; during the scan they are queued too (R588, R589, R592). -/
def evrAccepts (s : State) : Bool := accepting s .evr && decide (s.evr.queue.length < 64)

/-- `EVR_STAT` SCANNING. -/
def evrScanning (s : State) : Bool := regB s .evr 0x044 0

/-- The first offer of an engine enters the queue; a refused one is kept (R38, R588). -/
def evrTakeOffer (s : State) : State :=
  match s.evr.offers with
  | [] => s
  | r :: rest =>
    if evrAccepts s then { s with evr := { s.evr with offers := rest, queue := s.evr.queue ++ [r] } } else s

/-- The location code of a processor or the DMA engine (R598, R599). -/
def locOfIni (serial : Nat) (i : Fin 10) : Nat :=
  if i.val < 4 then locCode serial 1 0 i.val locNone
  else if i.val < 8 then locCode serial 1 1 (i.val - 4) locNone
  else if i.val = 8 then locCode serial 1 2 0 locNone
  else locOfPage serial .dma

/-- A write of `WR_GO` (R587, R588, R594): PLEN above 36 and a module code from the application cluster are refused;
a full queue leaves the port BUSY. -/
def evrPortGo (ini : Ini) (v : Word) (s : State) : State :=
  if v != 1 then s
  else
    let c := regI s .evr 0x080 ini.id
    if bit (regI s .evr 0x0B8 ini.id) 0 then s
    else if 36 < fld c 21 16 then setRegI .evr 0x0B8 ini.id 4 (recErr .evr 0x102 s)
    else if ini.id.val < 4 && decide (fld c 15 0 < 0x8000) then setRegI .evr 0x0B8 ini.id 4 (recErr .evr 0x100 s)
    else workRequest .evr (fun s =>
      let pay := ((List.range 9).flatMap fun k => leBytes 4 (regI s .evr (0x090 + 4 * k) ini.id).toNat).take (fld c 21 16)
      let r : EvrRec := { code := fld c 15 0, pay := pay, src := ini.id.val, loc := locOfIni (serial16 s) ini.id, port := ini.id.val + 1 }
      let s1 := setRegI .evr 0x0B8 ini.id 1 s
      if s.evr.queue.length < 64 then { s1 with evr := { s1.evr with queue := s1.evr.queue ++ [r] } }
      else { s1 with evr := { s1.evr with waiting := s1.evr.waiting ++ [r] } }) s

/-- `EVR_RECORD`: a record of an engine, or of a `WR_GO`, enters the queue or is refused. -/
def execEvrRecord (src : EvrSrc) (s : State) : Out :=
  match src with
  | .engine => done s (evrTakeOffer s)
  | .port ini => done s (admitWrite ini .evr 0x0B4 1 (evrPortGo ini 1) s)

/-- Writes a record into its slot and makes its SEQ the newest (R585). -/
def evrPut (r : EvrRec) (s : State) : State :=
  let seq := (s.evr.n + 1) % 2 ^ 32
  let s1 := memWrite (evrBase + 64 * evrSlot (seq - s.evr.c)) (evrBytes s r seq) s
  let s2 := { s1 with evr := { s1.evr with n := seq } }
  if r.port = 0 then s2
  else
    let i : Fin 10 := Fin.ofNat 10 (r.port - 1)
    setRegI .evr 0x0BC i (word seq) (setRegI .evr 0x0B8 i 2 s2)

/-- The record at the head leaves the queue, and one that waited takes the room (R588). -/
def evrPop (s : State) : State :=
  match s.evr.waiting with
  | [] => { s with evr := { s.evr with queue := s.evr.queue.drop 1 } }
  | w :: ws => { s with evr := { s.evr with queue := s.evr.queue.drop 1 ++ [w], waiting := ws } }

/-- A good write: a WRITE_GAP record goes first where records were lost (R588). -/
def evrWriteOk (r : EvrRec) (s : State) : State :=
  match s.evr.gap with
  | none => evrPut r s
  | some (a, b) =>
    evrPut r (evrPut (evrOwn s 0x0006 (leBytes 4 a ++ leBytes 4 b)) { s with evr := { s.evr with gap := none } })

/-- A record lost after its retry: its SEQ is consumed, `WR_FAIL` counts, WRITE_FAIL is recorded (R588). -/
def evrWriteLost (r : EvrRec) (s : State) : State :=
  let seq := (s.evr.n + 1) % 2 ^ 32
  let gap := match s.evr.gap with
    | none => some (seq, seq)
    | some (a, _) => some (a, seq)
  let s1 := raiseIrq .evr 1 (recErr .evr 0x101 (bumpReg .evr 0x058 { s with evr := { s.evr with n := seq, gap := gap } }))
  if r.port = 0 then s1
  else setRegI .evr 0x0BC (Fin.ofNat 10 (r.port - 1)) (word seq) (setRegI .evr 0x0B8 (Fin.ofNat 10 (r.port - 1)) 2 s1)

/-- The record at the head is written, retried once, or lost (R588). -/
def evrWriteHead (r : CopyResult) (s : State) : State :=
  match s.evr.queue with
  | [] => s
  | h :: _ =>
    if evrScanning s then s
    else match r with
      | .failed => evrPop (evrWriteLost h s)
      | .okOnRetry => evrPop (noteTransient .evr (evrWriteOk h s))
      | .ok => evrPop (evrWriteOk h s)

/-- `EVR_WRITE`. -/
def execEvrWrite (r : CopyResult) (s : State) : Out := done s (evrWriteHead r s)

/-- Writes every queued record (R588, R592). -/
def evrDrain : Nat → State → State
  | 0, s => s
  | k + 1, s => evrDrain k (evrWriteHead .ok s)

/-- PWR_FAIL_N asserts: POWER_FAIL goes to the head, and the queue is emptied (R588). -/
def evrPowerFail (s : State) : State :=
  let r := evrOwn s 0x0002 (leBytes 2 (regF s .pwr 0x05C 15 0))
  let s1 := { s with evr := { s.evr with queue := r :: s.evr.queue } }
  if evrScanning s then s1 else evrDrain (s1.evr.queue.length + s1.evr.waiting.length) s1

/-- The slots that hold any byte: an empty slot is never a valid record. -/
def evrUsedSlots (s : State) : List Nat :=
  ((s.mem.filter fun c => decide (evrBase ≤ c.1) && decide (c.1 < evrBase + 0x100000)).map fun c => (c.1 - evrBase) / 64).eraseDups

/-- The valid records, as slot and SEQ. -/
def evrValidSlots (s : State) : List (Nat × Nat) :=
  (evrUsedSlots s).filterMap fun k => let b := evrRead s k; if evrValid b then some (k, evrSeq b) else none

/-- The lowest or highest of numbers. -/
def listMin (l : List Nat) (d : Nat) : Nat := l.foldl min d
/-- The highest of numbers, 0 for none. -/
def listMax (l : List Nat) : Nat := l.foldl max 0

/-- The START record (R589, R593). -/
def evrStart (s : State) : EvrRec :=
  evrOwn s 0x0001 (leBytes 4 (regN s .oasis 0x0C8) ++ leBytes 4 (regN s .oasis 0x0CC) ++ leBytes 5 (s.rtc / 2 ^ 15))

/-- After a backup POR, OPSEC and PCYC come from the newest valid record, and COUNTERS_RESEEDED is written (R586). -/
def evrReseed (s : State) (seqs : List (Nat × Nat)) : State :=
  if !s.evr.reseed then s
  else
    let top := listMax (seqs.map (·.2))
    match seqs.find? fun x => x.2 == top with
    | none => { s with evr := { s.evr with reseed := false } }
    | some (slot, seq) =>
      let b := evrRead s slot
      let s1 := { s with evr := { s.evr with reseed := false, opsec := leNat (b.take 5), pcyc := leNat ((b.drop 5).take 3) } }
      setRegB .evr 0x044 2 true { s1 with evr := { s1.evr with queue := evrOwn s1 0x0005 (leBytes 4 seq) :: s1.evr.queue } }

/-- The sequences that are held (R585). -/
def evrHeldSeqs (e : Evr) : List Nat :=
  let lo := max (e.c + 1024) (e.n - 15359)
  ((List.range (min (e.n + 1 - e.c) 1024)).map (e.c + ·)) ++ ((List.range (e.n + 1 - lo)).map (lo + ·))

/-- The scan after a reset (R589): finds C and N, or writes CLEARED with SEQ 0 where no slot is valid; START is the
first record after it, then COUNTERS_RESEEDED of R586 where the counters were lost. -/
def evrScan (s : State) : State :=
  let v := evrValidSlots s
  let zero := evrRead s 0
  let hasClear := evrValid zero && evrCode zero == 0x0004
  let low := v.filter fun x => decide (1 ≤ x.1) && decide (x.1 ≤ 1023)
  let lowSeq := listMin (low.map (·.2)) (2 ^ 32)
  let lowSlot := match low.find? fun x => x.2 == lowSeq with | some x => x.1 | none => 0
  let top := listMax (v.map (·.2))
  let s0 := setRegB .evr 0x044 0 false s
  let s1 := if v.isEmpty then
      let r := evrOwn s 0x0004 (leBytes 4 0 ++ leBytes 4 0 ++ leBytes 1 0 ++ leBytes 1 1)
      memWrite evrBase (evrBytes s r 0) { s0 with evr := { s0.evr with c := 0, n := 0 } }
    else if hasClear then { s0 with evr := { s0.evr with c := evrSeq zero, n := top } }
    else raiseIrq .evr 2 (setRegB .evr 0x044 1 true (used { s0 with evr := { s0.evr with c := if low.isEmpty then freeN s % 2 ^ 32 else lowSeq - lowSlot, n := top } }))
  let bad := (evrHeldSeqs s1.evr).filter fun q => !evrValid (evrRead s1 (evrSlot (q - s1.evr.c)))
  let s2 := evrReseed (setReg .evr 0x05C (word bad.length) s1) v
  { s2 with evr := { s2.evr with queue := evrStart s2 :: s2.evr.queue } }

/-- `EVR_SCAN`: the scan ends while SCANNING. -/
def execEvrScan (s : State) : Out := done s (if evrScanning s then evrScan s else s)

/-- A write of `RD_SEQ`: a snapshot of the record, NOT_HELD, or BAD (R590). -/
def evrRdSeq (ini : Ini) (v : Word) (s : State) : State :=
  if !evrHeld s.evr v.toNat then setRegI .evr 0x0C4 ini.id 4 s
  else
    let b := evrRead s (evrSlot (v.toNat - s.evr.c))
    if evrValid b && evrSeq b == v.toNat then
      setRegI .evr 0x0C4 ini.id 2 (forEach (fun k s => setRegI .evr (0x100 + 4 * k) ini.id (word (leNat ((b.drop (4 * k)).take 4))) s)
        (List.range 16) s)
    else setRegI .evr 0x0C4 ini.id 8 s

/-- `RD_SEQ`. -/
def execRdSeq (ini : Ini) (v : Word) (s : State) : Out := done s (admitWrite ini .evr 0x0C0 v (evrRdSeq ini v) s)

/-- `OPSEC_TICK`: each second with the internal rails on, OPSEC advances (R586); `PWR_ON` is the rails' state. -/
def execOpsecTick (s : State) : Out :=
  done s (if s.railsOn then { s with evr := { s.evr with opsec := (s.evr.opsec + 1) % 2 ^ 40 } } else s)

/-- The authorised clear (R591): a CLEARED record in slot 0 with SEQ N + 1, ahead of the queue. -/
def evrClear (slot : Nat) (s : State) : State :=
  let seq := (s.evr.n + 1) % 2 ^ 32
  let r := evrOwn s 0x0004 (leBytes 4 s.evr.c ++ leBytes 4 s.evr.n ++ leBytes 1 slot ++ leBytes 1 0)
  let s1 := memWrite evrBase (evrBytes s r seq) s
  raiseIrq .evr 0 { s1 with evr := { s1.evr with c := seq, n := seq } }

/-- The registers of EVR whose reads are computed (R594). -/
def evrView (s : State) (off : Nat) : Option Word :=
  match off with
  | 0x044 => some (setFld (reg s .evr 0x044) 22 16 s.evr.queue.length)
  | 0x048 => some (word s.evr.n)
  | 0x04C => some (word s.evr.c)
  | 0x050 => some (word (s.evr.opsec % 2 ^ 32))
  | 0x054 => some (word (s.evr.pcyc * 256 + s.evr.opsec / 2 ^ 32))
  | _ => none

/-- A block reset of reach DATAPATH writes the queued records, then clears the queue, the ports and the status
(R592). -/
def evrDatapath (s : State) : State :=
  let s1 := evrDrain (s.evr.queue.length + s.evr.waiting.length) s
  let s2 := setReg .evr 0x044 (reg s1 .evr 0x044 &&& 1) { s1 with evr := { s1.evr with queue := [], waiting := [] } }
  { s2 with regs := s2.regs.filter fun r => !(decide (2 ^ 32 ≤ r.1) && decide (r.1 % 2 ^ 32 / 0x1000 = 0x40180)) }

end Sys2Proof.Machine
end

