-- ==== Sys2Proof/Machine/TwinCore.lean ====
section
/-! DEFINITION. The twin link as the engines use it: messages sent, and the journal of commands (R469-R471). -/
namespace Sys2Proof.Machine

/-- Changes the controller's own state. -/
def onTwin (f : Twin → Twin) (s : State) : State := { s with twin := f s.twin }

/-- `TW_CTRL.EN`. -/
def twinEn (s : State) : Bool := regB s .twin 0x040 0

/-- `TW_STAT.STATE`: 0 DETACHED, 1 PAIRING, 2 SYNCING, 3 STANDBY, 4 ACTIVE, 5 DEGRADED (R461). -/
def twinState (s : State) : Nat := regF s .twin 0x044 2 0

/-- Lane 0 or 1 is up. -/
def laneUp (s : State) (l : Nat) : Bool := regB s .twin 0x044 (9 + l)

/-- The lane a message takes: lane 0 while it is up (R471). -/
def lane1st (s : State) : Nat := if laneUp s 0 then 0 else 1

/-- Sends a numbered message, which the peer must acknowledge (R471). -/
def linkSend (item : LinkItem) (s : State) : State :=
  let q := (s.twin.seqTx + 1) % 2 ^ 32
  send (.link (lane1st s) q item) (onTwin (fun t => { t with seqTx := q, out := t.out ++ [{ seq := q, item := item, since := s.tb.cycles }] }) s)

/-- A block carries on its work as the unit in control, or is in shadow (R472). -/
def serving (s : State) (p : Page) : Bool := working s p && inControl s

/-- Commands wait for the peer's acknowledgement of their journal entries (R470). -/
def jrnWaits (s : State) : Bool := twinEn s && twinState s == 4

/-- The unit mirrors: its peer is in STANDBY or receives its copy (R467, R469). -/
def linkTells (s : State) : Bool := twinEn s && !quiescing s .twin && (twinState s == 4 || (twinState s == 5 && s.twin.syncing))

/-- Tells the peer of a journal entry, or of a mirrored item that has changed (R469). -/
def jrnTell (item : LinkItem) (s : State) : State := if linkTells s then linkSend item s else s

/-- Tells the peer of a change at a point (R469). -/
def pointTell (i : Nat) (item : Fin 12288 → LinkItem) (s : State) : State := if i < 12288 then jrnTell (item (Fin.ofNat 12288 i)) s else s

/-- The journal entry of a command handed over for a place. -/
def jrnHanded (place : Nat) (c : Cmd) : LinkItem :=
  .handed place { point := c.point, op := c.op, arg := c.arg, act := c.act, urgent := c.urgent, src := c.src, cause := c.cause, prio := c.prio, uid := c.uid }

end Sys2Proof.Machine
end

