-- ==== Sys2Proof/Machine/PointTable.lean ====
section
/-! DEFINITION. The point table and the point cache: lookups, ports, pins, flushes, checkpoint (R88-R121).  The
effects of a changed configuration half on the engines stand in the file that follows them all. -/
namespace Sys2Proof.Machine

/-- Entries of the point table (R88). -/
def ptCount : Nat := 12288

/-- Where entry i lies (R88). -/
def ptAddr (s : State) (i : Nat) : Nat := regN s .ptab 0x040 + 256 * i

/-- The cache line of an index, if it is cached. -/
def ptLine (s : State) (i : Nat) : Option PtLine := spGet (fun _ => none) s.ptab.cache i

/-- Sets the cache line of an index. -/
def putLine (i : Nat) (l : Option PtLine) (s : State) : State :=
  { s with ptab := { s.ptab with cache := spPut (fun _ => none) i l s.ptab.cache } }

/-- Word w of a list of words. -/
def wordAt (ws : List Word) (w : Nat) : Word := ws.getD w 0

/-- Word w of an entry as the engines see it: the cache's, or DRAM's (R99, R111). -/
def ptWord (s : State) (i w : Nat) : Word :=
  match ptLine s i with
  | some l => wordAt l.words w
  | none => mem32 s (ptAddr s i + 4 * w)

/-- The 32 configuration words of an entry. -/
def ptHalf (s : State) (i : Nat) : List Word := (List.range 32).map (ptWord s i)

/-- The 64 words of an entry. -/
def ptEntry (s : State) (i : Nat) : List Word := (List.range 64).map (ptWord s i)

/-! ### Fields of a configuration half (R94) -/

/-- PT_KIND. -/
def cfgKind (c : List Word) : Nat := fld (wordAt c 0) 7 0
/-- EN. -/
def cfgEn (c : List Word) : Bool := bit (wordAt c 0) 15
/-- PT_GROUP. -/
def cfgGroup (c : List Word) : Nat := fld (wordAt c 0) 31 16
/-- RADIO. -/
def cfgRadio (c : List Word) : Bool := bit (wordAt c 1) 31
/-- LINE. -/
def cfgLine (c : List Word) : Nat := fld (wordAt c 1) 15 10
/-- POS. -/
def cfgPos (c : List Word) : Nat := fld (wordAt c 1) 9 0
/-- COUNT. -/
def cfgCount (c : List Word) : Nat := fld (wordAt c 1) 26 16
/-- SHORT. -/
def cfgShort (c : List Word) : Nat := fld (wordAt c 1) 15 0
/-- EUI64. -/
def cfgEui (c : List Word) : Nat := (wordAt c 2).toNat + 2 ^ 32 * (wordAt c 3).toNat
/-- PRIO_MASK; bits 6 and 0 read as 1 whatever is written. -/
def cfgPrioMask (c : List Word) : Nat := fld (wordAt c 4) 15 8 ||| 0x41
/-- SCHED_PROG. -/
def cfgProg (c : List Word) : Nat := fld (wordAt c 4) 7 0
/-- STRIP. -/
def cfgStrip (c : List Word) : Nat := fld (wordAt c 10) 7 0
/-- POS_DM. -/
def cfgPosDm (c : List Word) : Nat := fld (wordAt c 10) 31 8

/-- The kinds of PT_KIND (R94). -/
def kindNone : Nat := 0
/-- LANTERN_LINE. -/
def kindLine : Nat := 1
/-- LANTERN_RADIO. -/
def kindRadio : Nat := 2
/-- SENSOR. -/
def kindSensor : Nat := 3
/-- GROUP. -/
def kindGroup : Nat := 4
/-- PIXEL_SEGMENT. -/
def kindPixel : Nat := 5

/-- A field is in range or holds its "none". -/
def upToOrNone (v top none : Nat) : Bool := decide (v ≤ top) || v == none

/-- A configuration half is valid (R96); NONE entries are never invalid. -/
def cfgValid (c : List Word) : Bool :=
  let k := cfgKind c
  let w := wordAt c
  k == 0 ||
  (decide (k ≤ 5)
    && !((k == 1 || k == 3) && !cfgRadio c && decide (63 < cfgPos c))
    && !(k == 5 && (cfgRadio c || cfgCount c == 0 || decide (1024 < cfgPos c + cfgCount c)))
    && !(cfgRadio c && !(decide (1 ≤ cfgShort c) && decide (cfgShort c ≤ 0x0FFF)))
    && !(k == 1 && cfgRadio c) && !(k == 2 && !cfgRadio c)
    && !(k != 5 && cfgCount c != 0)
    && decide (fld (w 7) 15 8 ≤ 150)
    && (fld (w 8) 31 16 == 0 || (decide (1800 ≤ fld (w 8) 31 16) && decide (fld (w 8) 31 16 ≤ 10000)))
    && decide (fld (w 5) 15 0 ≤ fld (w 5) 31 16)
    && upToOrNone (cfgProg c) 63 0xFF && upToOrNone (fld (w 7) 7 0) 31 0xFF
    && upToOrNone (cfgStrip c) 63 0xFF && upToOrNone (fld (w 12) 7 0) 23 0xFF
    && fld (w 12) 9 8 != 3
    && (fld (w 11) 16 0 == 0 || (decide (60 ≤ fld (w 11) 16 0) && decide (fld (w 11) 16 0 ≤ 86400)))
    && (fld (w 11) 31 20 == 0 || (decide (40 ≤ fld (w 11) 31 20) && decide (fld (w 11) 31 20 ≤ 4000)))
    && !((bit (w 0) 13 || bit (w 0) 12) && !(decide (1 ≤ fld (w 9) 31 16) && decide (fld (w 9) 31 16 ≤ 6000)))
    && fld (w 1) 30 27 == 0 && fld (w 11) 19 17 == 0 && fld (w 12) 31 17 == 0 && fld (w 12) 15 10 == 0
    && fld (w 13) 31 16 == 0
    && (List.range 10).all (fun n => w (14 + n) == 0))

/-! ### Fields of the state half (R95) -/

/-- CFG_BAD. -/
def ptBad (s : State) (i : Nat) : Bool := bit (ptWord s i 46) 0

/-- The engines serve the point: EN and not CFG_BAD (R94, R97). -/
def ptServed (s : State) (i : Nat) : Bool := cfgEn (ptHalf s i) && !ptBad s i

/-! ### The cache -/

/-- Sets a word of an entry: in the cache, where it makes the state half dirty, or in DRAM. -/
def ptPoke (i w : Nat) (v : Word) (s : State) : State :=
  match ptLine s i with
  | some l => putLine i (some { l with words := setAt l.words w v, dirty := l.dirty || decide (32 ≤ w) }) s
  | none => setMem32 (ptAddr s i + 4 * w) v s

/-- Sets a field of a word of an entry. -/
def ptPokeF (i w hi lo v : Nat) (s : State) : State := ptPoke i w (setFld (ptWord s i w) hi lo v) s

/-- Writes words into memory. -/
def memWriteWords (a : Nat) : List Word → State → State
  | [], s => s
  | w :: ws, s => memWriteWords (a + 4) ws (setMem32 a w s)

/-- A dirty state half goes back to DRAM (R100). -/
def ptWriteBack (i : Nat) (s : State) : State :=
  match ptLine s i with
  | some l =>
    if l.dirty then putLine i (some { l with dirty := false }) (memWriteWords (ptAddr s i + 128) (l.words.drop 32) s) else s
  | none => s

/-- The cached indices. -/
def ptCached (s : State) : List Nat := s.ptab.cache.map (·.1)

/-- Every dirty state half goes back to DRAM. -/
def ptWriteBackAll (s : State) : State := forEach ptWriteBack (ptCached s) s

/-- The cache empties, pins and all. -/
def ptEmpty (s : State) : State := { s with ptab := { s.ptab with cache := [] } }

/-- The cached indices of the set of an index (R99). -/
def ptSet (s : State) (i : Nat) : List Nat := (ptCached s).filter fun j => j % 256 == i % 256

/-- A pinned entry. -/
def ptPinned (s : State) (i : Nat) : Bool := match ptLine s i with | some l => l.pinned | none => false

/-- A full set gives up a victim among its unpinned ways: which one pseudo-LRU names is open (R99). -/
def ptEvict (i : Nat) (s : State) : State :=
  let set := ptSet s i
  if set.length < 8 then s
  else
    let c := set.filter fun j => !ptPinned s j
    let v := c.getD (freeN s % c.length) 0
    used (putLine v none (ptWriteBack v s))

/-- An invalid half sets CFG_BAD and raises CFG_BAD_SEEN; a valid one clears it (R97). -/
def ptCheck (i : Nat) (s : State) : State :=
  if cfgValid (ptHalf s i) then (if ptBad s i then ptPokeF i 46 0 0 0 s else s)
  else raiseIrq .ptab 4 (if ptBad s i then s else ptPokeF i 46 0 0 1 s)

/-- Fills an entry from DRAM (R99).  Where its check changes CFG_BAD, the engines are to be told (R97). -/
def ptFill (i : Nat) (s : State) : State :=
  let s1 := ptEvict i s
  let s2 := putLine i (some { words := memWords s1 (ptAddr s1 i) 64 }) s1
  let s3 := ptCheck i s2
  { s3 with ptab := { s3.ptab with tell := if ptBad s3 i == ptBad s2 i then s3.ptab.tell else s3.ptab.tell ++ [i] } }

/-- RESTORING (R118). -/
def restoring (s : State) : Bool := regB s .ptab 0x048 0

/-- PTAB serves engine lookups: enabled, not quiescing, not restoring (R118, R120, R631); else they wait. -/
def ptReady (s : State) : Bool := accepting s .ptab && !restoring s

/-- A word of an entry as it reads: bits 6 and 0 of PRIO_MASK are 1 whatever DRAM holds, and reserved state offsets are zero
(R94, R111). -/
def ptShown (s : State) (i w : Nat) : Word :=
  if w = 4 then ptWord s i w ||| 0x4100 else if 52 ≤ w then 0 else ptWord s i w

/-- An engine's lookup: a hit or a miss with its fill; an index out of range is refused (R90, R99). -/
def ptSee (i : Nat) (s : State) : State :=
  if ptCount ≤ i then recErr .ptab 0x100 s
  else if (ptLine s i).isSome then bumpReg .ptab 0x04C s
  else ptFill i (bumpReg .ptab 0x050 s)

/-- The pages whose engine writes a word of the state half (R14, R95). -/
def ptWriters (w : Nat) : List Page :=
  if w = 32 ∨ w = 43 ∨ w = 44 then [.dim]
  else if w = 33 ∨ w = 34 ∨ w = 35 ∨ w = 38 then [.lseq, .crv]
  else if w = 36 ∨ w = 37 ∨ w = 42 ∨ w = 45 then [.diag]
  else if (39 ≤ w ∧ w ≤ 41) ∨ (48 ≤ w ∧ w ≤ 51) then [.attr]
  else if w = 46 then [.ptab]
  else if w = 47 then [.nupd]
  else []

/-- The engine may write this word of the entry: it is the word's one writer, for line points LSEQ and for radio points CRV, and
its unit is in control (R14). -/
def ptMayWrite (s : State) (who : Page) (i w : Nat) : Bool :=
  (ptWriters w).contains who && (who == .ptab || inControl s)
    && (who != .lseq || !cfgRadio (ptHalf s i)) && (who != .crv || cfgRadio (ptHalf s i))

/-- Writes one word of an entry for the engine that owns it, keeping the bits of `x.2.1`. -/
def ptWrite (who : Page) (i : Nat) (x : Nat × Word × Word) (s : State) : State :=
  if ptMayWrite s who i x.1 then ptPoke i x.1 ((ptWord s i x.1 &&& x.2.1) ||| x.2.2) s else s

/-- An entry that is to be written is in the cache: a hit counts, and a miss counts and fills it (R99, R103). -/
def ptTouch (i : Nat) (s : State) : State :=
  if (ptLine s i).isSome then bumpReg .ptab 0x04C s else ptFill i (bumpReg .ptab 0x050 s)

/-- An engine reads an entry within its own work: the entry comes through the cache (R99). -/
def ptUse (i : Nat) (s : State) : State := if i < ptCount ∧ ptReady s then ptTouch i s else s

/-- A state half that an engine has written is mirrored (R469). -/
def stTell (i : Nat) (s : State) : State := pointTell i (fun k => .st k ((ptEntry s i).drop 32)) s

/-- A configuration half that has changed is mirrored (R469). -/
def cfgTell (i : Nat) (s : State) : State := pointTell i (fun k => .cfg k (ptHalf s i)) s

/-- An engine's lookup is served through the cache: its writes, or the entry it reads (R99). -/
def ptServe (x : PtHeld) (s : State) : State :=
  if ptCount ≤ x.idx then recErr .ptab 0x100 s
  else if x.writes.isEmpty then
    let s1 := ptSee x.idx s
    answer (.bytes (bytesOfWords ((List.range 64).map (ptShown s1 x.idx)))) s1
  else stTell x.idx (forEach (ptWrite x.who x.idx) x.writes (ptTouch x.idx s))

/-- An engine's lookup: served, or held until PTAB serves again (R38, R118, R120). -/
def ptEngine (x : PtHeld) (s : State) : State :=
  if ptReady s then ptServe x s else { s with ptab := { s.ptab with held := s.ptab.held ++ [x] } }

/-- An engine sets a word of an entry. -/
def engPoke (who : Page) (i w : Nat) (v : Word) (s : State) : State := ptEngine { who := who, idx := i, writes := [(w, 0, v)] } s

/-- An engine sets a field of a word of an entry. -/
def engPokeF (who : Page) (i w hi lo v : Nat) (s : State) : State :=
  ptEngine { who := who, idx := i, writes := [(w, ~~~(maskOf hi lo), word (v <<< lo) &&& maskOf hi lo)] } s

/-- PTAB serves again: the lookups that were held, in their order. -/
def ptUnhold (s : State) : State :=
  if ptReady s then forEach ptServe s.ptab.held { s with ptab := { s.ptab with held := [] } } else s

/-- `PT_LOOKUP`: an engine reads an entry, or writes a state word it owns, through the cache (R14, R99). -/
def ptLookup (who : Page) (i : Nat) (wr : Option (Fin 64 × Word)) (s : State) : State :=
  ptEngine { who := who, idx := i, writes := match wr with | some (w, v) => [(w.val, 0, v)] | none => [] } s

/-- `PT_LOOKUP`. -/
def execPtLookup (who : Page) (i : Nat) (wr : Option (Fin 64 × Word)) (s : State) : Out := done s (ptLookup who i wr s)

/-- `WB_SWEEP`: every dirty state half goes back (R100). -/
def execWbSweep (s : State) : Out := done s (ptWriteBackAll s)

/-! ### Base, flush, pins -/

/-- A write of `PT_BASE` (R89): out of range or while enabled it is ignored with BASE_RANGE; accepted, it writes back
at the old base, empties the cache and moves the table. -/
def ptBaseWrite (ini : Ini) (v : Word) (s : State) : State :=
  let b := v.toNat / 4096 * 4096
  if enabled s .ptab || decide (b < 0x80000000) || decide (0xBFD00000 < b) then recErr .ptab 0x105 s
  else if locked s .ptab 0 then plainWrite ini .ptab 0x040 v s
  else plainWrite ini .ptab 0x040 v (ptEmpty (ptWriteBackAll s))

/-- `PT_BASE_WRITE`. -/
def execPtBaseWrite (ini : Ini) (v : Word) (s : State) : Out := done s (admitWrite ini .ptab 0x040 v (ptBaseWrite ini v) s)

/-- Pinned entries of the set of an index. -/
def ptPinsInSet (s : State) (i : Nat) : Nat := ((ptSet s i).filter (ptPinned s)).length

/-- CMD PIN (R102): fills the entry first; a fifth pin of a set is refused with PIN_FULL. -/
def ptPin (i : Nat) (s : State) : State :=
  if ptPinned s i then s
  else if 4 ≤ ptPinsInSet s i then recErr .ptab 0x104 s
  else
    let s1 := if (ptLine s i).isSome then s else ptFill i s
    match ptLine s1 i with
    | some l => putLine i (some { l with pinned := true }) s1
    | none => s1

/-- CMD UNPIN (R104). -/
def ptUnpin (i : Nat) (s : State) : State :=
  match ptLine s i with
  | some l => putLine i (some { l with pinned := false }) s
  | none => s

/-- A write of `CMD` (R104): RESTORE_ACTIVE while restoring, BAD_OPCODE, INDEX_RANGE, or the operation starts.  RESTORED stays as it
is at the start of a RESTORE: R118 says only what sets it (DESIGN CHOICE, log 160). -/
def ptCmd (v : Word) (s : State) : State :=
  let op := fld v 31 28
  let i := fld v 13 0
  if restoring s then recErr .ptab 0x106 s
  else if op = 0 ∨ 6 < op then recErr .ptab 0x107 s
  else if (op = 3 ∨ op = 4 ∨ op = 5) ∧ ptCount ≤ i then recErr .ptab 0x100 s
  else match op with
    | 1 => setRegB .ptab 0x048 0 true s
    | 2 => setRegB .ptab 0x048 2 true (ptWriteBackAll s)
    | 3 => setRegB .ptab 0x048 2 true (ptWriteBack i s)
    | 4 => ptPin i s
    | 5 => ptUnpin i s
    | _ => setRegB .ptab 0x048 3 true s

/-- The word of a CMD. -/
def ptCmdWord (op : Nat) (i : Fin 16384) : Word := word (op * 2 ^ 28 + i.val)

/-- `RESTORE` starts (R118). -/
def execRestore (ini : Ini) (s : State) : Out := done s (admitWrite ini .ptab 0x054 (ptCmdWord 1 0) (ptCmd (ptCmdWord 1 0)) s)
/-- `FLUSH_ALL`. -/
def execFlushAll (ini : Ini) (s : State) : Out := done s (admitWrite ini .ptab 0x054 (ptCmdWord 2 0) (ptCmd (ptCmdWord 2 0)) s)
/-- `FLUSH`. -/
def execFlush (ini : Ini) (i : Fin 16384) (s : State) : Out := done s (admitWrite ini .ptab 0x054 (ptCmdWord 3 i) (ptCmd (ptCmdWord 3 i)) s)
/-- `PIN`. -/
def execPin (ini : Ini) (i : Fin 16384) (s : State) : Out := done s (admitWrite ini .ptab 0x054 (ptCmdWord 4 i) (ptCmd (ptCmdWord 4 i)) s)
/-- `UNPIN`. -/
def execUnpin (ini : Ini) (i : Fin 16384) (s : State) : Out := done s (admitWrite ini .ptab 0x054 (ptCmdWord 5 i) (ptCmd (ptCmdWord 5 i)) s)
/-- `CKPT_ALL` starts (R119). -/
def execCkptAll (ini : Ini) (s : State) : Out := done s (admitWrite ini .ptab 0x054 (ptCmdWord 6 0) (ptCmd (ptCmdWord 6 0)) s)

/-- `FLUSH_DONE`: a flush completes (R115). -/
def execFlushDone (s : State) : Out :=
  done s (if regB s .ptab 0x048 2 then raiseIrq .ptab 3 (setRegB .ptab 0x048 2 false s) else s)

/-! ### Checkpoint -/

/-- The checkpoint slot of an index (R116). -/
def ckptAddr (i : Nat) : Nat := 0x20140000 + 128 * i

/-- Copies a configuration half of the table to its checkpoint slot (R119). -/
def ckptCopy (i : Nat) (s : State) : State := memWriteWords (ckptAddr i) (memWords s (ptAddr s i) 32) s

/-- A changed half joins the checkpoint queue while CKPT_EN is 1; with 16 copies queued it waits, and the write port
that made it stays BUSY (R116). -/
def ckptQueue (port i : Nat) (c : List Word) (s : State) : State :=
  if !regB s .ptab 0x044 0 then s
  else if s.ptab.ckptQ.length < 16 then { s with ptab := { s.ptab with ckptQ := s.ptab.ckptQ ++ [(i, c)] } }
  else { s with ptab := { s.ptab with wait := s.ptab.wait ++ [(port, i, c)] } }

/-- A commit ends with DONE: WP_DONE rises (R105). -/
def wpDone (i : Fin 10) (s : State) : State := raiseIrq .ptab 0 (setRegI .ptab 0x06C i 2 s)

/-- A commit ends with REFUSED: WP_DONE rises (R105). -/
def wpRefused (i : Fin 10) (code : Nat) (s : State) : State :=
  raiseIrq .ptab 0 (setRegI .ptab 0x06C i 4 (recErr .ptab code s))

/-- The copy at the head of the queue ends: the half as it was committed is in its slot; a lasting failure records CKPT_FAIL and
an event record (R116).  As every record of a page about a failed MRAM write does (CKPT_FAIL, PERSIST_FAIL, WRITE_FAIL), it
carries the page's own tile, not the place in the MRAM (DESIGN CHOICE, log 124: R599 could mean either). -/
def ckptCopyDone (r : CopyResult) (s : State) : State :=
  match s.ptab.ckptQ with
  | [] => s
  | (i, c) :: rest =>
    let s1 := match r with
      | .failed => evrOffer .ptab 0x0104 (leBytes 2 i) (recErr .ptab 0x108 s)
      | .okOnRetry => noteTransient .ptab (memWriteWords (ckptAddr i) c s)
      | .ok => memWriteWords (ckptAddr i) c s
    match s.ptab.wait with
    | [] => { s1 with ptab := { s1.ptab with ckptQ := rest } }
    | (port, j) :: ws =>
      let s2 := { s1 with ptab := { s1.ptab with ckptQ := rest ++ [j], wait := ws } }
      if port = 0 then s2 else wpDone (Fin.ofNat 10 (port - 1)) s2

/-- `CKPT_COPY_DONE`. -/
def execCkptCopyDone (r : CopyResult) (s : State) : Out := done s (ckptCopyDone r s)

/-- Completes every queued copy (R117, R121). -/
def ckptDrain : Nat → State → State
  | 0, s => s
  | k + 1, s => ckptDrain k (ckptCopyDone .ok s)

/-- `CKPT_ALL_DONE`: every configuration half has been copied, and CKPT_BUSY clears (R119). -/
def execCkptAllDone (s : State) : Out :=
  done s (if regB s .ptab 0x048 3 then setRegB .ptab 0x048 3 false (forEach ckptCopy (List.range ptCount) s) else s)

/-! ### Configuration halves -/

/-- CFG_GEN counts a commit (R95). -/
def ptGen (i : Nat) (s : State) : State :=
  ptPokeF i 46 31 16 ((fld (ptWord s i 46) 31 16 + 1) % 65536) s

/-- Writes a configuration half: DRAM, and the cached half where the entry is cached (R107). -/
def ptPutHalf (i : Nat) (c : List Word) (s : State) : State :=
  let s1 := memWriteWords (ptAddr s i) c s
  match ptLine s1 i with
  | some l => putLine i (some { l with words := c ++ l.words.drop 32 }) s1
  | none => s1

/-- The merged half of a commit: `WP_MASK` selects the words of `WP_DATA` (R107); bits 6 and 0 of PRIO_MASK read as 1
(R94). -/
def wpMerged (s : State) (ini : Fin 10) (i : Nat) : List Word :=
  let mask := regI s .ptab 0x064 ini
  let old := ptHalf s i
  (List.range 32).map fun n =>
    let w := if bit mask n then regI s .ptab (0x100 + 4 * n) ini else wordAt old n
    if n = 4 then w ||| 0x4100 else w

/-- A commit changes the identity: PT_KIND and offsets 0x04-0x0F (R108). -/
def cfgIdentityDiffers (a b : List Word) : Bool :=
  cfgKind a != cfgKind b || wordAt a 1 != wordAt b 1 || wordAt a 2 != wordAt b 2 || wordAt a 3 != wordAt b 3

/-- A commit of the write port (R107-R109, R117): the index that was changed, and the state.  Nothing is changed where
it is refused.  A commit refused with BUSY_QUIESCED sets neither WP_STAT.REFUSED nor WP_DONE: the bus error tells it (DESIGN CHOICE,
log 161). -/
def wpCommit (ini : Ini) (s : State) : Option Nat × State :=
  let i := (regI s .ptab 0x060 ini.id).toNat
  if restoring s then (none, recErr .ptab 0x106 s)
  else if bit (regI s .ptab 0x06C ini.id) 0 then (none, recErr .ptab 0x103 s)
  else if regB s .pwr 0x044 31 then (none, answer (.err .busyQuiesced) (recErr .ptab errBusyQuiesced s))
  else if ptCount ≤ i then (none, wpRefused ini.id 0x100 s)
  else
    let old := ptHalf s i
    let c := wpMerged s ini.id i
    if !cfgValid c then (none, wpRefused ini.id 0x101 s)
    else if cfgEn old && cfgIdentityDiffers old c then (none, wpRefused ini.id 0x102 s)
    else
      let full := regB s .ptab 0x044 0 && decide (16 ≤ s.ptab.ckptQ.length)
      let s1 := ckptQueue (ini.id.val + 1) i c (ptCheck i (ptGen i (ptPutHalf i c s)))
      (some i, if full then setRegI .ptab 0x06C ini.id 1 s1 else wpDone ini.id s1)

/-- A write of a port register while that port is BUSY, or while restoring (R106). -/
def wpRegWrite (ini : Ini) (off : Nat) (v : Word) (s : State) : State :=
  if restoring s then recErr .ptab 0x106 s
  else if bit (regI s .ptab 0x06C ini.id) 0 then recErr .ptab 0x103 s
  else plainWrite ini .ptab off v s

/-- A write of `INVAL` (R113): the index that was reloaded, and the state. -/
def ptInval (v : Word) (s : State) : Option Nat × State :=
  let i := fld v 13 0
  if restoring s then (none, recErr .ptab 0x106 s)
  else if ptCount ≤ i then (none, recErr .ptab 0x100 s)
  else
    let c := memWords s (ptAddr s i) 32
    let s1 := match ptLine s i with
      | some l => putLine i (some { l with words := c ++ l.words.drop 32 }) s
      | none => s
    (some i, ckptQueue 0 i c (ptGen i (ptCheck i s1)))

/-- A write of `RD_INDEX` takes a snapshot (R111). -/
def ptSnapshot (ini : Ini) (v : Word) (s : State) : State :=
  let i := fld v 13 0
  if restoring s then recErr .ptab 0x106 s
  else if ptCount ≤ i then recErr .ptab 0x100 s
  else
    let cached := (ptLine s i).isSome
    let s1 := forEach (fun n t => setRegI .ptab (0x200 + 4 * n) ini.id (ptShown s i n) t) (List.range 64) s
    raiseIrq .ptab 1 (setRegI .ptab 0x074 ini.id (word (2 + 4 * b01 cached)) s1)

/-- `RD_INDEX`. -/
def execRdIndex (ini : Ini) (v : Word) (s : State) : Out := done s (admitWrite ini .ptab 0x070 v (ptSnapshot ini v) s)

/-- RESTORE of one entry (R118): the checkpoint's half, and a state half of zero but UNVERIFIED, CONF 0xFF and
CFG_BAD. -/
def restoreOne (i : Nat) (s : State) : State :=
  let c := memWords s (ckptAddr i) 32
  let bad := !cfgValid c
  let st := (List.range 32).map fun n =>
    if n = 4 then (0x80 : Word) else if n = 7 then 0xFF000000 else if n = 14 then word (b01 bad) else 0
  let s0 := { s with ptab := { s.ptab with known := spPut (fun _ => []) i c s.ptab.known } }
  let s1 := memWriteWords (ptAddr s i) (c ++ st) s0
  if bad then raiseIrq .ptab 4 s1 else s1

/-- RESTORE completes (R118). -/
def ptRestore (s : State) : State :=
  let s1 := forEach restoreOne (List.range ptCount) (ptEmpty s)
  raiseIrq .ptab 2 (setRegB .ptab 0x048 1 true (setRegB .ptab 0x048 0 false s1))

/-- The registers of PTAB whose reads are computed. -/
def ptabView (s : State) (off : Nat) : Option Word :=
  if off = 0x05C then some (word ((ptCached s).filter (ptPinned s)).length) else none

/-- Accepted work of PTAB: queued copies, a flush, a restore (R120). -/
def ptabBusy (s : State) : Bool :=
  !s.ptab.ckptQ.isEmpty || !s.ptab.wait.isEmpty || regF s .ptab 0x048 3 2 != 0 || restoring s

/-- A block reset of reach DATAPATH (R121): dirty halves go back, the queue is drained, then cache, pins and ports
clear. -/
def ptabDatapath (s : State) : State :=
  let s1 := ptEmpty (ptWriteBackAll (ckptDrain (s.ptab.ckptQ.length + s.ptab.wait.length) s))
  let s2 := { s1 with regs := s1.regs.filter fun r => !(decide (2 ^ 32 ≤ r.1) && decide (r.1 % 2 ^ 32 / 0x1000 = 0x40020)) }
  setRegF .ptab 0x048 3 2 0 (setRegB .ptab 0x048 0 false s2)

/-- A mirrored configuration half of the twin takes the path of a commit, checkpoint included (R91, R119). -/
def ptMirrorHalf (i : Nat) (c : List Word) (s : State) : State := ckptQueue 0 i c (ptCheck i (ptGen i (ptPutHalf i c s)))

/-- A mirrored state half is written whole (R14, R469). -/
def ptMirrorState (i : Nat) (st : List Word) (s : State) : State :=
  match ptLine s i with
  | some l => putLine i (some { l with words := l.words.take 32 ++ st, dirty := true }) s
  | none => memWriteWords (ptAddr s i + 128) st s

end Sys2Proof.Machine
end

