-- ==== Sys2Proof/Machine/AttrCore.lean ====
section
/-! DEFINITION. The attribution rounds as DIM and DIAG see them: coded points, invalidation, masking, voiding
(R338, R344-R346); DIAG's points as DIM sees them (R288, R306). -/
namespace Sys2Proof.Machine

/-- A circuit's round. -/
def attrRound (s : State) (c : Nat) : AttrRound := spGet (fun _ => {}) s.attr.rounds c

/-- Sets a circuit's round. -/
def putRound (c : Nat) (r : AttrRound) (s : State) : State :=
  { s with attr := { s.attr with rounds := spPut (fun _ => {}) c r s.attr.rounds } }

/-- The chip step in force at a point (R342). -/
def attrChip (s : State) (i : Nat) : Int := spGet (fun _ => 0) s.attr.chips i

/-- Sets the chip step of a point. -/
def putChip (i : Nat) (d : Int) (s : State) : State := { s with attr := { s.attr with chips := spPut (fun _ => 0) i d s.attr.chips } }

/-- A round is selected or coding. -/
def attrRunning (r : AttrRound) : Bool := r.state == 1 || r.state == 2

/-- The lantern of a round that codes a point. -/
def attrLanOf (r : AttrRound) (i : Nat) : Option AttrLan :=
  if attrRunning r then r.lans.find? fun l => l.point == i && l.inval.isNone else none

/-- The circuit on which a point is coded now. -/
def attrCoded (s : State) (i : Nat) : Option Nat := (List.range 24).find? fun c => (attrLanOf (attrRound s c) i).isSome

/-- The correlator has the level of a point in its hands: the point is coded, and its first chip has been handed over (R342). -/
def attrHolds (s : State) (i : Nat) : Bool :=
  match attrCoded s i with
  | some c => (attrRound s c).state == 2 || decide (0 < (attrRound s c).next)
  | none => false

/-- Chip levels of points that DIM has not handed over yet are not sent any more (R345). -/
def attrUnoffer (pts : List Nat) (s : State) : State :=
  { s with dim := { s.dim with offers := s.dim.offers.filter fun o => !(o.chip && pts.contains o.point) } }

/-- CIRCUIT of a configuration half. -/
def cfgCircuit (c : List Word) : Nat := fld (wordAt c 12) 7 0
/-- PHASE. -/
def cfgPhase (c : List Word) : Nat := fld (wordAt c 12) 9 8

/-- Where an evaluation joins the queue: Mirage's are taken ahead of every other, in their order (R267). -/
def dimInsert (e : DimEval) (q : List DimEval) : List DimEval :=
  if e.mir then q.takeWhile (·.mir) ++ e :: q.dropWhile (·.mir) else q ++ [e]

/-- How many evaluations the entries of a queue hold. -/
def evalsIn (q : List DimEval) : Nat := (q.map fun e => e.points.length).sum

/-- DIM queues up to 4,096 evaluations; what comes beyond waits behind them (R235). -/
def dimFull (s : State) : Bool := decide (4096 ≤ evalsIn s.dim.queue)

/-- BACKLOG while the queue is full (R235, R239). -/
def dimBacklog (s : State) : State := levelIrq .dim 3 (dimFull s) s

/-- Queues an evaluation of points in DIM (R224), and BACKLOG rises where that fills the queue (R239); a disabled DIM evaluates
nothing, and evaluates every lantern point when it is enabled again (R631), so it keeps only the forced ones. -/
def dimQueue (e : DimEval) (s : State) : State :=
  if enabled s .dim || e.kind != 0 then dimBacklog { s with dim := { s.dim with queue := dimInsert e s.dim.queue } } else s

/-- The whole milliseconds of S on the action-time count. -/
def attrMs (r : AttrRound) : Nat := r.s * 1000 % 2 ^ 32

/-- A lantern leaves the code (R345): CODING clears, LAST_INV and INV_N are kept in its round state. -/
def attrUncode (i cause : Nat) (s : State) : State :=
  let s1 := engPokeF .attr i 48 3 0 (cause % 8) s
  let n := ptWord s1 i 51
  putChip i 0 (engPoke .attr i 51 (setFld n 15 0 (satInc 65535 (fld n 15 0))) s1)

/-- A coded lantern is invalidated by a cause: 1 PRIO, 2 BASE, 3 NODE, 4 CFG (R345).  After BASE and CFG it receives its
uncoded level, due at once. -/
def attrInvalidate (i cause : Nat) (s : State) : State :=
  match attrCoded s i with
  | none => s
  | some c =>
    let r := attrRound s c
    let chip := (actDiff (nowMs s) (attrMs r)).toNat / 2000
    let lans := r.lans.map fun l => if l.point = i ∧ l.inval = none then { l with inval := some (cause, chip) } else l
    let s1 := raiseIrq .attr 1 (bumpReg .attr 0x054 (attrUncode i cause (attrUnoffer [i] (putRound c { r with lans := lans } s))))
    if cause = 2 ∨ cause = 4 then dimQueue { points := [i], kind := 3 } s1 else s1

/-- A round that can still be void: selected, coding or solving (R346). -/
def attrOpen (r : AttrRound) : Bool := attrRunning r || r.state == 3

/-- The round of a circuit is void with a cause (R346): 1 NOISY, 2 TIME, 3 CIRCUIT, 4 ABORT, 5 MODE, 6 RESET.  Its lanterns receive their
uncoded level; of a round that is being solved they have it already, and the result view shows the last completed round again (DESIGN
CHOICE, log 174). -/
def attrVoid (c cause : Nat) (s : State) : State :=
  let r := attrRound s c
  if !attrOpen r then s
  else
    let pts := (r.lans.filter fun l => l.inval.isNone).map (·.point)
    let s1 := forEach (fun i t => putChip i 0 (engPokeF .attr i 48 3 3 0 t)) pts s
    let s2 := raiseIrq .attr 2 (bumpRegF .attr 0x050 31 16 (putRound c { state := 4, cause := cause, lans := [] } (attrUnoffer pts s1)))
    if r.state = 3 then (if reg s .attr 0x100 = 0 then s2 else setRegB .attr 0x104 0 true s2)
    else if pts.isEmpty then s2 else dimQueue { points := pts, kind := 3 } s2

/-- Voids every round. -/
def attrVoidAll (cause : Nat) (s : State) : State := forEach (fun c t => attrVoid c cause t) (List.range 24) s

/-- A chip of a slot is masked. -/
def attrMasked (r : AttrRound) (slot n : Nat) : Bool := spGet (fun _ => false) r.mask (slot * 64 + n)

/-- A chip of a slot is lost: masked by a command (R344), or with fewer than five windows left when its windows have all been published
(R343). -/
def chipLost (r : AttrRound) (slot n : Nat) : Bool :=
  attrMasked r slot n || (decide (n < r.heard) && decide ((spGet (fun _ => ((0 : Int), 0)) r.sums (slot * 64 + n)).2 < 5))

/-- How many chips of a slot are lost. -/
def chipsLost (r : AttrRound) (slot : Nat) : Nat := ((List.range 63).filter (chipLost r slot)).length

/-- The most chips lost on a slot of some lanterns. -/
def lostMost (r : AttrRound) (lans : List AttrLan) : Nat := listMax (lans.map fun l => chipsLost r l.slot)

/-- The round is void where more than MASK_MAX chips are masked on a slot with a coded lantern (R346). -/
def attrNoisy (c : Nat) (s : State) : State :=
  let r := attrRound s c
  if attrRunning r && decide (regF s .attr 0x040 15 8 < lostMost r (r.lans.filter fun l => l.inval.isNone)) then attrVoid c 1 s else s

/-- The measured span of chip n of a round overlaps [A, A + ramp + 200 ms] (R343, R344). -/
def attrOverlaps (r : AttrRound) (act ramp n : Nat) : Bool :=
  let d := actDiff act (attrMs r)
  let a : Int := 2000 * n + 200
  let b : Int := 2000 * (n + 1)
  decide (d < b) && decide (a ≤ d + ramp + 200)

/-- DIM's notice of a command for an uncoded point (R344): the touched chips are masked, and too many void the round. -/
def attrNotice (i act ramp : Nat) (s : State) : State :=
  let c := cfgCircuit (ptHalf s i)
  let slot := cfgPhase (ptHalf s i)
  let r := attrRound s c
  if !decide (c < 24) || !attrRunning r || (attrCoded s i).isSome then s
  else
    let mask := ((List.range 63).filter (attrOverlaps r act ramp)).foldl (fun m n => spPut (fun _ => false) (slot * 64 + n) true m) r.mask
    attrNoisy c (putRound c { r with mask := mask } s)

/-! ### DIAG's points, as DIM sees them -/

/-- A point in DIAG's work area. -/
def diagPt (s : State) (i : Nat) : DiagPt := spGet (fun _ => {}) s.diag.pts i

/-- The first 16 bytes of a point's work area (R306). -/
def diagBytes (t : DiagPt) : List Byte :=
  leBytes 4 (t.vref * 65536 + t.vcount * 256 + (t.sus.map fun u => 2 ^ u.flag).foldl (· ||| ·) 0) ++ leBytes 4 t.proofAt
    ++ leBytes 4 t.acc ++ leBytes 4 (t.clean * 2 ^ 24 + min 65535 t.obs)

/-- Sets a point, in the work area too (R306). -/
def putDiag (i : Nat) (t : DiagPt) (s : State) : State :=
  memWrite (regN s .diag 0x04C + 32 * i) (diagBytes t) { s with diag := { s.diag with pts := spPut (fun _ => {}) i t s.diag.pts } }

/-- Abandons the suspicions that a test names. -/
def dropSus (i : Nat) (p : Suspicion → Bool) (s : State) : State :=
  if (diagPt s i).sus.any p then putDiag i { diagPt s i with sus := (diagPt s i).sus.filter fun u => !p u } s else s

/-- OPEN, SHORT and PARTIAL, which need a measurement. -/
def measFlag (f : Nat) : Bool := decide (f ≤ 2)

/-- CUR_LEVEL. -/
def curLevel (s : State) (i : Nat) : Nat := fld (ptWord s i 32) 15 0

/-- CUR_LEVEL of a point has fallen to 0: its suspicions of OPEN, SHORT and PARTIAL are abandoned (R288). -/
def diagDark (i : Nat) (s : State) : State := dropSus i (fun u => measFlag u.flag) s

end Sys2Proof.Machine
end

