-- ==== Sys2Proof/Machine/DimCore.lean ====
section
/-! DEFINITION. The dimming engine: request table, final level, commands, revocation (R214-R233, R236). -/
namespace Sys2Proof.Machine

/-! ### The request table -/

/-- `WORK_BASE` of DIM (R236). -/
def dimWork (s : State) : Nat := regN s .dim 0x048

/-- A request in a slot (R216, R236). -/
structure Req where
  valid : Bool := false
  acted : Bool := false
  urgent : Bool := false
  step : Bool := false
  hasRel : Bool := false
  level : Nat := 0
  act : Nat := 0
  rel : Nat := 0
  cct : Nat := 0
  /-- The model's identity of the request: two posts are two requests (R216). -/
  id : Nat := 0
deriving DecidableEq, Repr

/-- A point in DIM. -/
def dimPt (s : State) (i : Nat) : DimPt := spGet (fun _ => {}) s.dim.pts i

/-- Sets a point in DIM. -/
def putDimPt (i : Nat) (t : DimPt) (s : State) : State := { s with dim := { s.dim with pts := spPut (fun _ => {}) i t s.dim.pts } }

/-- Where slot p of a point lies (R236). -/
def reqAddr (s : State) (i p : Nat) : Nat := dimWork s + 128 * i + 16 * p

/-- The request in slot p of a point. -/
def reqOf (s : State) (i p : Nat) : Req :=
  let w := mem32 s (reqAddr s i p)
  { valid := bit w 31, acted := bit w 30, urgent := bit w 29, step := bit w 28, hasRel := bit w 23, level := fld w 15 0
    act := memNat s (reqAddr s i p + 4) 4, rel := memNat s (reqAddr s i p + 8) 4
    cct := memNat s (reqAddr s i p + 14) 2, id := spGet (fun _ => 0) (dimPt s i).ids p }

/-- The bytes of a request in the table (R236). -/
def reqBytes (r : Req) : List Byte :=
  leBytes 4 (b01 r.valid * 2 ^ 31 + b01 r.acted * 2 ^ 30 + b01 r.urgent * 2 ^ 29 + b01 r.step * 2 ^ 28 + b01 r.hasRel * 2 ^ 23
    + r.level) ++ leBytes 4 r.act ++ leBytes 4 r.rel ++ leBytes 4 (r.cct * 65536)

/-- Puts a request in a slot; the slot is mirrored (R469). -/
def putReq (i p : Nat) (r : Req) (s : State) : State :=
  let s1 := pointTell i (fun k => .request k (Fin.ofNat 8 p) (reqBytes r)) (memWrite (reqAddr s i p) (reqBytes r) s)
  putDimPt i { dimPt s1 i with ids := spPut (fun _ => 0) p r.id (dimPt s1 i).ids } s1

/-- Empties a slot. -/
def dropReq (i p : Nat) (s : State) : State := putReq i p {} s

/-- The base hours of a point (R220, R236). -/
def baseHours (s : State) (i : Nat) : Nat := memNat s (dimWork s + 128 * i) 4

/-- The request slots, highest priority first. -/
def prios : List Nat := [7, 6, 5, 4, 3, 2, 1]

/-- A request is in effect at an instant: acted or due, and not released (R216, R217). -/
def reqInEffect (r : Req) (t : Nat) : Bool := r.valid && (r.acted || isDue r.act t) && !(r.hasRel && isDue r.rel t)

/-- The point's kind is LANTERN_LINE or LANTERN_RADIO (R214). -/
def isLantern (c : List Word) : Bool := cfgKind c == kindLine || cfgKind c == kindRadio

/-- A priority is admitted by PRIO_MASK (R218). -/
def admits (c : List Word) (p : Nat) : Bool := (cfgPrioMask c).testBit p

/-- FAILSAFE of a configuration half. -/
def cfgFailsafe (c : List Word) : Nat := fld (wordAt c 4) 31 16

/-- Arbitration (R219 step 1): the winning priority and request; FAILSAFE is always active (R215). -/
def dimWinner (s : State) (i : Nat) (c : List Word) (t : Nat) : Nat × Req :=
  match prios.find? fun p => admits c p && reqInEffect (reqOf s i p) t with
  | some p => (p, reqOf s i p)
  | none => (0, { valid := true, acted := true, level := cfgFailsafe c })

/-- A request that caused what is in force or pending at a point. -/
def dimGoverned (t : DimPt) (id : Nat) : Bool := id == t.force.2.2 || id == t.before.2.2 || t.pend.any fun p => p.cause == id

/-- The request of a slot ends at an instant: the slot empties, and what ended is remembered while it may govern a change (R216,
R232). -/
def endReq (i p at' : Nat) (s : State) : State :=
  let r := reqOf s i p
  let s1 := dropReq i p s
  let t := dimPt s1 i
  putDimPt i { t with ended := (t.ended.filter fun x => dimGoverned t x.1) ++ [(r.id, at', r.urgent)] } s1

/-- Marks one slot's request as ACTED, or empties the slot, where a test says that the time has come (R216, R217). -/
def dimMarkSlot (due : Nat → Bool) (i p : Nat) (s : State) : State :=
  let r := reqOf s i p
  if !r.valid then s
  else if r.hasRel && due r.rel then endReq i p r.rel s
  else if !r.acted && due r.act then putReq i p { r with acted := true } s
  else s

/-- Marks the requests that are due as ACTED, and empties the slots whose release is due (R216, R217). -/
def dimMark (i : Nat) (s : State) : State := forEach (dimMarkSlot (fun a => isDue a (nowMs s)) i) prios s

/-! ### The final level -/

/-- An entry of a CLO curve: HOURS and factor (R220). -/
def cloEntry (s : State) (c k : Nat) : Nat × Nat :=
  let w := reg s .dim (0x800 + 0x40 * c + 4 * k)
  (fld w 31 16, fld w 15 0)

/-- The factor of a curve at H hours, walking entries from the first; and whether the curve ends out of order. -/
def cloWalk (s : State) (c h : Nat) : Nat → Nat → Nat → Nat × Bool
  | 0, _, f => (f, false)
  | n + 1, prev, f =>
    let (hours, x) := cloEntry s c (16 - (n + 1))
    if hours = 0xFFFF then (f, false)
    else if hours < prev then (f, true)
    else cloWalk s c h n hours (if hours * 100 ≤ h then x else f)

/-- The CLO factor of a point and whether CLO_ORDER is to be recorded (R220). -/
def cloFactor (s : State) (i : Nat) (c : List Word) : Nat × Bool :=
  cloWalk s (fld (wordAt c 7) 7 0) (baseHours s i + (ptWord s i 42).toNat / 3600) 16 0 0x8000

/-- CLO applies to the point (R219 step 2). -/
def cloApplies (c : List Word) : Bool := bit (wordAt c 0) 8 && fld (wordAt c 7) 7 0 != 0xFF

/-- BOARD_T of a point, signed, 0.1 °C. -/
def ptBoardT (s : State) (i : Nat) : Int := signed 16 (fld (ptWord s i 35) 15 0)

/-- The thermal cap (R223). -/
def thermCap (s : State) (i : Nat) (c : List Word) : Nat :=
  let knee : Int := 10 * (fld (wordAt c 7) 15 8 : Nat)
  let t := ptBoardT s i
  if bit (wordAt c 0) 9 && regB s .dim 0x040 0 && decide (knee < t) then
    (65535 - (fld (wordAt c 7) 31 16 : Nat) * (t - knee) / 10 : Int).toNat
  else 65535

/-- The light-level trim is applied: the loop runs, LOOP_EN, and no winner above ADAPT (R221). -/
def trimApplies (s : State) (i p : Nat) (c : List Word) : Bool :=
  bit (wordAt c 0) 13 && regB s .dim 0x040 1 && (dimPt s i).loop && decide (p ≤ 3)

/-- The final level of a winner (R219), and the direction in which step 5 clamped. -/
def dimLevel (s : State) (i : Nat) (c : List Word) (p : Nat) (r : Req) : Nat × Int :=
  if r.level = 0 ∨ p = 7 then (r.level, 0)
  else
    let l1 := if cloApplies c then min 65535 (r.level * (cloFactor s i c).1 / 32768) else r.level
    let l2 := if trimApplies s i p c then (clampInt 0 65535 (l1 + (dimPt s i).trim)).toNat else l1
    let l3 := min l2 (thermCap s i c)
    let lo := fld (wordAt c 5) 15 0
    let hi := fld (wordAt c 5) 31 16
    (min hi (max lo l3), if hi < l3 then 1 else if l3 < lo then -1 else 0)

/-- What a point should do from an instant on. -/
structure Want where
  level : Nat
  prio : Nat
  id : Nat
  step : Bool
  urgent : Bool
  cct : Nat
  act : Nat
  dir : Int
deriving DecidableEq, Repr

/-- The final level for an instant, without a chip step. -/
def dimFinal (s : State) (i t : Nat) : Want :=
  let c := ptHalf s i
  let (p, r) := dimWinner s i c t
  let (l, d) := dimLevel s i c p r
  { level := l, prio := p, id := r.id, step := r.step, urgent := r.urgent, cct := r.cct, act := t, dir := d }

/-- The level that goes to the node: the chip step is applied after step 5 (R342). -/
def withChip (s : State) (i : Nat) (w : Want) : Want :=
  { w with level := (clampInt 0 65535 (w.level + attrChip s i)).toNat }

/-- The future instants at which a point's requests act or end. -/
def dimInstants (s : State) (i : Nat) : List Nat :=
  let now := nowMs s
  prios.flatMap fun p =>
    let r := reqOf s i p
    if !r.valid then []
    else (if !r.acted && !isDue r.act now then [r.act] else []) ++ (if r.hasRel && !isDue r.rel now then [r.rel] else [])

/-- The earliest of a list of instants, seen from an instant. -/
def earliest (now : Nat) : List Nat → Option Nat
  | [] => none
  | a :: l =>
    match earliest now l with
    | none => some a
    | some b => if actDiff a now ≤ actDiff b now then some a else some b

/-- A change of the winning request, or to or from 0 (R224). -/
def winChanged (base : Nat × Nat × Nat) (w : Want) : Bool := w.id != base.2.2 || (w.level == 0) != (base.1 == 0)

/-- A change of the level that calls for a command: any for a forced evaluation, else beyond DEADBAND (R224). -/
def levelChanged (s : State) (kind last : Nat) (w : Want) : Bool :=
  if kind = 0 then decide (regF s .dim 0x040 31 16 < (if last ≤ w.level then w.level - last else last - w.level)) else w.level != last

/-- What causes a change that is in effect now, from the base it changes: its action time, and whether the request that causes it
is URGENT (R225, R227).  A winner at or above the base came by its own action time; a lower one governs since the base ended;
limits, CLO, the loop, the temperature and a commit act at the present ACT_MS, and no request causes their changes. -/
def changeNow (s : State) (kind : Nat) (base : Nat × Nat × Nat) (i : Nat) (w : Want) : Nat × Bool :=
  if kind = 1 || w.id == base.2.2 then (nowMs s, false)
  else if base.2.1 ≤ w.prio ∧ w.id ≠ 0 then ((reqOf s i w.prio).act, w.urgent)
  else match (dimPt s i).ended.find? fun x => x.1 == base.2.2 with
    | some x => x.2
    | none => (nowMs s, false)

/-- Whether the request that causes a change at a future instant is URGENT: the one that acts then, or the one that ends
(R227). -/
def changeLater (s : State) (base : Nat × Nat × Nat) (i : Nat) (w : Want) : Bool :=
  let old := reqOf s i base.2.1
  if w.id = base.2.2 then false
  else if w.id ≠ 0 ∧ (reqOf s i w.prio).act = w.act then w.urgent
  else old.id == base.2.2 && old.hasRel && old.rel == w.act && old.urgent

/-- The request that wins has changed: what a change from limits, CLO, the loop or the temperature never does (R226). -/
def reqChanged (base : Nat × Nat × Nat) (w : Want) : Bool := w.id != base.2.2

/-- A command awaits the answer to its REVOKE though its action time has passed, and nothing but the level under it is wanted: what
the answer says is handed over then (R230). -/
def revokeOpen (t : DimPt) (w : Want) : Bool := t.pend.any fun p => p.passed && p.revoking && !p.failed && w.id == t.before.2.2

/-- The change DIM hands over now, if any (R224-R226): the uncoded level of a lantern that left its code is due at once (R345);
while a command is pending, a change that arises from limits, CLO, the loop or the temperature waits, to or from 0 too, and so does
what a revoked command's instant would bring (R230). -/
def dimDecide (s : State) (i kind : Nat) : Option Want :=
  let pt := dimPt s i
  let w0 := withChip s i (dimFinal s i (nowMs s))
  let at' := fun a => withChip s i (dimFinal s i a)
  let now := fun (_ : Unit) => let x := changeNow s kind pt.force i w0; some { w0 with act := x.1, urgent := x.2 }
  let later := fun base a => { at' a with urgent := changeLater s base i (at' a) }
  if kind = 2 || kind = 3 || pt.comp then some w0
  else if revokeOpen pt w0 then none
  else
    match pt.pend.filter fun p => !p.passed with
    | none =>
      if winChanged pt.force w0 || levelChanged s (if pt.forced then 1 else kind) pt.last w0 then now ()
      else (earliest (nowMs s) ((dimInstants s i).filter fun a => winChanged pt.force (at' a) || levelChanged s 0 pt.last (at' a))).map (later pt.force)
    | some p =>
      if reqChanged pt.force w0 then now ()
      else match earliest (nowMs s) ((dimInstants s i).filter fun a => decide (actDiff a p.act < 0) && reqChanged pt.force (at' a)) with
        | some a => some (later pt.force a)
        | none => if reqChanged (p.level, p.prio, p.cause) (at' p.act) && !p.revoking && !p.failed then some (later (p.level, p.prio, p.cause) p.act) else none

/-- LEVEL or LEVEL_STEP (R164). -/
def levelKind (op : Nat) : Bool := op == 1 || op == 2

/-- A command is urgent (R227). -/
def dimUrgent (s : State) (w : Want) (comp : Bool) : Bool := w.urgent || decide (regF s .dim 0x040 10 8 ≤ w.prio) || comp

/-- Offers a command; a level-kind command not yet handed over gives way to it. -/
def dimOffer (c : Cmd) (s : State) : State :=
  { s with dim := { s.dim with offers :=
    (s.dim.offers.filter fun o => !(o.point == c.point && levelKind o.op && levelKind c.op && o.members.isEmpty)) ++ [c] } }

/-- The command that carries a change (R225, R227, R231); the level of a coded lantern, and its uncoded level after its code, go as
LEVEL_STEP, and chip levels are never urgent (R342).  A lantern that is selected only holds no chip level yet. -/
def dimCmd (s : State) (i kind : Nat) (w : Want) : Cmd :=
  let comp := (dimPt s i).comp
  let coded := attrHolds s i
  { point := i, comp := comp, uncode := kind == 3, op := if !comp && (w.step || coded || kind == 3) then 2 else 1, arg := w.level, act := w.act
    urgent := !coded && dimUrgent s w comp, cause := w.id, prio := w.prio }

/-- Offers the command of a change; one that is handed ahead of the instant at which the winning priority changes is signalled before
it (R233). -/
def dimOfferChange (i kind : Nat) (w : Want) (s : State) : State :=
  let s1 := if w.prio != (dimPt s i).prio then attrInvalidate i 1 s else s
  dimOffer (dimCmd s1 i kind w) s1

/-- Whether a change that a commit forced waits after an evaluation (R224). -/
def dimForced (s : State) (i kind : Nat) (w0 : Want) : Bool :=
  (dimPt s i).pend.any (fun p => !p.passed) && ((dimPt s i).forced || (kind == 1 && w0.level != (dimPt s i).final))

/-- One evaluation of a point (R219, R224): the signals of R233 and the check of a coded base level go out before the
command is offered.  A point that stays coded receives its chip levels alone (R342). -/
def dimEvalPoint (kind i : Nat) (s : State) : State :=
  let s0 := bumpReg .dim 0x04C (ptSee i (dimMark i s))
  let c := ptHalf s0 i
  if !ptServed s0 i || !isLantern c then s0
  else
    let s1 := if cloApplies c && (cloFactor s0 i c).2 then recErr .dim 0x105 s0 else s0
    let w0 := dimFinal s1 i (nowMs s1)
    let s2 := if w0.prio != (dimPt s1 i).prio || (kind == 1 && w0.level != (dimPt s1 i).final) then attrInvalidate i 1 s1 else s1
    let s3 := match attrCoded s2 i with
      | none => s2
      | some k => match attrLanOf (attrRound s2 k) i with
        | none => s2
        | some l => if (attrRound s2 k).state == 2 && l.f != w0.level then attrInvalidate i 2 s2 else s2
    let d := dimDecide s3 i kind
    let s4 := putDimPt i { dimPt s3 i with clampDir := w0.dir, final := w0.level, prio := w0.prio, forced := dimForced s3 i kind w0 } s3
    if attrHolds s4 i && kind != 2 then s4
    else match d with
      | none => s4
      | some w => dimOfferChange i kind w s4

/-- The enabled LANTERN_RADIO points of a group (R229). -/
def radioMembers (s : State) (g : Nat) : List Nat :=
  (List.range ptCount).filter fun i => cfgGroup (ptHalf s i) == g && cfgKind (ptHalf s i) == kindRadio && ptServed s i

/-- One group command in place of the members' commands, where every enabled radio member receives the same final level
and action time (R229). -/
def dimMerge (g : Nat) (s : State) : State :=
  let ms := radioMembers s g
  match ms with
  | [] => s
  | m :: rest =>
    let mine := fun i => s.dim.offers.find? fun o => o.point == i && levelKind o.op && o.members.isEmpty
    match mine m with
    | none => s
    | some c =>
      let all := ms.filterMap mine
      if !rest.all (fun i => all.any fun o => o.point == i && o.op == c.op && o.arg == c.arg && o.act == c.act && o.comp == c.comp) then s
      else
        let keep := s.dim.offers.filter fun o => !(ms.contains o.point && levelKind o.op && o.members.isEmpty)
        let gc := { c with members := ms, group := some g, urgent := all.any (·.urgent), causes := all.map fun o => (o.point, o.cause, o.prio) }
        { s with dim := { s.dim with offers := keep ++ [gc] } }

/-- An entry of the evaluation queue. -/
def dimEval (e : DimEval) (s : State) : State :=
  let s1 := forEach (dimEvalPoint e.kind) e.points s
  match e.group with
  | none => s1
  | some g => dimMerge g s1

/-! ### What became of a command -/

/-- The ramp time in ms of a command (R225). -/
def rampMs (s : State) (i : Nat) (c : Cmd) : Nat :=
  let h := ptHalf s i
  let cur := fld (ptWord s i 32) 15 0
  let (d, rate) := if cur ≤ c.arg then (c.arg - cur, fld (wordAt h 6) 15 0) else (cur - c.arg, fld (wordAt h 6) 31 16)
  if c.op = 2 || rate = 0 then 0 else (d + rate - 1) / rate * 10

/-- The request that caused a command for a point, and its winning priority there (R228). -/
def cmdCause (c : Cmd) (i : Nat) : Nat × Nat :=
  match c.causes.find? fun x => x.1 == i with
  | some x => x.2
  | none => (c.cause, c.prio)

/-- A level-kind command has been handed over for a point (R226, R228); one before it that has passed may still be acknowledged.  A
compensating command is counted, not its retry after a block reset (R231, R42). -/
def dimHandedPt (c : Cmd) (i : Nat) (s : State) : State :=
  let pt := dimPt s i
  let k := cmdCause c i
  let s0 := if c.comp && !c.again then bumpReg .dim 0x054 s else s
  let old := pt.old ++ (pt.pend.filter (·.passed)).toList
  let s1 := engPokeF .dim i 32 31 16 c.arg s0
  let s2 := engPokeF .dim i 44 10 8 k.2 (engPokeF .dim i 44 4 4 1 s1)
  let s3 := engPoke .dim i 43 (word c.act) s2
  let s4 := putDimPt i { pt with last := c.arg, comp := pt.comp && !c.comp, forced := false, old := old, pend := some { level := c.arg, prio := k.2, cause := k.1, act := c.act, urgent := c.urgent, group := if c.members.isEmpty then none else c.group } } s3
  attrNotice i c.act (rampMs s i c) s4

/-- A command of DIM has been handed over (R228, R344). -/
def dimHanded (c : Cmd) (s : State) : State :=
  if levelKind c.op then forEach (dimHandedPt c) (if c.members.isEmpty then [c.point] else c.members) s
  else if c.op = 3 then attrNotice c.point c.act 0 s
  else s

/-- LSEQ or CRV reports the SEQ of a pending command (R196, R228). -/
def dimSeq (i cause seq : Nat) (s : State) : State :=
  let pt := dimPt s i
  match pt.pend with
  | none => s
  | some p => if p.cause = cause then engPokeF .dim i 44 3 0 seq (putDimPt i { pt with pend := some { p with seq := some seq } } s) else s

/-- CUR_LEVEL is the level of a command that acted (R228); a fall to 0 abandons the point's suspicions that need a measurement
(R288). -/
def dimReached (i l : Nat) (s : State) : State :=
  let s1 := engPokeF .dim i 32 15 0 l s
  if l = 0 then diagDark i s1 else s1

/-- The command is acknowledged and its action time has passed (R228): what was handed over before it no longer matters. -/
def dimSettle (i : Nat) (s : State) : State :=
  let pt := dimPt s i
  match pt.pend with
  | none => s
  | some p =>
    if p.acked && p.passed then dimReached i p.level (putDimPt i { pt with pend := none, old := [] } (engPokeF .dim i 44 4 4 0 s))
    else s

/-- The pending command counts as passed (R226): its level is the one in force, and the point is evaluated again; one that had failed
is pending no longer. -/
def dimPass (i : Nat) (s : State) : State :=
  let pt := dimPt s i
  match pt.pend with
  | none => s
  | some p =>
    if p.passed then s
    else dimQueue { points := [i] } (dimSettle i (putDimPt i { pt with
      before := pt.force, force := (p.level, p.prio, p.cause), pend := if p.failed then none else some { p with passed := true } } s))

/-- The action time of the pending command has passed (R226). -/
def dimPassed (i : Nat) (s : State) : State :=
  let pt := dimPt s i
  match pt.pend with
  | none => s
  | some p =>
    if isDue p.act (nowMs s) then dimPass i s else s

/-- A pending command, named by its request and its action time, was revoked without acting (R228): the level in force before it is the
target again, and the point is evaluated; where a newer command is pending by now, that one stands. -/
def dimDropped (cause act i : Nat) (s : State) : State :=
  let pt := dimPt s i
  match pt.pend.filter fun p => p.cause == cause && p.act == act with
  | none => dimQueue { points := [i] } s
  | some p =>
    let f := if p.passed then pt.before else pt.force
    let s1 := engPokeF .dim i 32 31 16 f.1 s
    let s2 := engPokeF .dim i 44 10 8 f.2.1 (engPokeF .dim i 44 4 4 0 s1)
    dimQueue { points := [i] } (putDimPt i { pt with pend := none, force := f, last := f.1 } s2)

/-- A REVOKE names a command: the request that caused it and its SEQ. -/
def revNames (c : Cmd) (p : DimPend) : Bool := p.cause == c.cause && p.seq == some c.arg

/-- The node acknowledged a REVOKE (R230): without REV_LATE the command it names is cancelled; with it the command had acted, and a
compensating command follows. -/
def dimRevAck (c : Cmd) (late : Bool) (i : Nat) (s : State) : State :=
  let pt := dimPt s i
  match late, pt.pend.filter (revNames c) with
  | false, some p => dimDropped p.cause p.act i s
  | false, none => dimQueue { points := [i] } (putDimPt i { pt with old := pt.old.filter fun p => !revNames c p } s)
  | true, x =>
    let t := match x with
      | some p => { pt with before := if p.passed then pt.before else pt.force, force := (p.level, p.prio, p.cause), pend := some { p with passed := true, revoking := false } }
      | none => pt
    dimQueue { points := [i] } (bumpRegF .dim 0x050 31 16 (putDimPt i { t with comp := true } s))

/-- A command that has been handed over for a point is the one that a pending entry stands for. -/
def pendIs (c : Cmd) (i : Nat) (p : DimPend) : Bool := p.cause == (cmdCause c i).1 && p.level == c.arg && p.act == c.act

/-- A level-kind command is acknowledged for a point (R228): the pending one, or an older one that had passed unacknowledged; the fields
of the pending one then stay. -/
def dimLevelAck (c : Cmd) (i : Nat) (s : State) : State :=
  let pt := dimPt s i
  match pt.pend.filter (pendIs c i), pt.old.find? (pendIs c i) with
  | some p, _ => dimSettle i (putDimPt i { pt with pend := some { p with acked := true } } s)
  | none, some p => dimReached i p.level (putDimPt i { pt with old := (pt.old.dropWhile fun o => !pendIs c i o).drop 1 } s)
  | none, none => s

/-- A command of DIM is acknowledged for a point (R228, R222). -/
def dimAck (c : Cmd) (late : Bool) (i : Nat) (s : State) : State :=
  if levelKind c.op then dimLevelAck c i s
  else if c.op = 3 then putDimPt i { dimPt s i with cct := some c.arg } s
  else if c.op = 4 then dimRevAck c late i s
  else s

/-- What a lasting failure leaves pending (R226): an acknowledged command still acts; another stays pending until its action time has
passed. -/
def pendFailed (p : DimPend) : Option DimPend :=
  if p.acked then some { p with revoking := false } else if p.passed then none else some { p with failed := true, revoking := false }

/-- A command failed lastingly (R228, R239): CMD_FAIL rises, PEND_VALID is 0 unless what is pending had been acknowledged; attribution
drops the lantern (R345). -/
def dimFailed (i : Nat) (s : State) : State :=
  let pt := dimPt s i
  let s1 := if pt.pend.any (·.acked) then s else engPokeF .dim i 44 4 4 0 s
  attrInvalidate i 3 (raiseIrq .dim 1 (putDimPt i { pt with pend := pt.pend.bind pendFailed, old := [] } s1))

/-- The recovery signal of R197: DIM hands over its current target again. -/
def dimRecover (i : Nat) (s : State) : State := dimQueue { points := [i], kind := 2 } s

/-! ### Requests -/

/-- Posts a request into a slot of a point (R216); an admitted one above SCHEDULE signals attribution (R233). -/
def dimPostPt (p : Nat) (r : Req) (i : Nat) (s : State) : State :=
  let s1 := putReq i p { r with valid := true, id := s.dim.nextId, acted := isDue r.act (nowMs s) } { s with dim := { s.dim with nextId := s.dim.nextId + 1 } }
  if 2 < p && admits (ptHalf s i) p then attrInvalidate i 1 s1 else s1

/-- Releases slot p of a point at an action time (R232). -/
def dimReleasePt (p act : Nat) (i : Nat) (s : State) : State :=
  let r := reqOf s i p
  if p = 0 || !r.valid then s
  else if isDue act (nowMs s) then endReq i p act s
  else putReq i p { r with hasRel := true, rel := act } s

/-- An offer names a point and the request that caused it there. -/
def offerOf (i id : Nat) (o : Cmd) : Bool :=
  levelKind o.op && (if o.members.isEmpty then o.point == i else o.members.contains i) && (cmdCause o i).1 == id

/-- What DIM offers for a revoked request and has not handed over is dropped; the other members of a group command are evaluated
again (R230). -/
def dimUnoffer (i id : Nat) (s : State) : State :=
  let others := ((s.dim.offers.filter (offerOf i id)).flatMap (·.members)).filter (· != i)
  let s1 := { s with dim := { s.dim with offers := s.dim.offers.filter fun o => !offerOf i id o } }
  if others.isEmpty then s1 else dimQueue { points := others } s1

/-- Revokes slot p of a point (R230): a pending command it caused is offered for revocation; one that has acted is
compensated. -/
def dimRevokePt (p : Nat) (i : Nat) (s : State) : State :=
  let r := reqOf s i p
  if p = 0 || !r.valid then s
  else
    let s2 := dimUnoffer i r.id (dropReq i p (dimPassed i s))
    let pt := dimPt s2 i
    match pt.pend.filter fun q => q.cause == r.id && !q.passed with
    | some q => putDimPt i { pt with pend := some { q with revoking := true } } { s2 with dim := { s2.dim with revs := s2.dim.revs ++ [(i, r.id)] } }
    | none => if pt.force.2.2 = r.id then putDimPt i { pt with comp := true } s2 else s2

/-- Sets the base hours of a point (R237). -/
def dimHoursPt (h i : Nat) (s : State) : State := pointTell i (fun k => .hours k h) (memWrite (dimWork s + 128 * i) (leBytes 4 h) s)

/-- Why a request is refused (R214, R215, R239): `src` 0 host software, 1 SCHED, 2 Mirage. -/
def dimRefusal (s : State) (src op : Nat) (tgt lvl aux : Word) : Option Nat :=
  let p := fld lvl 26 24
  let cct := fld aux 31 16
  if op = 0 || decide (4 < op) || (tgt &&& 0x7FFF0000) != 0 || (!bit tgt 31 && fld tgt 15 14 != 0) || (lvl &&& 0xF8E70000) != 0 then some 0x102
  else if bit tgt 31 && fld tgt 15 0 == 0xFFFF then some 0x102
  else if op == 1 && (p == 0 || (p == 4) != (src == 2) || (p == 2) != (src == 1)) then some 0x102
  else if op == 1 && cct != 0 && (decide (cct < 1800) || decide (10000 < cct)) then some 0x102
  else if bit tgt 31 then none
  else if ptCount ≤ fld tgt 13 0 then some 0x100
  else if !isLantern (ptHalf s (fld tgt 13 0)) then some 0x101
  else none

/-- The lantern points a request names, in index order (R229). -/
def dimTargets (s : State) (tgt : Word) : List Nat :=
  if bit tgt 31 then (List.range ptCount).filter fun i => cfgGroup (ptHalf s i) == fld tgt 15 0 && isLantern (ptHalf s i)
  else [fld tgt 13 0]

/-- The points whose slot a release or a revocation finds empty are not affected (R237), and R224 names no evaluation for
`SET_HOURS`. -/
def dimTouched (s : State) (op p : Nat) (pts : List Nat) : List Nat :=
  if op = 1 then pts else if op = 4 || p = 0 then [] else pts.filter fun i => (reqOf s i p).valid

/-- Carries out a request that is not refused, and queues the evaluations (R216, R224, R229-R232, R237, R267). -/
def dimCarry (src op : Nat) (tgt lvl act aux : Word) (port : Option Nat) (s : State) : State :=
  let pts := dimTargets s tgt
  let p := fld lvl 26 24
  let a := act.toNat
  let dur := fld aux 15 0
  let r : Req := { urgent := bit lvl 19, step := bit lvl 20, level := fld lvl 15 0, act := a, hasRel := dur != 0, rel := (a + dur * 1000) % 2 ^ 32, cct := fld aux 31 16 }
  let s1 := match op with
    | 1 => forEach (dimPostPt p r) pts s
    | 2 => forEach (dimReleasePt p a) pts s
    | 3 => forEach (dimRevokePt p) pts s
    | _ => forEach (dimHoursPt a) pts s
  let ev := dimTouched s op p pts
  if ev.isEmpty then s1
  else dimQueue { points := ev, group := if bit tgt 31 then some (fld tgt 15 0) else none, mir := src == 2, port := port } s1

/-- A refused request (R239). -/
def dimRefused (c : Nat) (s : State) : State := raiseIrq .dim 0 (bumpReg .dim 0x058 (recErr .dim c s))

/-- A request that reached DIM, from a request port or from an engine: its refusal is counted (R239). -/
def dimRequest (src op : Nat) (tgt lvl act aux : Word) (s : State) (port : Option Nat := none) : State :=
  match dimRefusal s src op tgt lvl aux with
  | some c => dimRefused c s
  | none => dimCarry src op tgt lvl act aux port s

/-- The groups of points, each once. -/
def groupsOf (s : State) (pts : List Nat) : List Nat := (pts.map fun i => cfgGroup (ptHalf s i)).eraseDups

/-- One point's part of a schedule step, a post or a release, without its evaluation. -/
def dimStepPt (op : Nat) (lvl act aux : Word) (i : Nat) (s : State) : State :=
  match dimRefusal s 1 op (word i) lvl aux with
  | some c => dimRefused c s
  | none =>
    if op = 2 then dimReleasePt 2 act.toNat i s
    else dimPostPt 2 { step := bit lvl 20, level := fld lvl 15 0, act := act.toNat, cct := fld aux 31 16 } i s

/-- A schedule step's request to its points (R243); each group's members are evaluated together (R229). -/
def dimStep (op : Nat) (lvl act aux : Word) (pts : List Nat) (s : State) : State :=
  forEach (fun g t => dimQueue { points := pts.filter fun i => cfgGroup (ptHalf s i) == g, group := if g = 0xFFFF then none else some g } t)
    (groupsOf s pts) (forEach (dimStepPt op lvl act aux) pts s)

/-- Mirage's CORRIDOR request: URGENT, with its release time (R266, R267). -/
def dimCorridor (i : Nat) (lvl act rel : Word) (s : State) : State :=
  dimQueue { points := [i], mir := true }
    (dimPostPt 4 { urgent := true, level := fld lvl 15 0, act := act.toNat, hasRel := true, rel := rel.toNat } i s)

/-- DIM takes no request of an engine now: the request is held (R38). -/
def dimHolds (s : State) : Bool := quiescing s .dim || inReset s .dim

/-- Holds a request of an engine. -/
def dimHold (h : DimHeld) (s : State) : State := { s with dim := { s.dim with held := s.dim.held ++ [h] } }

/-- Carries out an engine's request: SCHED's step, Mirage's post or revocation. -/
def dimTake (h : DimHeld) (s : State) : State :=
  if h.src = 1 then dimStep h.op h.lvl h.act h.aux h.pts s
  else if h.op = 3 then dimRequest 2 3 h.tgt h.lvl h.act h.aux s
  else dimCorridor h.tgt.toNat h.lvl h.act h.aux s

/-- A request from an engine through its internal port (R234): it is held while DIM quiesces (R38); a disabled DIM takes
it (R631). -/
def dimInternal (h : DimHeld) (s : State) : State := if dimHolds s then dimHold h s else dimTake h s

/-- Mirage's request through its internal port (R266). -/
def dimMirPost (i : Nat) (lvl act rel : Word) (s : State) : State :=
  dimInternal { src := 2, op := 1, tgt := word i, lvl := lvl, act := act, aux := rel } s

/-- DIM takes requests again: those held back are offered again in order (R38). -/
def dimUnhold (s : State) : State :=
  if dimHolds s then s else forEach dimTake s.dim.held { s with dim := { s.dim with held := [] } }

/-- A new `BOARD_T` or `LUX` has been written for a point (R221, R224). -/
def dimMeasured (i : Nat) (s : State) : State :=
  let s1 := putDimPt i { dimPt s i with newLux := true } s
  if bit (wordAt (ptHalf s i) 0) 9 then dimQueue { points := [i] } s1 else s1

/-- The colour in force (R222); 0 none. -/
def dimColour (s : State) (i : Nat) : Nat :=
  let w := dimFinal s i (nowMs s)
  if w.cct = 0 then fld (wordAt (ptHalf s i) 8) 31 16 else w.cct

/-- The colour loop: a CCT command where the colour in force differs from the one the node last acknowledged (R222). -/
def dimCct (i : Nat) (s : State) : State :=
  let c := ptHalf s i
  let k := dimColour s i
  if !ptServed s i || !isLantern c || !bit (wordAt c 0) 12 || k == 0 || (dimPt s i).cct == some k then s
  else
    let w := dimFinal s i (nowMs s)
    { s with dim := { s.dim with offers := (s.dim.offers.filter fun o => !(o.point == i && o.op == 3)) ++
      [{ point := i, op := 3, arg := k, act := nowMs s, urgent := dimUrgent s w false, prio := w.prio }] } }

/-- The node returned RESTARTED: the colour loop acts, and attribution drops the lantern (R222, R345). -/
def dimRestarted (i : Nat) (s : State) : State := dimCct i (attrInvalidate i 3 s)

/-! ### What DIAG is told -/

/-- An observation for DIAG, with the CUR_LEVEL in force at it (R286); while DIAG does not accept, only the newest of a point is
held (R298). -/
def diagObserve (o : DiagObs) (s : State) : State :=
  let old := if accepting s .diag then s.diag.obs else s.diag.obs.filter fun x => x.point != o.point
  { s with diag := { s.diag with obs := old ++ [{ o with cur := curLevel s o.point }] } }

/-- A report for DIAG. -/
def diagReport (r : DiagRep) (s : State) : State := { s with diag := { s.diag with reps := s.diag.reps ++ [r] } }

end Sys2Proof.Machine
end

