-- ==== Sys2Proof/Machine/LinePort.lean ====
section
/-! DEFINITION. The line ports: modes, listen-before-drive, contention, driver protection, adaptive threshold and
pre-emphasis (R122-R153). -/
namespace Sys2Proof.Machine

/-- A line. -/
def lineOf (s : State) (n : Nat) : LineState := spGet (fun _ => {}) s.line n

/-- Sets a line. -/
def putLine' (n : Nat) (l : LineState) (s : State) : State := { s with line := spPut (fun _ => {}) n l s.line }

/-- The page of a line. -/
def linePage (n : Nat) : Page := .line (Fin.ofNat 64 n)

/-- Changes the port of a line. -/
def setPort (n : Nat) (f : LinePort → LinePort) (s : State) : State :=
  putLine' n { lineOf s n with port := f (lineOf s n).port } s

/-- `PORT_MODE` (R134): 0 OFF, 1 DRIVE, 2 LISTEN. -/
def portMode (s : State) (n : Nat) : Nat := regF s (linePage n) 0x040 5 4

/-- `RATE` (R134). -/
def lineRate (s : State) (n : Nat) : Nat := regF s (linePage n) 0x040 1 0

/-- `CONT_EN` (R134). -/
def contEn (s : State) (n : Nat) : Bool := regB s (linePage n) 0x040 18

/-- A bit of `EL_STAT` (R136): 0 DRIVING, 1 UNDRIVEN, 2 LINE_DRIVEN, 3 BACKOFF, 4 CONTEND, 5 FOREIGN, 6 DRV_OCP,
7 DRV_OTP, 8 POL_SUSPECT, 9 CONT_LOCKOUT. -/
def elBit (s : State) (n b : Nat) : Bool := regB s (linePage n) 0x044 b

/-- Sets a bit of `EL_STAT`. -/
def setEl (n b : Nat) (v : Bool) (s : State) : State := setRegB (linePage n) 0x044 b v s

/-- The port holds its pair, and its driver is on but for the return phases of its own frames (R128, R184). -/
def driving (s : State) (n : Nat) : Bool := elBit s n 0

/-- The port's driver is on: in a return phase the pair is the nodes' (R128). -/
def drives (s : State) (n : Nat) : Bool := driving s n && (lineOf s n).back.isNone

/-- `EL_STAT` as it reads (R136): DRIVING is 0 while a return phase has the pair. -/
def elStat (s : State) (n : Nat) : Word := setBit (reg s (linePage n) 0x044) 0 (drives s n)

/-- The port is in a reset of reach DATAPATH or wider (R153). -/
def portReset (s : State) (n : Nat) : Bool := inReset s (linePage n) || s.rst.active

/-- The module has its supply: V_IN and its rails are there (R130, R153). -/
def powered (s : State) : Bool := s.railsOn && s.rst.vin && !s.rst.por

/-- The module's bias is in force at the port: while the port does not drive and BIAS_EN is 1, and during every reset of reach
DATAPATH or wider, but never without supply (R130, R153).  The figures in mA and mV are the driver's. -/
def biasOn (s : State) (n : Nat) : Bool := powered s && (portReset s n || (regB s (linePage n) 0x040 8 && !drives s n))

/-- The termination in force at the port, ohms, none for off: TERM, 240 during such a reset, and the leakage of R129 alone without
supply (R134, R153). -/
def termOhms (s : State) (n : Nat) : Option Nat :=
  if !powered s then none
  else if portReset s n then some 240
  else match regF s (linePage n) 0x040 13 12 with
    | 1 => some 120
    | 2 => some 240
    | _ => none

/-- A position of a line. -/
def lposOf (s : State) (n p : Nat) : LPos := spGet (fun _ => {}) (lineOf s n).pos p

/-- Sets a position of a line. -/
def putLpos (n p : Nat) (x : LPos) (s : State) : State :=
  putLine' n { lineOf s n with pos := spPut (fun _ => {}) p x (lineOf s n).pos } s

/-- Changes the command with an identity wherever a position holds it. -/
def lposUpd (x : LPos) (uid : Nat) (f : Cmd → Cmd) : LPos :=
  let g := fun (c : Cmd) => if c.uid = uid then f c else c
  { x with queue := x.queue.map g, revokes := x.revokes.map g, setting := x.setting.map g }

/-- The driver turns on: the receiver sees a driven level, and an over-temperature shutdown is over (R136, R152). -/
def driveOn (n : Nat) (s : State) : State := setEl n 0 true (setEl n 1 false (setEl n 2 true (setEl n 7 false s)))

/-- The commands that the frame in its return phase was the first to carry count as not sent (R184). -/
def unsend (n : Nat) (s : State) : State :=
  let marked := match (lineOf s n).back with | some f => f.marked | none => []
  forEach (fun (x : Nat × Nat) t => putLpos n x.1 (lposUpd (lposOf t n x.1) x.2 fun c => { c with sent := false }) t) marked s

/-- The chunk of a NUPD frame that did not get through waits again (R399). -/
def chunkBack (n : Nat) (s : State) : State :=
  match (lineOf s n).wire.bind (·.chunk) with
  | some c => { s with nupd := { s.nupd with queue := spPut (fun _ => []) n (c :: spGet (fun _ => []) s.nupd.queue n) s.nupd.queue } }
  | none => s

/-- A frame that fails on the wire counts as an attempt for none of its commands (R184); one that was fixed is stale.  The
preamble of the phase it ends was the next accepted one (R202). -/
def frameFails (n : Nat) (s : State) : State :=
  let l := lineOf s n
  let t := unsend n (chunkBack n s)
  putLine' n { lineOf t n with
    wire := none, back := none, preOk := false, fixed := none, due := false
    lost := if l.back.isSome && l.preOk then 0 else l.lost } t

/-- The driver turns off, and the frame in progress fails.  Of its own level the receiver sees nothing more. -/
def driveOff (n : Nat) (s : State) : State :=
  let own := drives s n
  frameFails n (setPort n (fun p => { p with lbd := false }) (setEl n 0 false (if own then setEl n 2 false s else s)))

/-- A fault on the retry is lasting (R149): the error, CONT_LOCKOUT, PORT_MODE to LISTEN and a recorder entry. -/
def lockout (n code : Nat) (s : State) : State :=
  evrOffer (linePage n) 0x0102 (leBytes 2 code)
    (setRegF (linePage n) 0x040 5 4 2 (setEl n 9 true (setPort n (fun p => { p with retry := false }) (recErr (linePage n) code s))))

/-- Contention or foreign drive: back-off, or lockout on the retry (R149); another end drives the pair. -/
def contendOrForeign (n code : Nat) (s : State) : State :=
  let s1 := setEl n 2 true (driveOff n s)
  if (lineOf s n).port.retry then lockout n code s1 else setEl n 3 true s1

/-- LINE_DRIVEN is seen by a port that does not drive (R136); in the window the port does not drive (R147, R149). -/
def foreignDrive (n : Nat) (s : State) : State :=
  if driving s n || portMode s n = 0 then s
  else
    let s1 := setEl n 2 true (setEl n 1 false s)
    if !(lineOf s n).port.lbd then s1
    else contendOrForeign n 0x101 (bumpRegF (linePage n) 0x06C 31 16 (raiseIrq (linePage n) 1 (setEl n 5 true s1)))

/-- The window of listen-before-drive opens: a level that is there already is seen in it (R147). -/
def openWindow (n : Nat) (s : State) : State :=
  let s1 := setPort n (fun p => { p with lbd := true }) s
  if elBit s n 2 then foreignDrive n s1 else s1

/-- The port starts to drive: through listen-before-drive where CONT_EN is 1, unless a wait or a shutdown is in progress
(R147, R149, R151, R152). -/
def startDrive (n : Nat) (s : State) : State :=
  let p := (lineOf s n).port
  if portMode s n != 1 || !working s (linePage n) || p.hot || elBit s n 3 || p.ocpWait || elBit s n 9
      || p.ocpLast || driving s n || p.lbd then s
  else if contEn s n then openWindow n s
  else driveOn n s

/-- The pre-emphasis step changes, and is mirrored (R146, R469). -/
def peSet (n k : Nat) (s : State) : State := jrnTell (.preEmph (Fin.ofNat 64 n) k) (setPort n (fun p => { p with peStep := k }) s)

/-- The learned threshold, sampling point and pre-emphasis return to their reset values (R135, R146). -/
def learnReset (n : Nat) (s : State) : State :=
  setRegF (linePage n) 0x048 8 0 0 (setRegF (linePage n) 0x04C 5 0 32 (setRegF (linePage n) 0x050 3 0 0
    (setRegB (linePage n) 0x058 27 false (peSet n 0 s))))

/-- What a change of `EL_CTRL` does to the port: a change of RATE, leaving DRIVE, or starting to drive; an accepted
write of DRIVE ends a lockout and a lasting over-current (R135, R147, R149, R151). -/
def elApply (n oldMode oldRate : Nat) (s : State) : State :=
  let s1 := if lineRate s n != oldRate then learnReset n s else s
  if portMode s1 n = 1 then
    let s2 := if elBit s1 n 9 then
        setEl n 9 false (setEl n 5 false (setEl n 4 false (setPort n (fun p => { p with retry := false }) s1))) else s1
    let s3 := if (lineOf s2 n).port.ocpLast then setEl n 6 false (setPort n (fun p => { p with ocpLast := false, ocpRetry := false }) s2) else s2
    if oldMode = 1 ∧ driving s3 n then s3 else startDrive n s3
  else if oldMode = 1 then driveOff n s1
  else s1

/-- A write of `EL_CTRL` (R135). -/
def elCtrlWrite (ini : Ini) (n : Nat) (v : Word) (s : State) : State :=
  let taken := writeTaken (linePage n) 0x040 v s
  let s1 := plainWrite ini (linePage n) 0x040 v s
  if taken then elApply n (portMode s n) (lineRate s n) s1 else s1

/-- The twin link controller writes PORT_MODE (R135, R472). -/
def setPortMode (n mode : Nat) (s : State) : State :=
  elApply n (portMode s n) (lineRate s n) (setRegF (linePage n) 0x040 5 4 mode s)

/-- `EL_CTRL_WRITE`. -/
def execElCtrlWrite (ini : Ini) (n : Fin 64) (v : Word) (s : State) : Out :=
  done s (admitWrite ini (.line n) 0x040 v (elCtrlWrite ini n.val v) s)

/-- `LBD_WINDOW_END`: the pair was undriven, and the driver turns on; a level that is still there is seen in the window
(R147). -/
def execLbdWindowEnd (n : Fin 64) (s : State) : Out :=
  done s (if !(lineOf s n.val).port.lbd then s
    else if elBit s n.val 2 then foreignDrive n.val s
    else driveOn n.val (setPort n.val (fun p => { p with lbd := false }) s))

/-- `FOREIGN_DRIVE`. -/
def execForeignDrive (n : Fin 64) (s : State) : Out := done s (foreignDrive n.val s)

/-- The driven and the seen polarity disagree (R148, R149). -/
def contention (n : Nat) (s : State) : State :=
  if !drives s n || !contEn s n then s
  else contendOrForeign n 0x100 (bumpRegF (linePage n) 0x06C 15 0 (raiseIrq (linePage n) 0 (setEl n 4 true s)))

/-- `CONTENTION`. -/
def execContention (n : Fin 64) (s : State) : Out := done s (contention n.val s)

/-- `BACKOFF_END`: listen-before-drive runs again as the one retry (R149). -/
def execBackoffEnd (n : Fin 64) (s : State) : Out :=
  done s (if elBit s n.val 3 then startDrive n.val (setPort n.val (fun p => { p with retry := true }) (setEl n.val 3 false s)) else s)

/-- A conductor at its limit for 20 bit times (R151). -/
def overCurrent (n : Nat) (s : State) : State :=
  if !drives s n then s
  else
    let s1 := if elBit s n 6 then s else raiseIrq (linePage n) 3 s
    let s2 := setEl n 6 true (driveOff n s1)
    if (lineOf s n).port.ocpRetry then
      diagReport (.drvShort n) (setRegF (linePage n) 0x040 5 4 2
        (setPort n (fun p => { p with ocpRetry := false, ocpLast := true }) (recErr (linePage n) 0x102 s2)))
    else setPort n (fun p => { p with ocpWait := true }) s2

/-- `DRV_OVERCURRENT`. -/
def execDrvOvercurrent (n : Fin 64) (s : State) : Out := done s (overCurrent n.val s)

/-- `OCP_RETRY_WAIT_END`: the port tries again through listen-before-drive (R151). -/
def execOcpRetryWaitEnd (n : Fin 64) (s : State) : Out :=
  done s (if (lineOf s n.val).port.ocpWait then
    startDrive n.val (setPort n.val (fun p => { p with ocpWait := false, ocpRetry := true }) s) else s)

/-- The junction exceeds 160 °C: each shutdown is a transient fault of the port (R152). -/
def overTemp (n : Nat) (s : State) : State :=
  if (lineOf s n).port.hot then s
  else
    let s1 := if elBit s n 7 then s else raiseIrq (linePage n) 3 s
    driveOff n (setPort n (fun p => { p with hot := true }) (setEl n 7 true (noteTransient (linePage n) (recErr (linePage n) 0x103 s1))))

/-- `DRV_OVERTEMP`. -/
def execDrvOvertemp (n : Fin 64) (s : State) : Out := done s (overTemp n.val s)

/-- `DRV_TEMP_RECOVER`: below 140 °C the driver turns on again through listen-before-drive; DRV_OTP clears when it does
(R136, R152). -/
def execDrvTempRecover (n : Fin 64) (s : State) : Out :=
  done s (if (lineOf s n.val).port.hot then startDrive n.val (setPort n.val (fun p => { p with hot := false }) s) else s)

/-- `UNDRIVEN`: only bias-level voltage for 50 µs (R136). -/
def execUndriven (n : Fin 64) (s : State) : Out :=
  done s (if drives s n.val then s else setEl n.val 1 true (setEl n.val 2 false s))

/-- The first complete forward frame after the retry ends cleanly: the event was transient (R16, R149, R151). -/
def drivenCleanly (n : Nat) (s : State) : State :=
  let p := (lineOf s n).port
  let s1 := if p.retry then setEl n 5 false (setEl n 4 false (setPort n (fun p => { p with retry := false }) (noteTransient (linePage n) s))) else s
  if p.ocpRetry then setEl n 6 false (setPort n (fun p => { p with ocpRetry := false }) (noteTransient (linePage n) s1)) else s1

/-! ### Learning -/

/-- The bits of a preamble: a high time above T/2 (in units of T/64) is a 1 (R139). -/
def preambleBits (highs : List Nat) : List Bool := highs.map fun h => decide (32 < h)

/-- 0x5A3C, most significant bit first (R139). -/
def preamble : List Bool := (List.range 16).map fun k => (0x5A3C : Nat).testBit (15 - k)

/-- ceil(|d| / 4) in the direction of d (R140). -/
def quarterStep (d : Int) : Int := if 0 ≤ d then (d + 3) / 4 else -((-d + 3) / 4)

/-- A learned value moves toward its candidate and is held within its limits; true where it is held (R140). -/
def learnMove (old cand lo hi : Int) : Int × Bool :=
  let v := old + quarterStep (cand - old)
  (clampInt lo hi v, decide (v < lo) || decide (hi < v))

/-- The threshold in force, 10 mV units (R141). -/
def thresholdOf (s : State) (n : Nat) : Int :=
  if regB s (linePage n) 0x048 31 then signed 9 (regF s (linePage n) 0x048 24 16) else signed 9 (regF s (linePage n) 0x048 8 0)

/-- The sampling point in force, T/64 units (R141). -/
def sampleOf (s : State) (n : Nat) : Nat :=
  if regB s (linePage n) 0x04C 31 then regF s (linePage n) 0x04C 21 16 else regF s (linePage n) 0x04C 5 0

/-- The candidates of a preamble: the mean high time of all its bits, which is (W0 + W1) / 2, and the mean level
(R140). -/
def sampleCand (highs : List Nat) : Int := ((highs.foldl (· + ·) 0) / 16 : Nat)

/-- The learned values move (R140). -/
def learn (n : Nat) (highs : List Nat) (vhi vlo : Int) (s : State) : State :=
  if regB s (linePage n) 0x040 16 then s
  else
    let (sp, h1) := learnMove (regF s (linePage n) 0x04C 5 0) (sampleCand highs) 16 48
    let (th, h2) := learnMove (signed 9 (regF s (linePage n) 0x048 8 0)) (Int.tdiv (vhi + vlo) 2) (-40) 40
    let s1 := setRegF (linePage n) 0x04C 5 0 sp.toNat (setRegF (linePage n) 0x048 8 0 (unsigned 9 th) s)
    if h1 || h2 then raiseIrq (linePage n) 2 s1 else s1

/-- AMP and TIME of an accepted preamble, against the values in force while it was received (R142). -/
def margins (n : Nat) (highs : List Nat) (vhi vlo : Int) (s : State) : State :=
  let th := thresholdOf s n
  let sp := sampleOf s n
  let amp := (clampInt 0 255 (min (vhi - th) (th - vlo))).toNat
  let tm := listMin (highs.map fun h => if h ≤ sp then sp - h else h - sp) 255
  setRegF (linePage n) 0x058 23 16 amp (setRegF (linePage n) 0x058 7 0 tm s)

/-- Bit errors received count in `BIT_ERR` (R125). -/
def countBitErrs (n k : Nat) (s : State) : State :=
  setReg (linePage n) 0x064 (word (min 0xFFFFFFFF (regN s (linePage n) 0x064 + k))) s

/-- High times outside both ranges of R125, in units of T/64: 0.15T-0.35T decides 0, 0.65T-0.85T decides 1, at every rate. -/
def badHighs (highs : List Nat) : Nat :=
  (highs.filter fun h => !((decide (10 ≤ h) && decide (h ≤ 22)) || (decide (42 ≤ h) && decide (h ≤ 54)))).length

/-- An accepted preamble of this line's own return phase: `LN_RTT` is taken, and SILENT clears (R187, R202).  Whether the phase
counts as lost is known when its stream has been attributed (R201). -/
def preambleOwn (n rtt : Nat) (s : State) : State :=
  if (lineOf s n).back.isSome then setRegB (linePage n) 0x084 6 false (setReg (linePage n) 0x09C (word rtt) s) else s

/-- A return preamble, as the receiver measured it: the 16 high times, the mean levels, and the time from the trailer's
end (R125, R139-R142, R187).  POL_SUSPECT stays that of the last rejected one (R136). -/
def returnPreamble (n : Nat) (highs : List Nat) (vhi vlo : Int) (rtt : Nat) (s : State) : State :=
  if portMode s n = 0 ∨ !working s (linePage n) then s
  else
    let s0 := countBitErrs n (badHighs highs) s
    if preambleBits highs = preamble then
      let s1 := preambleOwn n rtt (learn n highs vhi vlo (margins n highs vhi vlo (bumpReg (linePage n) 0x05C s0)))
      putLine' n { lineOf s1 n with preOk := true } s1
    else
      setEl n 8 (preambleBits highs == preamble.map (!·)) (bumpReg (linePage n) 0x060 (putLine' n { lineOf s0 n with preOk := false } s0))

/-- NODE_MARGIN of `RX_MARGIN`, from a valid return of position 0 (R142). -/
def nodeMargin (n m : Nat) (s : State) : State :=
  setRegB (linePage n) 0x058 27 true (setRegF (linePage n) 0x058 31 28 m s)

/-- `RETURN_PREAMBLE`. -/
def execReturnPreamble (n : Fin 64) (highs : List Nat) (vhi vlo : Int) (rtt : Nat) (s : State) : Out :=
  done s (returnPreamble n.val highs vhi vlo rtt s)

/-- A line cycle, or a returned frame of a pixel line, counts toward `PE_INTERVAL` (R144). -/
def peCycle (n : Nat) (s : State) : State := setPort n (fun p => { p with peCount := p.peCount + 1 }) s

/-- The step moves by the margin of position 0 (R144); EQ_LIMIT at PE_MAX with the margin still at or below PE_LO (R137). -/
def peMove (n : Nat) (s : State) : State :=
  let p := linePage n
  if portMode s n != 1 || regB s p 0x040 17 || regB s p 0x050 31 || !regB s p 0x058 27 then s
  else
    let m := regF s p 0x058 31 28
    let st := (lineOf s n).port.peStep
    if m ≤ regF s p 0x054 11 8 then
      if st < regF s p 0x050 27 24 then setRegB p 0x058 27 false (peSet n (st + 1) s)
      else raiseIrq p 2 s
    else if regF s p 0x054 15 12 ≤ m ∧ regF s p 0x050 19 16 < st then
      setRegB p 0x058 27 false (peSet n (st - 1) s)
    else s

/-- A pixel line without pixel return keeps its pre-emphasis (R144). -/
def peKept (s : State) (n : Nat) : Bool := regB s (linePage n) 0x080 1 && regF s (linePage n) 0x080 23 16 == 0

/-- The evaluation of pre-emphasis at the end of `PE_INTERVAL` cycles or returned frames (R144). -/
def peEvaluate (n : Nat) (s : State) : State :=
  if (lineOf s n).port.peCount < regF s (linePage n) 0x054 31 24 || peKept s n then s
  else peMove n (setPort n (fun p => { p with peCount := 0 }) s)

/-- `PE_EVALUATE`. -/
def execPeEvaluate (n : Fin 64) (s : State) : Out := done s (peEvaluate n.val s)

/-- The step takes effect at the start of a forward frame (R143). -/
def peTake (n : Nat) (s : State) : State :=
  let p := linePage n
  let st := if regB s p 0x050 31 then regF s p 0x050 11 8 else (lineOf s n).port.peStep
  if st = regF s p 0x050 3 0 then s else setRegB p 0x058 27 false (setRegF p 0x050 3 0 st s)

/-- A LINE page's reset of reach DATAPATH (R153): the driver is off, lockout and a lasting over-current clear.  A junction that
is too hot stays so (R152). -/
def portOff (n : Nat) (s : State) : State :=
  setReg (linePage n) 0x044 (word (2 + 128 * b01 (lineOf s n).port.hot))
    (setPort n (fun p => { peStep := p.peStep, hot := p.hot }) (driveOff n s))

end Sys2Proof.Machine
end

