-- ==== Sys2Proof/Machine/NupdCore.lean ====
section
/-! DEFINITION. The node-update campaign as the line sequencer and Caravan see it: targets, their reports, progress
words, commands (R395-R409). -/
namespace Sys2Proof.Machine

/-- `NU_STAT` state (R410): 0 IDLE, 1 VERIFY, 2 OPEN, 3 ROUNDS, 4 READY, 5 ARMING, 6 CHECK, 7 DONE, 8 PAUSED,
9 ABORTED. -/
def nuState (s : State) : Nat := regF s .nupd 0x044 23 20

/-- CAMP, the campaign's number (R395). -/
def nuCamp (s : State) : Nat := regF s .nupd 0x044 31 24

/-- A campaign runs: NUPD works and is between OPEN and CHECK. -/
def nuRuns (s : State) : Bool := working s .nupd && decide (2 ≤ nuState s) && decide (nuState s ≤ 6)

/-- NUPD starts new frames, fragments and commands: not while it quiesces (R409), and not in PAUSED (R410). -/
def nuSends (s : State) : Bool := accepting s .nupd && nuState s != 8

/-- A campaign exists, running or PAUSED. -/
def nuCampaign (s : State) : Bool := decide (2 ≤ nuState s) && (decide (nuState s ≤ 6) || nuState s == 8)

/-- `NUPD_PROG` of a target (R407). -/
def nuProg (camp : Nat) (t : NuTarget) : Nat := t.pstate * 2 ^ 28 + camp * 2 ^ 20 + t.cause * 2 ^ 16 + t.held % 4096

/-- The resume region in MRAM (R408). -/
def nuRegion : Nat := 0x202C0000

/-- The 16 bytes of a target in the resume region: index, progress word, rounds without progress, in this order
(PRESUMED, log 11). -/
def nuEntry (camp : Nat) (t : NuTarget) : List Byte :=
  leBytes 4 t.idx ++ leBytes 4 (nuProg camp t) ++ leBytes 4 t.stale ++ leBytes 4 0

/-- The place of a point among the targets. -/
def nuSlot (s : State) (i : Nat) : Option Nat := s.nupd.targets.findIdx? fun t => t.idx == i

/-- A target. -/
def nuTarget (s : State) (i : Nat) : Option NuTarget := s.nupd.targets.find? fun t => t.idx == i

/-- Bytes of the resume region are written, and mirrored (R408, R469). -/
def nuWrite (off : Nat) (bs : List Byte) (s : State) : State := jrnTell (.nupd (nuRegion - 0x20000000 + off) bs) (memWrite (nuRegion + off) bs s)

/-- Changes a target: its progress word and its entry in the resume region follow (R407, R408). -/
def nuPut (t : NuTarget) (s : State) : State :=
  match nuSlot s t.idx with
  | none => s
  | some k =>
    let s1 := nuWrite (0x400 + 16 * k) (nuEntry (nuCamp s) t) { s with nupd := { s.nupd with targets := setAt s.nupd.targets k t } }
    if t.idx < ptCount then engPoke .nupd t.idx 47 (word (nuProg (nuCamp s) t)) s1 else s1

/-- A target is still in the campaign: neither done nor failed. -/
def nuOpen (t : NuTarget) : Bool := t.pstate != 0 && decide (t.pstate < 5)

/-- Chunks of the image. -/
def nuLen (s : State) : Nat := regN s .nupd 0x04C

/-- The campaign's descriptor (R408): CAMP, state, `IMG_LEN`, SHA-256 over all chunks, `ACT_AT`, the round and `TGT_N`, then a
CRC-32, in this order (PRESUMED, log 11). -/
def nuDesc (s : State) : State :=
  let st := if nuState s = 8 then s.nupd.resumeTo else nuState s
  let b := leBytes 1 (nuCamp s) ++ leBytes 1 st ++ leBytes 2 (nuLen s) ++ takePad 32 s.nupd.digest ++ leBytes 4 (regN s .nupd 0x058)
    ++ leBytes 4 (regF s .nupd 0x044 19 16) ++ leBytes 4 s.nupd.targets.length
  nuWrite 0 (b ++ leBytes 4 (crc32 b)) s

/-- The campaign enters a state, and its descriptor follows (R408). -/
def nuGo (st : Nat) (s : State) : State := nuDesc (setRegF .nupd 0x044 23 20 st s)

/-- The line of a target; none for a radio point. -/
def nuLine (s : State) (t : NuTarget) : Option Nat := let c := ptHalf s t.idx; if cfgRadio c then none else some (cfgLine c)

/-- Every chunk of the image. -/
def nuAll (s : State) : List Nat := List.range (nuLen s)

/-- The positions of a target's nodes: the run of a pixel segment, the position of a lantern, 0 of a radio point. -/
def nuRun (s : State) (t : NuTarget) : List Nat :=
  let c := ptHalf s t.idx
  if cfgRadio c then [0] else if cfgKind c = kindPixel then (List.range (cfgCount c)).map (· + cfgPos c) else [cfgPos c]

/-- A node of a target. -/
def nuNode (t : NuTarget) (p : Nat) : NuNode := spGet (fun _ => {}) t.nodes p

/-- The nodes of a target's run. -/
def nuNodes (s : State) (t : NuTarget) : List NuNode := (nuRun s t).map (nuNode t)

/-- Changes a node. -/
def nuOn (p : Nat) (f : NuNode → NuNode) (t : NuTarget) : NuTarget := { t with nodes := spPut (fun _ => {}) p (f (nuNode t p)) t.nodes }

/-- Changes every node of a target's run. -/
def nuOnAll (s : State) (f : NuNode → NuNode) (t : NuTarget) : NuTarget := (nuRun s t).foldl (fun u p => nuOn p f u) t

/-- The chunks of the next pass for some targets (R402, R403): every chunk in the first round, and on a line where any target holds fewer
than half; else the union of the chunks reported missing. -/
def nuPass (s : State) (round : Nat) (line : Bool) (ts : List NuTarget) : List Nat :=
  if ts.isEmpty then []
  else if round ≤ 1 || (line && ts.any fun t => decide (2 * t.held < nuLen s)) then nuAll s
  else (nuAll s).filter fun k => ts.any fun t => (nuNodes s t).any fun x => x.missing.contains k

/-- Fragments of a chunk on the radio (R401). -/
def nuFrags (s : State) : Nat := [32, 8, 4, 8].getD (regF s (.rf (Fin.ofNat 2 (regF s .crv 0x040 8 8))) 0x040 5 4) 8

/-- A round starts: what each line, and the radio, is to carry (R403); a pass by radio that has nothing to carry still ends with its
NACK_REQ (R402). -/
def nuRound (round : Nat) (s : State) : State :=
  let open' := s.nupd.targets.filter fun t => t.pstate == 2
  let lineQ := (List.range 64).foldl (fun q n => spPut (fun _ => []) n (nuPass s round true (open'.filter fun t => nuLine s t == some n)) q) ([] : Sparse (List Nat))
  let air := open'.filter fun t => (nuLine s t).isNone
  let radio := (nuPass s round false air).flatMap fun k => (List.range (nuFrags s)).map fun f => 64 * k + f
  nuGo 3 (setRegF .nupd 0x044 19 16 (min 15 round) { s with
    nupd := { s.nupd with queue := spPut (fun _ => []) 64 radio lineQ }
    crv := { s.crv with nackDue := s.crv.nackDue || (!air.isEmpty && radio.isEmpty) } })

/-- The first round starts once every target has taken OPEN or failed (R403). -/
def nuAdvance (s : State) : State :=
  if nuState s == 2 && s.nupd.targets.all (fun t => 2 ≤ t.pstate) then nuRound 1 s else s

/-- A target fails with a cause (R403, R407): TGT_FAIL rises. -/
def nuFail (i cause : Nat) (s : State) : State :=
  match nuTarget s i with
  | none => s
  | some t => if nuOpen t then nuAdvance (raiseIrq .nupd 0 (nuPut { t with pstate := 6, cause := cause } s)) else s

/-- DSEL 4 is read from a target: an armed one in CHECK, or one that had switched when its ACTIVATE was revoked (R405,
R406). -/
def nuChecks (s : State) (t : NuTarget) : Bool :=
  working s .nupd && t.pstate == 4 && !t.lateWait && (nuState s == 6 || (nuState s == 9 && t.switched))

/-- The chunks a DSEL 6 word reports missing (R398): BASE, and BASE + 1 + i for each bit i of the bitmap. -/
def nuMissing (data : Nat) : List Nat :=
  let base := nfld data 31 20
  if base = 0xFFF then [] else base :: ((List.range 20).filter fun i => (nfld data 19 0).testBit i).map fun i => base + 1 + i

/-- Chunks held by the least advanced node of a target (R403). -/
def nuHeld (s : State) (t : NuTarget) : Nat := listMin ((nuNodes s t).map (·.held)) 4095

/-- The NSTATE that a target's nodes give it: the first that is REFUSED or FAILED, COMPLETE where all are COMPLETE (or ARMED), else
RECEIVING (R403). -/
def nuNstate (s : State) (t : NuTarget) : Nat :=
  let ns := nuNodes s t
  if ns.any fun x => x.nstate == some 5 then 5
  else if ns.any fun x => x.nstate == some 4 then 4
  else if ns.all fun x => x.nstate == some 2 || x.nstate == some 3 then 2
  else 1

/-- A node's DSEL 5 gives NSTATE and the chunks held of CAMP, DSEL 6 the missing chunks (R398). -/
def nuHear (s : State) (dsel data : Nat) (n : NuNode) : NuNode :=
  if dsel = 5 then
    (if nfld data 27 20 = nuCamp s then { n with nstate := some (nfld data 31 28), held := nfld data 11 0 } else { n with nstate := some 0, held := 0 })
  else if dsel = 6 then { n with missing := nuMissing data } else n

/-- A target after what its nodes reported: COMPLETE once all are (R403). -/
def nuJudged (s : State) (t : NuTarget) : NuTarget :=
  let t1 := { t with held := nuHeld s t }
  if t.pstate = 2 ∧ nuNstate s t = 2 then { t1 with pstate := 3 } else t1

/-- A node's report reaches NUPD (R398). -/
def nuReport (i pos dsel data : Nat) (s : State) : State :=
  match nuTarget s i with
  | none => s
  | some t => if !nuRuns s || !nuOpen t || !(dsel == 5 || dsel == 6) then s else nuPut (nuJudged s (nuOn pos (nuHear s dsel data) t)) s

/-- Offers a command of NUPD. -/
def nuOffer (c : Cmd) (s : State) : State := { s with nupd := { s.nupd with offers := s.nupd.offers ++ [c] } }

/-- A command of the campaign to a target, or to some of its nodes: SUB 1 OPEN, 2 ACTIVATE, 3 ABORT (R396). -/
def nuCmd (sub act : Nat) (t : NuTarget) (s : State) (only : List Nat := []) : State :=
  nuOffer { point := t.idx, op := 15, arg := sub * 4096 + nuCamp s, act := act, src := 2, only := only } s

/-- The outcome of a node's DSEL 4 (R405): the new version is DONE, the old one after RESTARTED FAILED, the old one in NSTATE 2 or 3
NOT_ACTIVATED; any other answer gives none. -/
def nuOutcome (s : State) (ver : Nat) (n : NuNode) : Nat :=
  if ver = memNat s (regN s .nupd 0x048 + 6) 2 then 5
  else if n.restarted then 6
  else if n.nstate.all fun x => x == 2 || x == 3 then 7
  else 0

/-- The nodes of a target whose DSEL 4 is awaited: after an ABORT those that had switched (R405, R406). -/
def nuAwaited (s : State) (t : NuTarget) : List Nat := (nuRun s t).filter fun p => nuState s != 9 || (nuNode t p).switched

/-- An armed target whose nodes have all answered (R405): FAILED with BOOT where one runs its old image, else NOT_ACTIVATED where one
is, with one more ACTIVATE to those under LATE_ACT, else DONE (DEDUCED, log 182). -/
def nuDecide (t : NuTarget) (s : State) : State :=
  let ps := nuAwaited s t
  let late := ps.filter fun p => (nuNode t p).out == 7
  if ps.any fun p => (nuNode t p).out == 0 then nuPut t s
  else if ps.any fun p => (nuNode t p).out == 6 then nuFail t.idx 5 (nuPut t s)
  else if late.isEmpty then nuPut { t with pstate := 5 } s
  else if regB s .nupd 0x040 2 && !t.late && nuState s == 6 then
    let t1 := late.foldl (fun u p => nuOn p (fun n => { n with out := 0, act := 1, seq := none }) u) { t with late := true, lateWait := true, asked := 0 }
    nuCmd 2 (nowMs s) t (nuPut t1 s) (if late = nuRun s t then [] else late)
  else nuPut { t with pstate := 7 } s

/-- The DSEL 4 answer of a node of an armed target in CHECK (R405). -/
def nuVersion (i pos ver : Nat) (s : State) : State :=
  match nuTarget s i with
  | none => s
  | some t => if !nuChecks s t then s else nuDecide (nuOn pos (fun n => { n with out := if n.out = 0 then nuOutcome s ver n else n.out }) t) s

/-- A node of a target returned RESTARTED; from an armed one NUPD signals DIM as R197's recovery does, where it is a lantern (R404). -/
def nuRestarted (i pos : Nat) (s : State) : State :=
  match nuTarget s i with
  | none => s
  | some t =>
    if t.pstate = 4 then
      let s1 := nuPut (nuOn pos (fun n => { n with restarted := true }) t) s
      if isLantern (ptHalf s i) then dimRecover i s1 else s1
    else s

/-- A target whose pending ACTIVATEs are being revoked (R406): once no node's is pending any more it is FAILED with ABORTED, or
checked where a node had switched. -/
def nuRevoked (t : NuTarget) (s : State) : State :=
  if (nuNodes s t).any fun n => n.act != 0 then nuPut t s
  else if (nuNodes s t).any (·.switched) then
    let s1 := nuPut { t with pstate := 4, switched := true, lateWait := false, asked := 1 } s
    if (nuLine s t).isNone then { s1 with nupd := { s1.nupd with asks := s1.nupd.asks ++ [t.idx] } } else s1
  else nuFail t.idx 8 (nuPut t s)

/-- A node's pending ACTIVATE is gone in an ABORT: it was taken back before it was sent, or its REVOKE was answered, with REV_LATE where
the node has switched (R406). -/
def nuUnact (i pos : Nat) (late : Bool) (s : State) : State :=
  match nuTarget s i with
  | none => s
  | some t =>
    if nuState s = 9 ∧ (t.pstate = 3 ∨ t.pstate = 4) then
      nuRevoked (nuOn pos (fun n => { n with act := 0, switched := n.switched || late }) t) s
    else s

/-- A command of NUPD was acknowledged by the node at a position (R396, R404, R406): a target whose nodes have all taken OPEN is
RECEIVING, one whose nodes have all taken ACTIVATE is ARMED. -/
def nuAcked (c : Cmd) (pos : Nat) (late : Bool) (s : State) : State :=
  match nuTarget s c.point with
  | none => s
  | some t =>
    let sub := c.arg / 4096 % 16
    if c.op = 15 ∧ sub = 1 then
      let t1 := nuOn pos (fun n => { n with opened := 2 }) t
      if t.pstate = 1 && (nuNodes s t1).all (fun n => n.opened == 2) then nuAdvance (nuPut { t1 with pstate := 2 } s) else nuPut t1 s
    else if c.op = 15 ∧ sub = 2 then
      let t1 := nuOn pos (fun n => { n with act := 2, seq := c.seq }) t
      if (nuNodes s t1).all (fun n => n.act == 2) then nuPut { t1 with pstate := if t.pstate = 3 then 4 else t.pstate, lateWait := false } s
      else nuPut t1 s
    else if c.op = 4 then nuUnact t.idx pos late s
    else s

/-- A command of NUPD failed lastingly: FAILED with cause COMMS (R403). -/
def nuCmdFailed (c : Cmd) (s : State) : State := nuFail c.point 4 s

/-- The header, D0, D1, data and DCRC of a NUPD line frame (R157, R399): every word most significant byte first; the
trailer follows. -/
def nuBody (s : State) (chunk : Nat) : List Byte :=
  let d := beBytes 2 (nuCamp s * 256) ++ beBytes 2 chunk
    ++ (List.range 256).flatMap fun k => beBytes 2 (memNat s (regN s .nupd 0x048 + 512 * chunk + 2 * k) 2)
  d ++ beBytes 4 (crc32 d)

end Sys2Proof.Machine
end

