-- ==== Sys2Proof/Machine/LseqFrames.lean ====
section
/-! DEFINITION. Wadi frames and their contents: headers, slots, check words; what a frame carries (R154-R171, R179,
R183-R194). -/
namespace Sys2Proof.Machine

/-! ### Frames -/

/-- The sync byte (R154). -/
def syncByte : Byte := 0xB4

/-- Exclusive-OR of words. -/
def xorAll (l : List Nat) : Nat := l.foldl (· ^^^ ·) 0

/-- Sync byte and header of a forward frame (R157): HOP 0, HCHK the complement of the exclusive-OR of W0-W9. -/
def frameHead (ftype : Nat) (ret : Bool) (cyc count ms us : Nat) (acts : List Nat) : List Byte :=
  let ws := [ftype * 4096 + b01 ret * 2048 + cyc % 256, 0, count, ms / 65536, ms % 65536, us,
    acts.getD 0 0, acts.getD 1 0, acts.getD 2 0, acts.getD 3 0]
  syncByte :: (ws ++ [65535 - xorAll ws % 65536]).flatMap (beBytes 2)

/-- The sum of the six nibbles of bits [31:8] (R163). -/
def nibbleSum (w : Nat) : Nat :=
  nfld w 31 28 + nfld w 27 24 + nfld w 23 20 + nfld w 19 16 + nfld w 15 12 + nfld w 11 8

/-- A lantern forward slot (R163). -/
def lanternSlot (op seq arg ats : Nat) : Nat :=
  let w := op * 2 ^ 28 + seq % 16 * 2 ^ 24 + arg % 65536 * 256
  w + ats % 4 * 64 + (63 - (nibbleSum w + ats % 4) % 64)

/-- A NOP slot with a data selector (R164). -/
def nopSlot (dsel : Nat) : Nat := lanternSlot 0 0 dsel 0

/-- The sum of the bytes of a number. -/
def byteSum (n : Nat) : Nat → Nat
  | 0 => 0
  | k + 1 => n / 256 ^ k % 256 + byteSum n k

/-- A PCFG slot (R179). -/
def pcfgSlot (op seq arg : Nat) : Nat :=
  let w := op * 2 ^ 44 + seq % 16 * 2 ^ 40 + arg % 2 ^ 32 * 256
  w + (255 - byteSum w 6 % 256)

/-- The check of a return slot: complement of the sum of its other seven bytes (R170). -/
def returnCheck (status data : Nat) : Bool :=
  status % 256 == 255 - (byteSum (status / 256) 3 + byteSum data 4) % 256

/-- ACK_SEQ, ACK_VALID and DSEL of a status word (R170). -/
def stAckSeq (w : Nat) : Nat := nfld w 27 24
/-- ACK_VALID. -/
def stAckValid (w : Nat) : Bool := w.testBit 23
/-- DSEL. -/
def stDsel (w : Nat) : Nat := nfld w 22 20
/-- MEAS_NONE. -/
def stMeasNone (w : Nat) : Bool := w.testBit 19
/-- RAMPING. -/
def stRamping (w : Nat) : Bool := w.testBit 16
/-- RESTARTED. -/
def stRestarted (w : Nat) : Bool := w.testBit 15
/-- REV_LATE. -/
def stRevLate (w : Nat) : Bool := w.testBit 14
/-- TAIL. -/
def stTail (w : Nat) : Bool := w.testBit 13

/-! ### Lines -/

/-- `MODE` of a line: true for pixel mode (R188). -/
def linePixel (s : State) (n : Nat) : Bool := regB s (linePage n) 0x080 1

/-- `RUN` (R188). -/
def lineRun (s : State) (n : Nat) : Bool := regB s (linePage n) 0x080 0

/-- IDLE: the module's power state (R549). -/
def idleMode (s : State) : Bool := regF s .pwr 0x044 25 24 == 1

/-- A block carries on its own work: enabled, ready, awake and not yet quiesced (R35, R631). -/
def serves (s : State) (p : Page) : Bool := working s p && !quiesced s p

/-- The line can send frames (R184). -/
def lineSends (s : State) (n : Nat) : Bool :=
  lineRun s n && serves s (linePage n) && serves s .lseq && driving s n && inControl s && !s.twin.handing

/-- The pair is busy: a frame on the wire or a return phase. -/
def pairBusy (s : State) (n : Nat) : Bool := (lineOf s n).wire.isSome || (lineOf s n).back.isSome

/-- The period of a lantern line in µs (R191). -/
def linePeriod (s : State) (n : Nat) : Nat := if lineRate s n = 1 then regN s .lseq 0x048 else regN s .lseq 0x044

/-! ### The position map (R185, R186) -/

/-- The index that map entry k of a line holds (R185). -/
def mapIdx (s : State) (n k : Nat) : Nat :=
  let w := reg s (linePage n) (0x100 + 4 * (k / 2))
  if k % 2 = 0 then fld w 15 0 else fld w 31 16

/-- Lines' COUNT in pixel mode: `LN_COUNT` and the drivers found, at most 1,024. -/
def pixCount (s : State) (n : Nat) : Nat := min 1024 (max (regN s (linePage n) 0x088) (lineOf s n).found)

/-- What is wrong with a mapped point (R186): MAP_KIND or MAP_POS. -/
def mapError (s : State) (n k : Nat) : Option Nat :=
  let i := mapIdx s n k
  let c := ptHalf s i
  let kind := cfgKind c
  if i = 0xFFFF then none
  else if ptCount ≤ i then some 0x112
  else if linePixel s n then
    if kind != kindPixel || cfgRadio c then some 0x112
    else if cfgLine c != n || decide (pixCount s n < cfgPos c + cfgCount c) then some 0x113 else none
  else if (kind != kindLine && kind != kindSensor) || cfgRadio c then some 0x112
  else if cfgLine c != n || cfgPos c != k then some 0x113 else none

/-- The point that map entry k serves: none for an unmapped, failing or disabled one (R186, R98). -/
def mapPoint (s : State) (n k : Nat) : Option Nat :=
  let i := mapIdx s n k
  if i < ptCount ∧ mapError s n k = none ∧ ptServed s i then some i else none

/-- The sequencer looks up the mapped points of a frame, and reports those that fail R186. -/
def mapLook (n : Nat) (s : State) : State :=
  let s1 := forEach (fun k t => if mapIdx t n k < ptCount then ptSee (mapIdx t n k) t else t) (List.range 64) s
  let errs := (List.range 64).filterMap (mapError s1 n)
  let s2 := forEach (fun c t => raiseIrq (linePage n) 8 (recErr (linePage n) c t)) errs s1
  setRegB (linePage n) 0x084 5 (!errs.isEmpty) s2

/-- The served point of each map entry, for a frame whose contents are fixed now; none while PTAB serves no lookups, whose
lines see no-op slots (R120, R185, R186). -/
def fixPts (s : State) (n : Nat) : List (Option Nat) :=
  if ptReady s then (List.range 64).map (mapPoint s n) else []

/-- The look-ups of a frame whose contents are fixed now. -/
def fixLook (n : Nat) (s : State) : State := if ptReady s then mapLook n s else s

/-- The point that a lantern position of a frame serves: as looked up when its contents were fixed, and still served
(R98, R185). -/
def framePoint (s : State) (f : LFrame) (p : Nat) : Option Nat :=
  (f.pts.getD p none).filter (ptServed s)

/-- The segment among a frame's points that holds a position. -/
def segIn (s : State) (pts : List (Option Nat)) (p : Nat) : Option Nat :=
  (pts.filterMap id).find? fun i => ptServed s i && decide (cfgPos (ptHalf s i) ≤ p) && decide (p < cfgPos (ptHalf s i) + cfgCount (ptHalf s i))

/-- The segment of a pixel frame that holds a position. -/
def frameSeg (s : State) (f : LFrame) (p : Nat) : Option Nat := segIn s f.pts p

/-- The highest mapped position plus one, 0 for none; an entry that fails R186 is treated as unmapped. -/
def mapTop (s : State) (n : Nat) : Nat :=
  listMax (((List.range 64).filter fun k => mapIdx s n k != 0xFFFF && (!ptReady s || (mapError s n k).isNone)).map (· + 1))

/-- COUNT of an LCYC (R192). -/
def lanternCount (s : State) (n : Nat) : Nat :=
  min 64 (max (min 64 (regN s (linePage n) 0x088)) (max (mapTop s n) (lineOf s n).found))

/-! ### What a slot carries (R193-R199) -/

/-- The offset selector of a command in a frame (R194): its selector and the offsets then in use, or held, counted in
ACT_DEFER where it lacks an offset. -/
inductive ActFit where
  | fits (ats : Nat) (acts : List Nat)
  | held (count : Bool)

/-- Opcodes that use an action time (R164, R396). -/
def usesAct (c : Cmd) : Bool := c.op == 1 || c.op == 2 || c.op == 3 || c.op == 5 || (c.op == 15 && c.arg / 4096 % 16 == 2)

/-- Fits a command's action time into a frame of so many offsets whose header carries NOW_MS (R194). -/
def fitAct (ms : Nat) (acts : List Nat) (c : Cmd) (room : Nat := 4) : ActFit :=
  if !usesAct c || isDue c.act ms then .fits 0 acts
  else
    let off := (c.act + 2 ^ 32 - ms) % 2 ^ 32
    if 65535 < off then .held false
    else match acts.findIdx? (· == off) with
      | some k => .fits k acts
      | none => if acts.length < room then .fits acts.length (acts ++ [off]) else .held true

/-- All commands a position holds. -/
def allCmds (x : LPos) : List Cmd := x.queue ++ x.revokes ++ x.setting.toList

/-- Commands of a position that have a SEQ: on the wire and unacknowledged (R196). -/
def onWire (x : LPos) : Nat := ((allCmds x).filter fun c => c.seq.isSome).length

/-- May go on the wire: the twin holds it, and it is there already, or the position has room for it (R196, R470). -/
def mayGo (x : LPos) (c : Cmd) : Bool := !c.jrn && (c.seq.isSome || decide (onWire x < 2))

/-- The commands a position's slot may carry, the first that fits the frame before the others (R193, R196, R199): the urgent ones not
yet sent, then the REVOKEs not yet sent, then the head of the queue. -/
def pickCmds (x : LPos) (urgentOnly : Bool) : List Cmd :=
  let urg := (x.revokes ++ x.queue).filter fun c => c.urgent && !c.sent && mayGo x c
  if urgentOnly then urg
  else urg ++ (x.revokes.filter fun c => !c.urgent && !c.sent && mayGo x c)
    ++ (x.queue.head?.filter fun c => mayGo x c && !(c.urgent && !c.sent)).toList

/-- The first command a position's slot may carry. -/
def pickCmd (x : LPos) (urgentOnly : Bool) : Option Cmd := (pickCmds x urgentOnly).head?

/-- The first of a list of commands that fits a frame, its selector and the offsets then in use; and how many before it lack an offset
(R194). -/
def firstFit (ms room : Nat) (acts : List Nat) : List Cmd → Option (Cmd × Nat × List Nat) × Nat
  | [] => (none, 0)
  | c :: cs => match fitAct ms acts c room with
    | .fits k as => (some (c, k, as), 0)
    | .held b => let r := firstFit ms room acts cs; (r.1, r.2 + b01 b)

/-- A queued command could go on the wire of its position, and its action time can be expressed (R194, R198). -/
def cmdReady (ms : Nat) (x : LPos) : Bool :=
  x.hist.isSome && !x.failed && (pickCmds x false).any fun c => match fitAct ms [] c with | .fits .. => true | .held _ => false

/-- A setting command that has been sent yields to a queued command that is ready: it is abandoned without a count (R198). -/
def settingYield (n p : Nat) (s : State) : State :=
  let x := lposOf s n p
  if (x.setting.any fun c => c.seq.isSome) && cmdReady (nowMs s) { x with setting := none } then putLpos n p { x with setting := none } s else s

/-- The delay that ranging gave a driver (R181). -/
def delayOf (s : State) (n p : Nat) : Option Nat := spGet (fun _ => none) (lineOf s n).delays p

/-- The settings of a point as the sequencer keeps them (R198): opcode and value; to a driver SET_DELAY too, once the line has
been ranged (R181; DESIGN CHOICE, log 65). -/
def settingsOf (s : State) (n p i : Nat) : List (Nat × Nat) :=
  let c := ptHalf s i
  let win := fld (wordAt c 11) 31 20
  if linePixel s n then
    [(6, cfgFailsafe c), (7, regN s (linePage n) 0x094)] ++ (delayOf s n p).toList.map fun d => (11, d)
  else [(6, cfgFailsafe c), (7, regN s (linePage n) 0x094), (8, fld (wordAt c 6) 15 0), (9, fld (wordAt c 6) 31 16),
    (10, if win = 0 then 40 else win)]

/-- The first setting that differs from what the node last acknowledged (R198). -/
def nextSetting (s : State) (n p i : Nat) (x : LPos) : Option (Nat × Nat) :=
  if regB s .lseq 0x040 2 then (settingsOf s n p i).find? fun v => spGet (fun _ => none) x.copy v.1 != some v.2 else none

/-- The data selector of a position's NOP (R193, R398, R405). -/
def nopSelector (s : State) (n cyc : Nat) (pt : Option Nat) : Nat :=
  let rot := regF s (linePage n) 0x090 (3 * (cyc % 8) + 2) (3 * (cyc % 8))
  match pt with
  | none => rot
  | some i => match nuTarget s i with
    | none => rot
    | some t =>
      let r := spGet (fun _ => 0) s.nupd.rets n
      if nuChecks s t then 4
      else if !nuRuns s then rot
      else if r % 4 == 3 then (if r / 4 % 2 = 0 then 5 else 6) else rot

/-- A frame while its contents are fixed: the points served, offsets, slots, and the commands carried (position, identity). -/
structure Fix where
  st : State
  pts : List (Option Nat) := []
  acts : List Nat := [0]
  slots : List Byte := []
  carried : List (Nat × Nat) := []
  gives : List (Nat × Cmd × Nat) := []

/-- Reports the SEQ of a command that first goes on the wire (R196). -/
def seqReport (c : Cmd) (i seq : Nat) (s : State) : State := if c.src = 0 ∧ levelKind c.op then dimSeq i c.cause seq s else s

/-- Takes the µs an urgent command waited for the sync edge of its first frame (R200). -/
def urgWait (n : Nat) (c : Cmd) (sync : Nat) (s : State) : State :=
  if !c.urgent then s
  else
    let w := max (tbNs s.tb.t0 / 1000) sync - c.since
    let s1 := setReg .lseq 0x058 (word (max (regN s .lseq 0x058) w)) s
    if linePeriod s n < w then raiseIrq .lseq 1 s1 else s1

/-- The SEQ a command of a position goes with: its own, or the next one (R196). -/
def seqFor (x : LPos) (c : Cmd) : Nat := c.seq.getD ((x.hist.getD 15 + 1) % 16)

/-- A command first goes on the wire at a position (R196, R197): it is given its SEQ, which DIM and the twin learn; sending a
level-kind command ends an earlier one that is on the wire; a setting command stays as long as no queued one is ready (R198). -/
def seqTaken (n sync : Nat) (g : Nat × Cmd × Nat) (s : State) : State :=
  let (p, c, q) := g
  let x := lposOf s n p
  let x1 := if levelKind c.op then { x with queue := x.queue.filter fun o => !(levelKind o.op && o.seq.isSome && o.uid != c.uid) } else x
  let x2 := if c.src = 3 then { x1 with setting := some { c with seq := some q } } else lposUpd x1 c.uid fun o => { o with seq := some q }
  let s1 := putLpos n p { x2 with hist := x.hist.map fun _ => q } (urgWait n c sync s)
  jrnTell (.seqGiven c.point p c.uid q) (seqReport c c.point q (settingYield n p s1))

/-- The setting command of a position's slot (R198). -/
def settingCmd (n p i : Nat) (s : State) : Option Cmd :=
  let x := lposOf s n p
  match x.setting with
  | some c => some c
  | none => (nextSetting s n p i x).map fun v => { point := i, op := v.1, arg := v.2, src := 3, uid := s.dim.nextId }

/-- A slot that a command of position p fills, and what the frame gives it. -/
def Fix.fill (f : Fix) (p : Nat) (x : LPos) (c : Cmd) (slot : List Byte) : Fix :=
  { f with
    slots := f.slots ++ slot, carried := f.carried ++ [(p, c.uid)]
    gives := if c.seq.isNone then f.gives ++ [(p, c, seqFor x c)] else f.gives }

/-- The next identity is taken. -/
def idTaken (s : State) : State := { s with dim := { s.dim with nextId := s.dim.nextId + 1 } }

/-- One slot of an LCYC or an LURG. -/
def fixSlot (n cyc ms : Nat) (urgentOnly : Bool) (p : Nat) (f : Fix) : Fix :=
  let s := f.st
  let x := lposOf s n p
  let pt := f.pts.getD p none
  let filler := if urgentOnly then nopSlot 0 else nopSlot (nopSelector s n cyc pt)
  let put := fun (g : Fix) (w : Nat) => { g with slots := g.slots ++ beBytes 4 w }
  match pt with
  | none => put f (nopSlot 0)
  | some i =>
    if x.hist.isNone || x.failed then put f filler
    else
      let r := firstFit ms 4 f.acts (pickCmds { x with setting := none } urgentOnly)
      let g := { f with st := forEach (fun _ t => bumpReg (linePage n) 0x0BC t) (List.range r.2) s }
      match r.1 with
      | some (c, ats, acts) =>
        let y := { x with setting := none }
        { g with st := putLpos n p y g.st, acts := acts }.fill p y c (beBytes 4 (lanternSlot c.op (seqFor y c) c.arg ats))
      | none =>
        if urgentOnly then put g filler
        else match settingCmd n p i g.st with
          | none => put g filler
          | some c => { g with st := idTaken g.st }.fill p x c (beBytes 4 (lanternSlot c.op (seqFor x c) c.arg 0))

/-- The slots of a frame, position by position. -/
def fixSlots (n cyc ms : Nat) (urgentOnly : Bool) : List Nat → Fix → Fix
  | [], f => f
  | p :: ps, f => fixSlots n cyc ms urgentOnly ps (fixSlot n cyc ms urgentOnly p f)

/-- TB0 at the sync edge, 20 µs after the contents are fixed (R157, R192): ACT_MS and the microseconds within it.  A stopped TB0
shows the time it holds (R71). -/
def syncTime (s : State) : Nat × Nat :=
  let ns := tbNs s.tb.t0 + (if enabled s (.tb 0) then 20000 else 0)
  (ns / 1000000 % 2 ^ 32, ns / 1000 % 1000)

/-- CYC of the frame after the one on the wire, if there is one (R157). -/
def cycOf (s : State) (n : Nat) : Nat := (regN s (linePage n) 0x0A4 + b01 (lineOf s n).wire.isSome) % 256

/-- The frame that holds what has been fixed for a sync edge 20 µs ahead (R157, R192). -/
def fixedFrame (n ftype : Nat) (ret : Bool) (count : Nat) (s : State) (f : Fix) : LFrame :=
  let (ms, us) := syncTime s
  { ftype := ftype, ret := ret, count := count, slots := f.slots, carried := f.carried, pts := f.pts, gives := f.gives
    at' := s.tb.cycles, sync := tbNs s.tb.t0 / 1000 + (if enabled s (.tb 0) then 20 else 0), ms := ms, acts := f.acts
    head := frameHead ftype ret (cycOf s n) count ms us f.acts }

/-- Fixes an LCYC of COUNT positions. -/
def fixLantern (n count : Nat) (s : State) : LFrame × State :=
  let f := fixSlots n (cycOf s n) (syncTime s).1 false (List.range count) { st := s, pts := fixPts s n }
  (fixedFrame n 1 true count s f, f.st)

/-- Fixes an LURG up to the highest position that carries a command; none where no position carries one (R172). -/
def fixUrgent (n top : Nat) (s : State) : Option LFrame × State :=
  let f := fixSlots n (cycOf s n) (syncTime s).1 true (List.range top) { st := s, pts := fixPts s n }
  let count := listMax (f.carried.map fun x => x.1 + 1)
  if count = 0 then (none, f.st)
  else (some (fixedFrame n 2 false count s { f with slots := f.slots.take (4 * count) }), f.st)

/-- A firmware frame: all slots NOP with one data selector (R203). -/
def fwFrame (n dsel count : Nat) (s : State) : LFrame :=
  let pix := linePixel s n
  { fixedFrame n (if pix then 5 else 1) true count s
      { st := s, pts := fixPts s n, acts := [0, 0, 0, 0]
        slots := (List.range count).flatMap fun _ => if pix then beBytes 6 (pcfgSlot 0 0 dsel) else beBytes 4 (nopSlot dsel) } with fw := true }

/-- A fixed frame whose sync edge comes later than the one it was fixed for carries the time of its own edge, and its offsets count
from there (R157, R191). -/
def lateHead (n : Nat) (f : LFrame) (s : State) : LFrame :=
  let ns := tbNs s.tb.t0
  if ns / 1000 ≤ f.sync then f
  else
    let ms := ns / 1000000 % 2 ^ 32
    let late := (ms + 2 ^ 32 - f.ms) % 2 ^ 32
    { f with head := frameHead f.ftype f.ret (cycOf s n) f.count ms (ns / 1000 % 1000) (f.acts.map (· - late)) }

/-- Puts a frame on the wire (R143, R154), whose new commands take their SEQs (R196); one that was fixed for a later edge is stale. -/
def wireSend (n : Nat) (f : LFrame) (s : State) : State :=
  let t := forEach (seqTaken n f.sync) f.gives (peTake n s)
  send (.wadi n (f.head ++ f.slots)) (putLine' n { lineOf t n with wire := some f, fixed := none, preOk := false } t)

/-- Puts the frame on the wire that is due, which is also the retry of one that a block reset ended (R43). -/
def lineSend (n : Nat) (f : LFrame) (s : State) : State :=
  wireSend n { f with again := (lineOf s n).again } (putLine' n { lineOf s n with due := false, again := false } s)

end Sys2Proof.Machine
end

