-- ==== Sys2Proof/Machine/Diag.lean ====
section
/-! DEFINITION. Lamp and line diagnostics (R283-R306). -/
namespace Sys2Proof.Machine

/-! ### Points -/

/-- `DIAG_CTRL.MODE`: 0 OFF, 1 ACTIVE, 2 SHADOW (R299). -/
def diagMode (s : State) : Nat := regF s .diag 0x040 1 0

/-- DIAG serves the point (R283). -/
def diagServes (s : State) (i : Nat) : Bool :=
  let c := ptHalf s i
  (isLantern c || cfgKind c == kindPixel) && bit (wordAt c 0) 14 && ptServed s i

/-- A flag of FAULTS. -/
def faultSet (s : State) (i f : Nat) : Bool := bit (ptWord s i 36) f

/-- Sets or clears a flag of FAULTS. -/
def putFault (i f : Nat) (b : Bool) (s : State) : State := engPokeF .diag i 36 f f (b01 b) s

/-- An open suspicion of a flag. -/
def susOf (t : DiagPt) (f : Nat) : Option Suspicion := t.sus.find? fun u => u.flag == f

/-- Opens a suspicion. -/
def openSus (i : Nat) (u : Suspicion) (s : State) : State := putDiag i { diagPt s i with sus := (diagPt s i).sus ++ [u] } s

/-- `LF_n` (R303). -/
def lineFault (s : State) (n : Nat) : Word := reg s .diag (0x100 + 4 * n)

/-- A line fault covers the point's position, or the end of its segment (R288, R294). -/
def lineCovers (s : State) (i : Nat) : Bool :=
  let c := ptHalf s i
  let lf := lineFault s (cfgLine c)
  !cfgRadio c && bit lf 31 && decide (fld lf 10 0 < cfgPos c + max 1 (cfgCount c))

/-! ### Reports -/

/-- Writes an item to the stream; one it refuses is counted (R300). -/
def diagItem (mid : Nat) (s : State) : State :=
  let item := 6 * 2 ^ 60 + mid * 2 ^ 32 + nowSec s
  let (ok, s1) := if accepting s .evq then esPush (regF s .diag 0x040 10 8) item s else (false, s)
  if ok then s1 else raiseIrq .diag 0 (bumpReg .diag 0x05C s1)

/-- The middle bits of a point item: EVT, FBIT, CAUSE, index (R300). -/
def pointMid (evt f cause i : Nat) : Nat := evt * 2 ^ 24 + f * 2 ^ 21 + cause % 32 * 2 ^ 16 + i

/-- The middle bits of a line item: EVT, LINE, CAUSE, POS (R300). -/
def lineMid (evt n cause pos : Nat) : Nat := evt * 2 ^ 24 + n * 2 ^ 18 + cause / 8 * 2 ^ 16 + cause % 8 * 2 ^ 13 + pos * 4

/-- The recorder entry of a lasting decision, with the location of the LINE port or of CRV (R302). -/
def diagRecord (p : Page) (code mid : Nat) (s : State) : State :=
  if regB s .diag 0x040 4 then evrOffer p code (leBytes 8 (6 * 2 ^ 60 + mid * 2 ^ 32 + nowSec s)) s else s

/-- The page whose location a point's records carry. -/
def pointPage (s : State) (i : Nat) : Page :=
  if cfgRadio (ptHalf s i) then .crv else .line (Fin.ofNat 64 (cfgLine (ptHalf s i)))

/-- A point is verified (R285). -/
def diagVerify (i : Nat) (s : State) : State := putFault i 7 false (engPoke .diag i 45 (word (nowSec s)) s)

/-- A lasting decision (R285, R287, R302); a coded lantern is invalidated (R345). -/
def diagLasting (i f cause : Nat) (s : State) : State :=
  let n := fld (ptWord s i 37) 31 16
  let s1 := putFault i f true (engPokeF .diag i 37 31 16 (satInc 65535 n) s)
  let t := diagPt s1 i
  let s2 := putDiag i { t with causes := spPut (fun _ => 0) f cause t.causes, clean := t.clean &&& (255 ^^^ 2 ^ f) } s1
  let s3 := raiseIrq .diag 3 (bumpRegF .diag 0x058 31 16 s2)
  let s4 := diagRecord (pointPage s i) 0x0100 (pointMid 1 f cause i) (diagItem (pointMid 1 f cause i) s3)
  let s5 := if [0, 1, 3, 5].contains f then attrInvalidate i 3 s4 else s4
  if measFlag f then diagVerify i s5 else s5

/-- A transient decision (R287, R300). -/
def diagTransient (i f cause : Nat) (s : State) : State :=
  let n := fld (ptWord s i 37) 15 0
  let s1 := raiseIrq .diag 2 (bumpRegF .diag 0x058 15 0 (engPokeF .diag i 37 15 0 (satInc 65535 n) s))
  if regB s .diag 0x040 6 then diagItem (pointMid 2 f cause i) s1 else s1

/-- A flag clears, reported with a cause (R289). -/
def diagClear (i f cause : Nat) (s : State) : State :=
  let t := diagPt s i
  let s1 := putDiag i { t with causes := spPut (fun _ => 0) f 0 t.causes, clean := t.clean &&& (255 ^^^ 2 ^ f) } (putFault i f false s)
  let s2 := raiseIrq .diag 1 s1
  if regB s .diag 0x040 5 then diagItem (pointMid 3 f cause i) s2 else s2

/-- The causes that set each flag (R301). -/
def flagCauses (f : Nat) : List Nat :=
  match f with
  | 0 => [1, 2] | 1 => [3] | 2 => [4] | 3 => [5, 6, 7, 8] | 4 => [9] | 5 => [0xA] | _ => [0xB, 0xC]

/-- A flag clears with the cause that set it (R301); where DIAG does not know it (a flag that the twin mirrored, or that a
reset outlived), it is the flag's only cause, or a free one of its causes (log 1). -/
def diagCleared (i f : Nat) (s : State) : State :=
  let c := spGet (fun _ => 0) (diagPt s i).causes f
  let codes := flagCauses f
  if c != 0 then diagClear i f c s
  else if codes.length = 1 then diagClear i f (codes.getD 0 0) s
  else diagClear i f (codes.getD (freeN s % codes.length) 0) (used s)

/-! ### Proofs -/

/-- A proof is handed (R290-R292). -/
def proofHand (i act : Nat) (s : State) : State :=
  let s1 := bumpRegF .diag 0x054 15 0 (putDiag i { diagPt s i with proofAt := nowSec s } s)
  { s1 with diag := { s1.diag with offers := s1.diag.offers ++ [{ point := i, op := 5, act := act % 2 ^ 32, src := 1 }] } }

/-- PROOF_LEAD. -/
def proofLead (s : State) : Nat := regF s .diag 0x048 31 16

/-! ### Observations -/

/-- The cause of a suspicion that an observation opens, by flag (R301). -/
def obsCause (f : Nat) (proof : Bool) : Nat :=
  match f with
  | 0 => if proof then 2 else 1
  | 1 => 3 | 2 => 4 | 3 => 6 | 4 => 9 | 5 => 10 | _ => 0

/-- What an observation says of a point (R283, R284, R286): per flag whether the condition shows, none where the observation does
not bear on the flag; whether it may set and clear flags. -/
structure ObsView where
  cond : Nat → Option Bool
  may : Bool
  meas : Bool
  unmeasured : Bool
  proof : Bool

/-- LOAD_OPEN, or no current where a current is given (R286, R291). -/
def obsOpen (s : State) (o : DiagObs) : Bool :=
  o.status.testBit 10 || ((stDsel o.status == 0 || o.status.testBit 8) && decide (nfld o.data 31 16 < regF s .diag 0x044 7 0))

/-- The conditions for PARTIAL hold, V_REF being learned (R286). -/
def obsPartialApplies (o : DiagObs) : Bool :=
  stDsel o.status == 0 && decide (32768 ≤ o.cur) && !stRamping o.status

/-- STR_V is out of tolerance (R286). -/
def obsPartial (s : State) (o : DiagObs) : Bool :=
  let v := nfld o.data 15 0
  let r := (diagPt s o.point).vref
  decide (regF s .diag 0x044 15 8 * r < 100 * (if v ≤ r then r - v else v - r))

/-- A lantern's observation (R283, R284, R286).  HOT and DRV_FAULT ask no measurement; but an observation at level 0, or an
unmeasured one, sets and clears no flag (R284), so there it opens and refutes suspicions of them, and counts as one of the two that
clear a flag, without being the one that sets or clears (DEDUCED, log 72). -/
def lanternView (s : State) (o : DiagObs) : ObsView :=
  let none' := stMeasNone o.status
  let meas := !none' && decide (0 < o.cur)
  { may := meas, meas := meas, unmeasured := none' && decide (0 < o.cur) && !o.status.testBit 8, proof := o.status.testBit 8
    cond := fun f => match f with
      | 3 => some false
      | 0 => if meas then some (obsOpen s o) else none
      | 1 => if meas then some (o.status.testBit 9) else none
      | 2 => if meas && obsPartialApplies o && decide ((diagPt s o.point).vcount = 16) then some (obsPartial s o) else none
      | 4 => some (o.status.testBit 11)
      | 5 => some (o.status.testBit 12)
      | _ => none }

/-- A pixel segment's summary (R286, R295). -/
def pixelView (s : State) (o : DiagObs) : ObsView :=
  { may := true, meas := false, unmeasured := false, proof := false
    cond := fun f => match f with
      | 3 => some (decide (nfld o.status 28 16 < cfgCount (ptHalf s o.point)))
      | 4 => some (o.status.testBit 30)
      | 5 => some (o.status.testBit 31)
      | _ => none }

/-- The retry of an open suspicion decides it (R287, R288). -/
def obsDecide (i : Nat) (v : ObsView) (was : List Suspicion) (f : Nat) (s : State) : State :=
  match was.find? fun u => u.flag == f with
  | none => s
  | some u =>
    match v.cond f with
    | none => s
    | some c =>
      if (u.proof && !v.proof) || (c && !v.may) then s
      else
        let s1 := dropSus i (fun x => x.flag == f) s
        if c then diagLasting i f u.cause s1 else diagTransient i f u.cause s1

/-- A condition without a set flag or an open suspicion opens one (R287, R288); COMMS of a radio point takes none
(R295). -/
def obsOpens (i : Nat) (v : ObsView) (was : List Suspicion) (f : Nat) (s : State) : State :=
  if v.cond f == some true && !faultSet s i f && !was.any (fun u => u.flag == f) then
    openSus i { flag := f, cause := obsCause f v.proof, proof := f == 0 && v.proof } s
  else s

/-- A set flag clears after two observations without its condition (R286, R289). -/
def obsClears (i : Nat) (v : ObsView) (old : Nat) (f : Nat) (s : State) : State :=
  if !old.testBit f || (f == 3 && spGet (fun _ => 0) (diagPt s i).causes 3 == 7) then s
  else match v.cond f with
    | none => s
    | some true => putDiag i { diagPt s i with clean := (diagPt s i).clean &&& (255 ^^^ 2 ^ f) } s
    | some false =>
      if (diagPt s i).clean.testBit f then (if v.may then diagCleared i f s else s)
      else putDiag i { diagPt s i with clean := (diagPt s i).clean ||| 2 ^ f } s

/-- COMMS of cause LINE clears at the point's next valid slot once its line fault is gone (R294). -/
def obsLineClear (i : Nat) (s : State) : State :=
  if faultSet s i 3 && spGet (fun _ => 0) (diagPt s i).causes 3 == 7 && !lineCovers s i then diagClear i 3 7 s else s

/-- V_REF and the string-power accumulator follow a measured observation with DSEL 0 (R286, R293). -/
def obsLearn (o : DiagObs) (s : State) : State :=
  let t := diagPt s o.point
  let v := nfld o.data 15 0
  let fault := [9, 10, 11, 12].any o.status.testBit
  let t1 := { t with acc := min 0xFFFFFFFF (t.acc + v * nfld o.data 31 16 / 100), obs := t.obs + 1 }
  let t2 := if obsPartialApplies o && !fault && decide (t1.vcount < 16) then
      { t1 with vsum := t1.vsum + v, vcount := t1.vcount + 1, vref := if t1.vcount = 15 then (t1.vsum + v) / 16 else t1.vref }
    else t1
  putDiag o.point t2 s

/-- The flags in bit order (R288). -/
def obsFlags : List Nat := [0, 1, 2, 3, 4, 5]

/-- Unmeasured: UNVERIFIED sets, and the suspicions that need a measurement take a proof as their retry, handed at once
(R284, R288). -/
def obsUnmeasured (i : Nat) (s : State) : State :=
  let t := diagPt s i
  let new := t.sus.any fun u => measFlag u.flag && !u.proof
  let s1 := putFault i 7 true (putDiag i { t with sus := t.sus.map fun u => if measFlag u.flag then { u with proof := true } else u } s)
  if new then proofHand i (nowMs s1) s1 else s1

/-- One observation of a served point in ACTIVE (R283-R291): per flag, in bit order, the retry decides and a set flag clears (R288);
then suspicions open.  A proof that finds the node at level 0 abandons every suspicion, and one that opens OPEN takes the retry PROOF
at once (R291). -/
def observeActive (o : DiagObs) (s : State) : State :=
  let i := o.point
  let lantern := isLantern (ptHalf s i)
  let v := if lantern then lanternView s o else pixelView s o
  let s1 := if lantern && (stRestarted o.status || (v.proof && stMeasNone o.status)) then dropSus i (fun _ => true) s else s
  let was := (diagPt s1 i).sus
  let old := fld (ptWord s1 i 36) 7 0
  let s2 := if v.meas && v.proof && v.cond 0 == some true then bumpRegF .diag 0x054 31 16 s1 else s1
  let s4 := forEach (fun f t => obsClears i v old f (obsDecide i v was f (if f = 3 then obsLineClear i t else t))) obsFlags s2
  let s5 := forEach (fun f t => obsOpens i v was f t) obsFlags s4
  let opened := (diagPt s5 i).sus.any fun u => measFlag u.flag && !was.any fun x => x.flag == u.flag
  let s6 := if v.meas && !opened then diagVerify i s5 else s5
  let s7 := if v.unmeasured then obsUnmeasured i s6 else s6
  let s8 := if v.proof && (susOf (diagPt s5 i) 0).isSome && !was.any (fun u => u.flag == 0) then proofHand i (nowMs s7) s7 else s7
  if v.meas && stDsel o.status == 0 then obsLearn o s8 else s8

/-- One observation (R283, R299). -/
def observe (o : DiagObs) (s : State) : State :=
  let i := o.point
  let s0 := ptUse i (putDiag i { diagPt s i with heard := true } s)
  if !diagServes s0 i then dropSus i (fun _ => true) s0
  else if diagMode s = 1 then observeActive o s0
  else if diagMode s = 2 && isLantern (ptHalf s i) && (lanternView s o).meas && stDsel o.status == 0 then obsLearn o s0
  else s0

/-- `OBSERVATION`: DIAG takes the oldest observation (R283, R298). -/
def takeObservation (s : State) : State :=
  match s.diag.obs with
  | [] => s
  | o :: rest => if accepting s .diag && ptReady s then observe o { s with diag := { s.diag with obs := rest } } else s

/-- `OBSERVATION`. -/
def execObservation (s : State) : Out := done s (takeObservation s)

/-! ### Reports of the lines and of commands -/

/-- COMMS is lasting at once (R286). -/
def commsLasting (i cause : Nat) (s : State) : State :=
  if faultSet s i 3 then s else diagLasting i 3 cause (dropSus i (fun u => u.flag == 3) s)

/-- A made return phase brought no valid slot for a served point (R286, R288). -/
def commsMissing (i : Nat) (s : State) : State :=
  if lineCovers s i then s
  else if faultSet s i 3 then putDiag i { diagPt s i with clean := (diagPt s i).clean &&& (255 ^^^ 8) } s
  else match susOf (diagPt s i) 3 with
    | some u => diagLasting i 3 u.cause (dropSus i (fun x => x.flag == 3) s)
    | none => openSus i { flag := 3, cause := 6 } s

/-- The points of a line that DIAG serves. -/
def linePoints (s : State) (n : Nat) : List Nat :=
  (List.range ptCount).filter fun i => !cfgRadio (ptHalf s i) && cfgLine (ptHalf s i) == n && diagServes s i

/-- A point beyond a line fault (R288, R294). -/
def lineFaultPt (i : Nat) (s : State) : State :=
  let s1 := dropSus i (fun _ => true) s
  if faultSet s1 i 3 then s1
  else attrInvalidate i 3 (putFault i 3 true (putDiag i { diagPt s1 i with causes := spPut (fun _ => 0) 3 7 (diagPt s1 i).causes } s1))

/-- `LF_n` holds this line fault. -/
def lineHas (s : State) (n cause pos : Nat) : Bool := bit (lineFault s n) 31 && fld (lineFault s n) 28 24 == cause && fld (lineFault s n) 10 0 == pos

/-- A lasting line fault (R294, R302); one of another cause or place takes the place of the one that `LF_n` holds (DEDUCED, log 173). -/
def lineLasting (n cause pos : Nat) (s : State) : State :=
  if lineHas s n cause pos then s
  else
    let s1 := setReg .diag (0x100 + 4 * n) (word (2 ^ 31 + cause * 2 ^ 24 + pos)) { s with diag := { s.diag with breaks := spPut (fun _ => none) n none s.diag.breaks } }
    let s2 := raiseIrq .diag 4 (bumpRegF .diag 0x058 31 16 s1)
    let s3 := diagRecord (.line (Fin.ofNat 64 n)) 0x0101 (lineMid 4 n cause pos) (diagItem (lineMid 4 n cause pos) s2)
    forEach lineFaultPt ((linePoints s3 n).filter (lineCovers s3)) s3

/-- A return ended early (R294): the second one in a row is a lasting BREAK. -/
def lineEarly (n slots : Nat) (s : State) : State :=
  if lineHas s n 2 slots then s
  else if (spGet (fun _ => none) s.diag.breaks n).isSome then lineLasting n 2 slots s
  else { s with diag := { s.diag with breaks := spPut (fun _ => none) n (some slots) s.diag.breaks } }

/-- A whole return (R294): an open BREAK was transient, and a line fault clears. -/
def lineWhole (n : Nat) (s : State) : State :=
  let s1 := match spGet (fun _ => none) s.diag.breaks n with
    | none => s
    | some pos =>
      let t := raiseIrq .diag 2 (bumpRegF .diag 0x058 15 0 { s with diag := { s.diag with breaks := spPut (fun _ => none) n none s.diag.breaks } })
      if regB s .diag 0x040 6 then diagItem (lineMid 5 n 2 pos) t else t
  let lf := lineFault s1 n
  if bit lf 31 then diagItem (lineMid 6 n (fld lf 28 24) (fld lf 10 0)) (setReg .diag (0x100 + 4 * n) 0 s1) else s1

/-- One report in ACTIVE (R286, R294, R295). -/
def lineReport (r : DiagRep) (s : State) : State :=
  match r with
  | .noReturn i => if diagServes s i then commsMissing i s else s
  | .cmdFail i _ => if diagServes s i then commsLasting i 5 s else s
  | .cmdRetry i => if diagServes s i && !faultSet s i 3 then diagTransient i 3 5 s else s
  | .lost i => if diagServes s i then commsLasting i 8 s else s
  | .silent n => lineLasting n 1 0 s
  | .tailEarly n slots => lineEarly n slots s
  | .wholeReturn n => lineWhole n s
  | .drvShort n => lineLasting n 3 0 s

/-- `LINE_REPORT`: DIAG takes the oldest report (R294, R298). -/
def takeReport (s : State) : State :=
  match s.diag.reps with
  | [] => s
  | r :: rest =>
    if !accepting s .diag || !ptReady s then s
    else
      let s1 := { s with diag := { s.diag with reps := rest } }
      if diagMode s = 1 then lineReport r s1 else s1

/-- `LINE_REPORT`. -/
def execLineReport (s : State) : Out := done s (takeReport s)

/-! ### Proofs that fall due, host commands, burn seconds -/

/-- DIAG_INTERVAL, 0 read as 900 (R290). -/
def diagInterval (s : State) (i : Nat) : Nat :=
  let v := fld (wordAt (ptHalf s i) 11) 16 0
  if v = 0 then 900 else v

/-- A proof is due at a point (R290). -/
def proofDue (s : State) (i : Nat) : Bool :=
  diagServes s i && isLantern (ptHalf s i) && faultSet s i 7 && decide (0 < curLevel s i)
    && decide (diagInterval s i ≤ (nowSec s + 2 ^ 32 - max (ptWord s i 45).toNat (diagPt s i).proofAt) % 2 ^ 32)

/-- Proofs handed on a line in its present cycle. -/
def proofsOn (s : State) (n : Nat) : Nat := spGet (fun _ => 0) s.diag.proofs n

/-- A due proof is handed, the lowest index of a line first, at most PROOF_MAX per line and cycle (R290). -/
def proofGo (i : Nat) (s : State) : State :=
  let c := ptHalf s i
  let n := cfgLine c
  if !accepting s .diag || !ptReady s || diagMode s != 1 || !proofDue s i then s
  else if cfgRadio c then proofHand i (nowMs s + proofLead s) s
  else if regF s .diag 0x040 15 12 ≤ proofsOn s n || (List.range i).any (fun j => !cfgRadio (ptHalf s j) && cfgLine (ptHalf s j) == n && proofDue s j) then s
  else
    let s1 := proofHand i (nowMs s + proofLead s) s
    { s1 with diag := { s1.diag with proofs := spPut (fun _ => 0) n (proofsOn s n + 1) s1.diag.proofs } }

/-- `PROOF_DUE`. -/
def execProofDue (i : Fin 12288) (s : State) : Out := done s (proofGo i.val s)

/-- A point of `PROOF_REQ` is looked up: a proof is handed at once, or PROOF_REFUSED recorded (R292). -/
def proofAsk (i : Nat) (s0 : State) : State :=
  let s := ptUse i s0
  if diagMode s != 1 || !enabled s .diag || !diagServes s i || !isLantern (ptHalf s i) || curLevel s i == 0 then recErr .diag 0x103 s
  else proofHand i (nowMs s + proofLead s) s

/-- A write of `PROOF_REQ` (R292, R305).  It is no work request (R298): a quiesced DIAG serves it, and a disabled one, which does no
work, refuses it with PROOF_REFUSED (DEDUCED, log 163).  While PTAB serves no lookups it waits (R38, R118, R120). -/
def proofReq (v : Word) (s : State) : State :=
  let i := fld v 13 0
  if ptCount ≤ i then recErr .diag 0x102 s
  else if ptReady s then proofAsk i s
  else { s with diag := { s.diag with reqs := s.diag.reqs ++ [i] } }

/-- `PROOF_REQ`. -/
def execProofReq (ini : Ini) (v : Word) (s : State) : Out := done s (admitWrite ini .diag 0x060 v (proofReq v) s)

/-- A write of `CLR` (R289, R305); a SHADOW unit writes no point-table field (R299). -/
def diagClr (v : Word) (s : State) : State :=
  let i := fld v 13 0
  if fld v 31 24 != 0xD1 then recErr .diag 0x101 s
  else if ptCount ≤ i then recErr .diag 0x102 s
  else if diagMode s = 2 then s
  else
    let mask := fld v 23 16
    let s1 := dropSus i (fun u => mask.testBit u.flag) s
    let s2 := forEach (fun f t => if mask.testBit f && faultSet t i f then diagClear i f 0xE t else t) (List.range 8) s1
    if mask.testBit 2 then putDiag i { diagPt s2 i with vref := 0, vsum := 0, vcount := 0 } s2 else s2

/-- `CLR`. -/
def execClr (ini : Ini) (v : Word) (s : State) : Out := done s (admitWrite ini .diag 0x064 v (diagClr v) s)

/-- A burn second of a point (R296). -/
def burnPt (i : Nat) (s : State) : State :=
  let c := ptHalf s i
  if (isLantern c || cfgKind c == kindPixel) && ptServed s i && decide (0 < curLevel s i) && !faultSet s i 0 && !faultSet s i 1 then
    engPoke .diag i 42 (word (satInc 0xFFFFFFFF (ptWord s i 42).toNat)) s
  else s

/-- A burn second of every point. -/
def burnAll (s : State) : State := forEach burnPt (List.range ptCount) s

/-- `BURN_SECOND`: each TB1 second in ACTIVE (R296, R299); while PTAB serves no lookups it waits (R38, R118, R120). -/
def execBurnSecond (s : State) : Out :=
  done s (if !working s .diag || diagMode s != 1 then s
    else if ptReady s then burnAll s
    else { s with diag := { s.diag with burns := s.diag.burns + 1 } })

/-- PTAB serves lookups again: the burn seconds and the points of `PROOF_REQ` that waited are looked up (R38). -/
def diagUnhold (s : State) : State :=
  if ptReady s then
    let s1 := forEach (fun _ t => burnAll t) (List.range s.diag.burns) { s with diag := { s.diag with burns := 0, reqs := [] } }
    forEach proofAsk s.diag.reqs s1
  else s

/-- `RADIO_REPORT_DUE`: a radio point that has sent no report in its interval is asked for one (R295). -/
def radioDue (i : Nat) (s : State) : State :=
  if !accepting s .diag || diagMode s != 1 || !diagServes s i || cfgKind (ptHalf s i) != kindRadio then s
  else if (diagPt s i).heard then putDiag i { diagPt s i with heard := false } s
  else { s with diag := { s.diag with asks := (s.diag.asks.filter (· != i)) ++ [i] } }

/-- `RADIO_REPORT_DUE`. -/
def execRadioReportDue (i : Fin 12288) (s : State) : Out := done s (radioDue i.val s)

/-! ### The cross-check with attribution -/

/-- ATTR_P is outside tolerance: the cause, or none (R293). -/
def pmOutside (s : State) (t : DiagPt) (p : Nat) : Option Nat :=
  let pe := t.acc / t.obs * 100 / regF s .diag 0x048 7 0
  let d := if p ≤ pe then pe - p else p - pe
  if regF s .diag 0x044 23 16 * pe < 100 * d ∧ 100 * regF s .diag 0x048 15 8 < d then some (if pe < p then 0xB else 0xC) else none

/-- A compared result (R286, R287, R289). -/
def pmDecide (i : Nat) (out : Option Nat) (s : State) : State :=
  let t := diagPt s i
  if faultSet s i 6 then
    if out.isSome then putDiag i { t with clean := t.clean &&& (255 ^^^ 64) } s
    else if t.clean.testBit 6 then diagCleared i 6 s
    else putDiag i { t with clean := t.clean ||| 64 } s
  else match susOf t 6, out with
    | some _, some c => diagLasting i 6 c (dropSus i (fun u => u.flag == 6) s)
    | some u, none => diagTransient i 6 u.cause (dropSus i (fun u => u.flag == 6) s)
    | none, some c => openSus i { flag := 6, cause := c } s
    | none, none => s

/-- The attribution correlator has written a new result for a point (R293); a DIAG that does no work makes nothing of it (R631). -/
def diagAttr (i conf p : Nat) (s : State) : State :=
  if !diagServes s i || !isLantern (ptHalf s i) || diagMode s = 0 || !working s .diag then s
  else
    let t := diagPt s i
    let s1 := if diagMode s = 1 && decide (regF s .diag 0x044 31 24 ≤ conf) && decide (conf ≤ 100) && decide (8 ≤ t.obs) then pmDecide i (pmOutside s t p) s else s
    putDiag i { diagPt s1 i with acc := 0, obs := 0 } s1

/-! ### Commits, modes, reset -/

/-- A point's identity has changed (R297); a SHADOW unit writes no point-table field, but V_REF learning and the accumulator restart
(R299). -/
def diagIdentity (i : Nat) (s : State) : State :=
  if diagMode s = 2 then putDiag i {} s
  else engPoke .diag i 45 0 (engPoke .diag i 42 0 (engPoke .diag i 37 0 (engPokeF .diag i 36 7 0 0x80 (putDiag i {} s))))

/-- A configuration half was written: a point that is served no more loses its suspicions (R288). -/
def diagCommit (i : Nat) (s : State) : State := if diagServes s i then s else dropSus i (fun _ => true) s

/-- A mirrored state half carries a new result where the attribution words differ from those held before: the accumulator of a SHADOW
DIAG restarts (R293, R299). -/
def diagMirroredAttr (i : Nat) (old : List Word) (s : State) : State :=
  let w := ptWord s i
  if [39, 48, 49].all (fun k => wordAt old (k - 32) == w k) || diagMode s != 2 || !diagServes s i || !isLantern (ptHalf s i) then s
  else putDiag i { diagPt s i with acc := 0, obs := 0 } s

/-- A mirrored state half carries an observation where NODE_STAT, LAST_SEEN or the string words differ from those held before: in
SHADOW, DIAG learns from it (R299; DESIGN CHOICE, log 125: how DIAG tells that a mirrored half carries one is left open). -/
def diagMirrored (i : Nat) (old : List Word) (s0 : State) : State :=
  let s := diagMirroredAttr i old s0
  let w := ptWord s i
  let o : DiagObs := { point := i, status := (w 33).toNat, data := (w 34).toNat, cur := curLevel s i }
  if [33, 34, 38].all (fun k => wordAt old (k - 32) == w k) || diagMode s != 2 || !diagServes s i then s
  else if isLantern (ptHalf s i) && (lanternView s o).meas && stDsel o.status == 0 then obsLearn o s
  else s

/-- Drops every suspicion (R298, R299). -/
def diagNoSus (s : State) : State :=
  forEach (fun i t => dropSus i (fun _ => true) t) (s.diag.pts.map (·.1)) { s with diag := { s.diag with breaks := [] } }

/-- A change of MODE (R299). -/
def diagModeSet (m : Nat) (s : State) : State :=
  let s1 := setRegF .diag 0x040 1 0 m s
  if m = 1 ∧ diagMode s ≠ 1 then diagNoSus s1 else s1

/-- A write of `DIAG_CTRL` (R304). -/
def diagCtrlWrite (ini : Ini) (v : Word) (s : State) : State :=
  diagModeSet (min 2 (fld v 1 0)) (plainWrite ini .diag 0x040 (setFld v 1 0 (diagMode s)) s)

/-- A write of `DIAG_CTRL` that changes MODE alone. -/
def diagModeWrite (ini : Ini) (m : Nat) (s : State) : State :=
  admitWrite ini .diag 0x040 (setFld (reg s .diag 0x040) 1 0 m) (diagCtrlWrite ini (setFld (reg s .diag 0x040) 1 0 m)) s

/-- `DIAG_MODE_OFF`. -/
def execDiagModeOff (ini : Ini) (s : State) : Out := done s (diagModeWrite ini 0 s)
/-- `DIAG_MODE_SHADOW`. -/
def execDiagModeShadow (ini : Ini) (s : State) : Out := done s (diagModeWrite ini 2 s)
/-- `DIAG_MODE_ACTIVE`. -/
def execDiagModeActive (ini : Ini) (s : State) : Out := done s (diagModeWrite ini 1 s)

/-- A write of `WORK_BASE` (R303, R305). -/
def diagWorkWrite (ini : Ini) (v : Word) (s : State) : State :=
  if enabled s .diag || v.toNat % 0x80000 != 0 || !inDram v.toNat 0x80000 then recErr .diag 0x100 s else plainWrite ini .diag 0x04C v s

/-- The registers of DIAG whose reads are computed: `DIAG_STAT` (R303). -/
def diagView (s : State) (off : Nat) : Option Word :=
  if off = 0x050 then
    let n := (s.diag.pts.map fun x => x.2.sus.length).sum
    let l := ((List.range 64).filter fun k => bit (lineFault s k) 31).length
    some (word (min 16383 n * 65536 + l * 256 + b01 (!s.diag.obs.isEmpty || !s.diag.reps.isEmpty)))
  else none

/-- A block reset of DIAG (R298). -/
def diagDatapath (s : State) : State :=
  let s1 := forEach (fun i t => putDiag i { diagPt t i with sus := [], acc := 0, obs := 0 } t) (s.diag.pts.map (·.1)) s
  { s1 with diag := { s1.diag with proofs := [], breaks := [], asks := [] } }

end Sys2Proof.Machine
end

