-- ==== Sys2Proof/Machine/Attr.lean ====
section
/-! DEFINITION. The per-lantern energy attribution: selection, chips, solving, results, energy (R337-R355). -/
namespace Sys2Proof.Machine

/-! ### Codes -/

/-- The six values of the sequence from n on, as a shift register whose low bit is a(n) (R337). -/
def attrSeq : Nat → Nat
  | 0 => 1
  | n + 1 => let r := attrSeq n; r / 2 + (if (r % 2 == 1) != (r / 2 % 2 == 1) then 32 else 0)

/-- c_k(n) = +1 (R337). -/
def attrPlus (k n : Nat) : Bool := attrSeq ((n + 4 * k) % 63) % 2 == 1

/-- `ATTR_CTRL.MODE`: 0 OFF, 1 ACTIVE, 2 SHADOW (R352). -/
def attrMode (s : State) : Nat := regF s .attr 0x040 1 0

/-- D = (F × 1,311) >> 16 (R338). -/
def attrStep (f : Nat) : Nat := f * 1311 / 65536

/-- `CIRC_c` of MET. -/
def circOf (s : State) (c : Nat) : Word := reg s .met (0x080 + 4 * c)

/-- The current channel of a circuit's phase, if the phase names a slot (R310, R311). -/
def circSlot (w : Word) (ph : Nat) : Option Nat :=
  match ph with
  | 0 => some (fld w 4 0)
  | 1 => if bit w 30 then some (fld w 9 5) else none
  | 2 => if bit w 30 then some (fld w 14 10) else none
  | _ => none

/-- The voltage channel of a circuit's phase (R310). -/
def circVolt (w : Word) (ph : Nat) : Nat := fld w (19 + 2 * ph) (18 + 2 * ph)

/-! ### Selection -/

/-- A trigger unit with TARGET 0x20 fires every 200 ms on TB0 at whole 200 ms instants, and the windows follow it
(R341, R314); TTRIG runs, since its units fire only then (R71). -/
def attrWinOk (s : State) : Bool :=
  trgRuns s && regB s .met 0x048 0 && (List.range 16).any fun u =>
    trgEn s u && trgTarget s u == 0x20 && regF s .ttrig (0x100 + 0x20 * u) 5 4 == 0
      && regN s .ttrig (0x10C + 0x20 * u) == 200000000 && regN s .ttrig (0x108 + 0x20 * u) % 200000000 == 0

/-- WIN_SRC is set, and recorded when it rises (R341). -/
def attrNoWin (s : State) : State :=
  if regB s .attr 0x04C 8 then s else recErr .attr 0x100 (setRegB .attr 0x04C 8 true s)

/-- A point is eligible for a round on circuit c (R339). -/
def attrEligible (s : State) (c i : Nat) : Bool :=
  let h := ptHalf s i
  let f := (dimFinal s i (nowMs s)).level
  isLantern h && ptServed s i && !bit (wordAt h 0) 10 && bit (wordAt h 12) 16 && cfgCircuit h == c
    && bit (circOf s c) 31 && (circSlot (circOf s c) (cfgPhase h)).isSome
    && !([3, 4, 5, 6, 7].any fun p => admits h p && (reqOf s i p).valid)
    && !bit (ptWord s i 44) 4 && !([0, 1, 3, 5].any (faultSet s i))
    && decide (regF s .attr 0x044 15 0 ≤ f - attrStep f) && decide (f + attrStep f ≤ fld (wordAt h 5) 31 16)

/-- The part of eligibility that a commit can take from a coded lantern (R339, R345): the configuration, with its base level F. -/
def attrConfigOk (s : State) (c : Nat) (l : AttrLan) : Bool :=
  let i := l.point
  let h := ptHalf s i
  isLantern h && ptServed s i && !bit (wordAt h 0) 10 && bit (wordAt h 12) 16 && cfgCircuit h == c
    && (circSlot (circOf s c) (cfgPhase h)).isSome
    && !([3, 4, 5, 6, 7].any fun p => admits h p && (reqOf s i p).valid)
    && decide (l.f + l.d ≤ fld (wordAt h 5) 31 16)

/-- CONF of a point (R95). -/
def attrConf (s : State) (i : Nat) : Nat := fld (ptWord s i 39) 31 24

/-- Whether point i is selected before point j: no result first, then the older result, then the lower index (R340). -/
def attrFirst (s : State) (i j : Nat) : Bool :=
  let k := fun n => if attrConf s n = 0xFF then 0 else 1 + (ptWord s n 49).toNat
  decide (k i < k j) || (k i == k j && decide (i < j))

/-- Puts a point in the order of selection. -/
def attrInsert (s : State) (i : Nat) : List Nat → List Nat
  | [] => [i]
  | j :: l => if attrFirst s i j then i :: j :: l else j :: attrInsert s i l

/-- The points a selection takes, in code order (R340). -/
def attrPick (s : State) (c : Nat) : List Nat :=
  (((List.range ptCount).filter (attrEligible s c)).foldl (fun l i => attrInsert s i l) []).take 16

/-- The lantern of a point with a code in a round that starts at a TB0 second: its base level is its final level at that instant, as
far as it is known (R338; DEDUCED, log 17). -/
def attrLan (s : State) (start i k : Nat) : AttrLan :=
  let f := (dimFinal s i (start * 1000 % 2 ^ 32)).level
  { point := i, code := k, slot := cfgPhase (ptHalf s i), f := f, d := attrStep f }

/-- CODE, CODING and D go to the round state of a lantern (R354). -/
def attrMark (l : AttrLan) (s : State) : State :=
  engPokeF .attr l.point 51 31 16 l.d (engPoke .attr l.point 48 (setBit (setFld (ptWord s l.point 48) 7 4 l.code) 3 true) s)

/-- The first TB0 second divisible by 2 at least LEAD away (R341). -/
def attrStart (s : State) (lead : Nat) : Nat := (tbNs s.tb.t0 + lead * 1000000 + 1999999999) / 2000000000 * 2

/-- The selection of a circuit (R339-R341). -/
def attrSelect (c : Nat) (s : State) : State :=
  let r := attrRound s c
  if attrMode s != 1 || !accepting s .attr || !regB s .attr 0x048 c || !(r.state == 0 || r.state == 4) || !ptReady s then s
  else if !attrWinOk s then attrNoWin s
  else
    let lead := regF s .attr 0x044 31 16
    let start := attrStart s lead
    let lans := (attrPick s c).zipIdx.map fun x => attrLan s start x.1 x.2
    if lans.isEmpty then putRound c { state := 4, cause := r.cause } s
    else forEach attrMark lans (putRound c { state := 1, s := start, lead := lead, lans := lans, cause := r.cause } s)

/-- `ATTR_SELECT`: the gap has passed. -/
def execAttrSelect (c : Fin 24) (s : State) : Out := done s (attrSelect c.val s)

/-- A selected round that may not start: its lanterns leave their code, and nothing is counted (R341). -/
def attrDropRound (c : Nat) (s : State) : State :=
  let pts := ((attrRound s c).lans.filter fun l => l.inval.isNone).map (·.point)
  let s1 := forEach (fun i t => putChip i 0 (engPokeF .attr i 48 3 3 0 t)) pts (attrUnoffer pts (putRound c { state := 4, cause := (attrRound s c).cause } s))
  if pts.isEmpty then s1 else dimQueue { points := pts, kind := 3 } s1

/-! ### Chips -/

/-- The start of chip n of a round, as an action time. -/
def chipAct (r : AttrRound) (n : Nat) : Nat := (r.s + 2 * n) * 1000 % 2 ^ 32

/-- The base level and step of a lantern follow its final level until the round starts (R338). -/
def lanBase (c i f : Nat) (s : State) : State :=
  let r := attrRound s c
  let lans := r.lans.map fun l => if l.point = i then { l with f := f, d := attrStep f } else l
  engPokeF .attr i 51 31 16 (attrStep f) (putRound c { r with lans := lans } s)

/-- The step of chip n of a lantern; none after the last chip. -/
def chipStep (l : AttrLan) (n : Nat) : Int := if n = 63 then 0 else if attrPlus l.code n then attrStep l.f else -(attrStep l.f : Int)

/-- Chip n's level of a lantern goes to DIM: F and the chip's step (R342). -/
def chipOffer (c n : Nat) (w : Want) (l : AttrLan) (s : State) : State :=
  let s1 := putChip l.point (chipStep l n) s
  dimOffer { point := l.point, op := 2, arg := (clampInt 0 65535 ((l.f : Int) + chipStep l n)).toNat, act := chipAct (attrRound s c) n
             cause := w.id, prio := w.prio, chip := decide (n < 63) } s1

/-- A coded lantern's level of chip n goes to DIM where it differs from the one before (R342).  Until the round starts its base
level is its final level at that instant; then a final level that is F no more drops the lantern (R338, R345). -/
def chipHand (c n : Nat) (l : AttrLan) (s : State) : State :=
  let r := attrRound s c
  if l.inval.isSome || (attrLanOf r l.point).isNone then s
  else
    let w := dimFinal s l.point (if r.state = 1 then chipAct r 0 else nowMs s)
    if w.level ≠ l.f ∧ r.state ≠ 1 then attrInvalidate l.point 2 s
    else if n != 0 && n != 63 && attrPlus l.code n == attrPlus l.code (n - 1) then s
    else if w.level = l.f then chipOffer c n w l s
    else chipOffer c n w { l with f := w.level, d := attrStep w.level } (lanBase c l.point w.level s)

/-- The round's start fixes the base level of a lantern: its final level at that instant.  Where it is not the one its first chip was
handed over with, that chip's level goes out again (R338). -/
def lanFix (c : Nat) (l : AttrLan) (s : State) : State :=
  let w := dimFinal s l.point (nowMs s)
  if l.inval.isSome || w.level == l.f then s
  else
    let s1 := lanBase c l.point w.level s
    if 0 < (attrRound s c).next then chipOffer c 0 w { l with f := w.level, d := attrStep w.level } s1 else s1

/-- A round starts at S (R338, R341). -/
def roundStart (c : Nat) (s : State) : State :=
  let r := attrRound s c
  if r.state != 1 || decide (tbNs s.tb.t0 < r.s * 1000000000) then s
  else if !attrWinOk s then attrDropRound c (attrNoWin s)
  else
    let s1 := forEach (lanFix c) r.lans s
    putRound c { attrRound s1 c with state := 2 } s1

/-- `ROUND_START`. -/
def execRoundStart (c : Fin 24) (s : State) : Out := done s (roundStart c.val s)

/-- The chip levels that are due LEAD before their chip are handed over; after chip 62, the uncoded level (R342). -/
def chipHandover (c : Nat) (s : State) : State :=
  let r := attrRound s c
  if !attrRunning r || decide (63 < r.next) || !accepting s .dim
      || decide (tbNs s.tb.t0 + r.lead * 1000000 < (r.s + 2 * r.next) * 1000000000) then s
  else
    let s1 := forEach (chipHand c r.next) r.lans s
    putRound c { attrRound s1 c with next := r.next + 1 } s1

/-- `CHIP_HANDOVER`. -/
def execChipHandover (c : Fin 24) (s : State) : Out := done s (chipHandover c.val s)

/-- The ns from a round's S to an instant whose seconds are counted modulo 2^32, on that circle. -/
def sinceRound (r : AttrRound) (start : Nat) : Nat := (start + 2 ^ 32 * 1000000000 - r.s % 2 ^ 32 * 1000000000) % (2 ^ 32 * 1000000000)

/-- A window's powers join the chip in whose measured span it starts (R343). -/
def attrSum (power : Nat → Option Int) (c n : Nat) (s : State) : State :=
  let r := attrRound s c
  let sums := (List.range 3).foldl (fun m ph =>
    match (circSlot (circOf s c) ph).bind power with
    | none => m
    | some p => let q := spGet (fun _ => ((0 : Int), 0)) m (ph * 64 + n); spPut (fun _ => ((0 : Int), 0)) (ph * 64 + n) (q.1 + p, q.2 + 1) m) r.sums
  putRound c { r with sums := sums } s

/-- A window that MET has published, by the TB0 nanoseconds of its start and the power of each phase slot that was valid (R343).  The
chips before its own have had all their windows, and too many lost ones void the round at once (R346). -/
def attrMeasure (start : Nat) (power : Nat → Option Int) (c : Nat) (s : State) : State :=
  let r := attrRound s c
  let d := sinceRound r start
  let n := d / 2000000000
  if r.state != 2 || decide (2 ^ 31 < n) then s
  else
    let s1 := attrNoisy c (putRound c { r with heard := max r.heard (min 63 n) } s)
    if (attrRound s1 c).state != 2 || decide (62 < n) || decide (d % 2000000000 < 200000000) then s1 else attrSum power c n s1

/-! ### Solving -/

/-- Element j of a row. -/
def ratAt (r : List Rat) (j : Nat) : Rat := r.getD j 0

/-- The sum of the products of two rows. -/
def ratDot (a b : List Rat) : Rat := ((a.zip b).map fun x => x.1 * x.2).foldl (· + ·) 0

/-- One step of the elimination; none where the pivot is zero. -/
def elimStep (m : Option (List (List Rat))) (j : Nat) : Option (List (List Rat)) :=
  m.bind fun rows =>
    let row := rows.getD j []
    let p := ratAt row j
    if p = 0 then none
    else
      let q := row.map (· / p)
      some (rows.zipIdx.map fun x => if x.2 = j then q else (x.1.zip q).map fun y => y.1 - ratAt x.1 j * y.2)

/-- The least-squares fit of y by columns: for each column its coefficient and the square of its standard error, from the
residual variance and the diagonal of the inverted normal matrix (R347). -/
def lsFit (cols : List (List Rat)) (y : List Rat) : Option (List (Rat × Rat)) :=
  let p := cols.length
  let rows := cols.zipIdx.map fun x =>
    cols.map (ratDot x.1) ++ (List.range p).map (fun j => if j = x.2 then 1 else 0) ++ [ratDot x.1 y]
  match (List.range p).foldl elimStep (some rows) with
  | none => none
  | some m =>
    if y.length ≤ p then none
    else
      let b := m.map fun r => ratAt r (2 * p)
      let rss := ratDot y y - ratDot b (cols.map fun c => ratDot c y)
      let v := rss / ((y.length - p : Nat) : Rat)
      some (m.zipIdx.map fun x => (ratAt x.1 (2 * p), v * ratAt x.1 (p + x.2)))

/-- A chip with fewer than five windows, or one that was masked, is not used (R343, R344). -/
def chipUsed (r : AttrRound) (slot n : Nat) : Bool :=
  !attrMasked r slot n && decide (5 ≤ (spGet (fun _ => ((0 : Int), 0)) r.sums (slot * 64 + n)).2)

/-- The code column of a lantern, zero from the chip of its invalidation (R345). -/
def codeAt (l : AttrLan) (n : Nat) : Rat :=
  if (match l.inval with | some (_, k) => decide (k ≤ n) | none => false) then 0 else if attrPlus l.code n then 1 else -1

/-- The swings and squared errors of the lanterns of a slot, none where the fit does not determine them (R347). -/
def slotFit (r : AttrRound) (slot : Nat) : List (Nat × Option (Rat × Rat)) :=
  let ns := (List.range 63).filter (chipUsed r slot)
  let lans := (r.lans.filter fun l => l.slot == slot).filter fun l => ns.any fun n => codeAt l n != 0
  let y := ns.map fun n => let q := spGet (fun _ => ((0 : Int), 0)) r.sums (slot * 64 + n); (q.1 : Rat) / (q.2 : Rat)
  let cols := ns.map (fun _ => (1 : Rat)) :: ns.map (fun n : Nat => (n : Rat) - 31) :: lans.map fun l => ns.map (codeAt l)
  match lsFit cols y with
  | none => lans.map fun l => (l.code, none)
  | some fits => lans.zipIdx.map fun x => (x.1.code, some (fits.getD (x.2 + 2) (0, 0)))

/-- CONF = floor(100 × max(0, 1 - 10 σ / s)) for s > 0 (R348): the largest c with (100 - c)² s² ≥ 10^6 σ². -/
def attrConfOf (sw var : Rat) : Nat :=
  (((List.range 101).reverse).find? fun c => decide (1000000 * var ≤ ((100 - c : Nat) : Rat) * ((100 - c : Nat) : Rat) * sw * sw)).getD 0

/-- ATTR_P and CONF of a lantern (R348); open where the fit does not determine its swing, or D is 0 (log 18). -/
def attrResult (s : State) (l : AttrLan) : Option (Rat × Rat) → Nat × Nat
  | none => (freeN s % 2 ^ 24, freeN s / 2 ^ 24 % 101)
  | some (sw, var) =>
    if sw ≤ 0 then (0, 0)
    else if l.d = 0 then (freeN s % 2 ^ 24, attrConfOf sw var)
    else ((clampInt 0 16777215 (ratRound s (sw * (l.f : Rat) / (l.d : Rat)))).toNat, attrConfOf sw var)

/-- Writes a lantern's result, tells DIAG, and notes its view (R348, R354); a point that is not served any more takes none, as one that a
commit had dropped (R97, R98, R345). -/
def attrWriteResult (c : Nat) (fits : List (Nat × Option (Rat × Rat))) (l : AttrLan) (s : State) : State :=
  let base := 0x140 + 8 * l.code
  let note := fun a b t => let r := attrRound t c; putRound c { r with view := r.view ++ [(base, word a), (base + 4, word b)] } t
  match if ptServed s l.point then l.inval else l.inval.or (some (4, 62)) with
  | some (cause, _) => note (cause * 2 ^ 28 + l.slot * 2 ^ 24 + l.point) 0 s
  | none =>
    let (p, conf) := attrResult s l ((fits.find? fun x => x.1 == l.code).bind (·.2))
    let w := ptWord s l.point 48
    let s1 := engPoke .attr l.point 39 (word (conf * 2 ^ 24 + p)) (used s)
    let s2 := engPoke .attr l.point 48 (setBit (setFld (setFld w 31 16 l.f) 15 8 (satInc 255 (fld w 15 8))) 3 false) s1
    let s3 := diagAttr l.point conf p (engPoke .attr l.point 49 (word (nowSec s)) s2)
    note (2 ^ 31 + l.slot * 2 ^ 24 + l.point) (conf * 2 ^ 24 + p) s3

/-- The end of a round: void where too many chips are masked, else its results are worked out (R346, R350). -/
def attrSolve (c : Nat) (s : State) : State :=
  let r := attrRound s c
  if r.state != 2 || decide (tbNs s.tb.t0 < (r.s + 126) * 1000000000) then s
  else
    let s1 := attrNoisy c (putRound c { r with heard := 63 } s)
    if (attrRound s1 c).state != 2 then s1
    else forEach (fun l t => putChip l.point 0 t) r.lans (setRegB .attr 0x104 0 false (putRound c { attrRound s1 c with state := 3, view := [] } s1))

/-- `ATTR_SOLVE`. -/
def execAttrSolve (c : Fin 24) (s : State) : Out := done s (attrSolve c.val s)

/-- The result view is replaced, and READY sets (R350). -/
def roundShow (c : Nat) (s : State) : State :=
  let r := attrRound s c
  let s1 := forEach (fun k t => setReg .attr (0x144 + 8 * k) 0 (setReg .attr (0x140 + 8 * k) 0 t)) (List.range 16) s
  let s2 := forEach (fun x t => setReg .attr x.1 x.2 t) r.view s1
  let s3 := setReg .attr 0x108 (word (r.s % 2 ^ 32)) (setReg .attr 0x104 (word (c * 2 ^ 16 + r.lans.length * 2 ^ 8 + 1)) s2)
  let s4 := setReg .attr 0x100 (reg s .attr 0x100 + 1) s3
  raiseIrq .attr 0 (bumpRegF .attr 0x050 15 0 (putRound c { state := 4, cause := r.cause } s4))

/-- The results go to the lanterns' points slot by slot, and the round is published (R347-R350); while PTAB serves no lookups this
waits (R38, R118, R120). -/
def roundDone (c : Nat) (s : State) : State :=
  let r := attrRound s c
  if r.state != 3 then s
  else if !ptReady s then putRound c { r with waits := true } s
  else
    let fits := (List.range 3).flatMap (slotFit r)
    roundShow c (forEach (attrWriteResult c fits) r.lans s)

/-- `ROUND_DONE`. -/
def execRoundDone (c : Fin 24) (s : State) : Out := done s (roundDone c.val s)

/-! ### Energy -/

/-- A point's energy of a published window of `len` samples (R349). -/
def attrEnergyPt (len i : Nat) (s : State) : State :=
  let l := curLevel s i
  if attrConf s i = 0xFF || l = 0 || !ptServed s i then s
  else
    let fr := fld (ptWord s i 48) 31 16
    let num := fld (ptWord s i 39) 23 0 * l * len * 2 ^ 32
    let den := fr * 32000 * 3600
    let add := if fr = 0 then freeN s % 2 ^ 40 else num / den + (if num % den = 0 then 0 else freeN s % 2)
    let e := ((ptWord s i 41).toNat * 2 ^ 32 + (ptWord s i 40).toNat) * 2 ^ 32 + (ptWord s i 50).toNat + add
    used (engPoke .attr i 50 (word (e % 2 ^ 32)) (engPoke .attr i 40 (word (e / 2 ^ 32 % 2 ^ 32)) (engPoke .attr i 41 (word (e / 2 ^ 64 % 2 ^ 32)) s)))

/-- The energy of every point at the end of a published window; ATTR must be ACTIVE (R349, R352).  While PTAB serves no lookups it
waits (R38, R118, R120). -/
def attrEnergy (len : Nat) (s : State) : State :=
  if attrMode s != 1 || !working s .attr then s
  else if ptReady s then forEach (attrEnergyPt len) (List.range ptCount) s
  else { s with attr := { s.attr with windows := s.attr.windows ++ [len] } }

/-- PTAB serves lookups again: the energy of the windows that waited is added, and results that waited are written (R38). -/
def attrUnhold (s : State) : State :=
  if ptReady s then
    let s1 := forEach (fun len t => forEach (attrEnergyPt len) (List.range ptCount) t) s.attr.windows { s with attr := { s.attr with windows := [] } }
    forEach (fun c t => if (attrRound t c).waits then roundDone c t else t) (List.range 24) s1
  else s

/-! ### Registers -/

/-- A write of `ABORT` (R346, R355). -/
def attrAbort (v : Word) (s : State) : State :=
  let c := fld v 4 0
  if fld v 31 24 != 0xA7 || decide (23 < c) || !attrOpen (attrRound s c) then recErr .attr 0x101 s else attrVoid c 4 s

/-- `ABORT`. -/
def execAbort (ini : Ini) (v : Word) (s : State) : Out := done s (admitWrite ini .attr 0x058 v (attrAbort v) s)

/-- A change of MODE: away from ACTIVE every round is void (R346, R352). -/
def attrModeSet (m : Nat) (s : State) : State :=
  let s1 := if attrMode s = 1 ∧ m ≠ 1 then attrVoidAll 5 s else s
  setRegF .attr 0x040 1 0 m s1

/-- A write of `ATTR_CTRL` (R353). -/
def attrCtrlWrite (ini : Ini) (v : Word) (s : State) : State :=
  attrModeSet (min 2 (fld v 1 0)) (plainWrite ini .attr 0x040 (setFld v 1 0 (attrMode s)) s)

/-- A write of `ATTR_CTRL` that changes MODE alone. -/
def attrModeWrite (ini : Ini) (m : Nat) (s : State) : State :=
  admitWrite ini .attr 0x040 (setFld (reg s .attr 0x040) 1 0 m) (attrCtrlWrite ini (setFld (reg s .attr 0x040) 1 0 m)) s

/-- `ATTR_MODE_OFF`. -/
def execAttrModeOff (ini : Ini) (s : State) : Out := done s (attrModeWrite ini 0 s)
/-- `ATTR_MODE_SHADOW`. -/
def execAttrModeShadow (ini : Ini) (s : State) : Out := done s (attrModeWrite ini 2 s)
/-- `ATTR_MODE_ACTIVE`. -/
def execAttrModeActive (ini : Ini) (s : State) : Out := done s (attrModeWrite ini 1 s)

/-- A write of `CIRC_EN`: a circuit whose bit clears loses its round (R346). -/
def circEnWrite (ini : Ini) (v : Word) (s : State) : State :=
  let s1 := plainWrite ini .attr 0x048 v s
  forEach (fun c t => if regB s .attr 0x048 c && !bit v c then attrVoid c 3 t else t) (List.range 24) s1

/-- `RND_STAT_c` (R353). -/
def rndStat (s : State) (c : Nat) : Word :=
  let r := attrRound s c
  let chip := if r.state = 2 then min 62 ((tbNs s.tb.t0 - r.s * 1000000000) / 2000000000) else 0
  word (r.state * 2 ^ 28 + chip * 2 ^ 22 + lostMost r r.lans * 2 ^ 16 + r.lans.length * 2 ^ 8 + r.cause)

/-- The registers of ATTR whose reads are computed. -/
def attrView (s : State) (off : Nat) : Option Word :=
  if off = 0x04C then
    some (setFld (reg s .attr 0x04C) 28 24 ((List.range 24).filter fun c => attrRunning (attrRound s c)).length)
  else if 0x080 ≤ off ∧ off < 0x0E0 then some (rndStat s ((off - 0x080) / 4))
  else none

/-- Rounds in progress are ATTR's work. -/
def attrBusy (s : State) : Bool := (List.range 24).any fun c => attrOpen (attrRound s c)

/-- DIM has uncoded levels to hand over: a quiescing ATTR waits for it (R352). -/
def attrUncodes (s : State) : Bool := serving s .dim && (s.dim.queue.any (·.kind == 3) || s.dim.offers.any (·.uncode))

/-- A block reset of ATTR voids every round; the cause of the last one stays to be read (R352, R353). -/
def attrDatapath (s : State) : State :=
  let s1 := attrVoidAll 6 s
  { s1 with attr := { rounds := s1.attr.rounds } }

end Sys2Proof.Machine
end

