-- ==== Sys2Proof/Machine/Met.lean ====
section
/-! DEFINITION. Feeder metrology: samples, windows, energy, snapshots, persistence, residual currents (R307-R336). -/
namespace Sys2Proof.Machine

/-- MET and its channels sample: enabled and ready; sleep gates the window results only (R318, R329). -/
def metRuns (s : State) : Bool := enabled s .met && !inReset s .met

/-- The page of a channel. -/
def mchPage (n : Nat) : Page := .mch (Fin.ofNat 30 n)

/-- `VPRES` in mV. -/
def vPres (s : State) : Nat := regF s .met 0x040 31 16 * 1000

/-- Changes MET's state. -/
def onMet (f : Met → Met) (s : State) : State := { s with met := f s.met }

/-- Part i of the free value in use, of some bits. -/
def freePart (s : State) (i bits : Nat) : Nat := freeN s / 2 ^ (128 * i) % 2 ^ bits

/-- A quotient whose rounding below the unit the manual leaves open. -/
def divOpen (s : State) (i num den : Nat) : Nat := num / den + (if num % den = 0 then 0 else freePart s i 1)

/-- The same of a signed number. -/
def divOpenI (s : State) (i : Nat) (num : Int) (den : Nat) : Int := num / (den : Int) + (if num % (den : Int) = 0 then 0 else (freePart s i 1 : Nat))

/-- The square root, rounded down, found bit by bit from the top. -/
def sqrtBits (n : Nat) : Nat → Nat → Nat
  | 0, r => r
  | k + 1, r => if (r + 2 ^ k) * (r + 2 ^ k) ≤ n then sqrtBits n k (r + 2 ^ k) else sqrtBits n k r

/-- A square root whose rounding the manual leaves open. -/
def sqrtOpen (s : State) (i n : Nat) : Nat :=
  let r := sqrtBits n 160 0
  r + (if r * r = n then 0 else freePart s i 1)

/-! ### Circuits -/

/-- A circuit is in service (R310). -/
def circEnabled (s : State) (c : Nat) : Bool := bit (circOf s c) 31

/-- The current channels a circuit's word names (R311). -/
def circChannels (w : Word) : List Nat := (List.range 3).filterMap (circSlot w)

/-- The enabled circuit and the phase of a phase slot. -/
def slotCircuit (s : State) (k : Nat) : Option (Nat × Nat) :=
  ((List.range 24).flatMap fun c => (List.range 3).map fun p => (c, p)).find? fun x =>
    circEnabled s x.1 && circSlot (circOf s x.1) x.2 == some k

/-- The voltage channel of a phase slot. -/
def slotVolt (s : State) (k : Nat) : Option Nat := (slotCircuit s k).map fun x => circVolt (circOf s x.1) x.2

/-- R311 refuses the word for circuit c. -/
def circInvalid (s : State) (c : Nat) (w : Word) : Bool :=
  let ch := circChannels w
  let others := (List.range 24).filter fun d => d != c && circEnabled s d
  ch.any (23 < ·) || ch.any (fun k => others.any fun d => (circChannels (circOf s d)).contains k) || ch.eraseDups.length != ch.length
    || (!bit w 30 && (w &&& 0x00F07FE0) != 0)

/-- A write of `CIRC_c` (R310, R311); disabling a circuit voids its round (R346). -/
def circWrite (ini : Ini) (c : Nat) (v : Word) (s : State) : State :=
  let w := v &&& 0xE0FC7FFF
  if circEnabled s c && bit w 31 then recErr .met 0x101 s
  else if bit w 31 && circInvalid s c w then recErr .met 0x100 s
  else
    let s1 := plainWrite ini .met (0x080 + 4 * c) v s
    if circEnabled s c && !circEnabled s1 c then attrVoid c 3 s1 else s1

/-! ### Calibration -/

/-- The offsets of the calibration registers of a page (R312). -/
def calOffsets : Page → List Nat
  | .met => (List.range 48).map fun k => 0x100 + 4 * k
  | .mch _ => [0x044, 0x048, 0x04C, 0x050]
  | _ => []

/-- `CAL_CRC`: over all calibration registers of MET and MCH00-MCH29 in offset order (R312). -/
def calCrc (s : State) : Word :=
  let page := fun p => (calOffsets p).flatMap fun o => leBytes 4 (regN s p o)
  word (crc32 (page .met ++ (List.finRange 30).flatMap fun n => page (.mch n)))

/-- A write of a calibration register: accepted, it counts in `CAL_GEN` and is recorded (R312). -/
def calWrite (ini : Ini) (p : Page) (off : Nat) (v : Word) (s : State) : State :=
  let s1 := plainWrite ini p off v s
  if writeTaken p off v s && !locked s p 0 then
    evrOffer p 0x0203 (leBytes 4 (pageBase p + off) ++ leBytes 4 (regN s p off) ++ leBytes 4 (regN s1 p off))
      (setReg .met 0x060 (reg s1 .met 0x060 + 1) s1)
  else s1

/-- `CAL_CHANGE`: a write of the calibration register at an address; another address is no calibration write. -/
def execCalChange (ini : Ini) (addr : Nat) (v : Word) (s : State) : Out :=
  match pageAt addr with
  | some p =>
    if (calOffsets p).contains (addr % 0x1000) then done s (admitWrite ini p (addr % 0x1000) v (calWrite ini p (addr % 0x1000) v) s)
    else done s s
  | none => done s s

/-! ### Samples -/

/-- A sample before its delay, in units of 2^-53 result units (R308). -/
def metScale (s : State) (ch : Nat) (code : Int) : Int :=
  let p := mchPage ch
  (code - signed 24 (regF s p 0x04C 23 0)) * (regF s p 0x044 23 0 * regN s p 0x048 * 10 : Nat)

/-- A sample of a set, as `CH_PHASE` delays or advances it. -/
structure MetSample where
  got : Bool
  x : Int
  clip : Bool

/-- `CH_PHASE` in 2^-12 samples (R334). -/
def metPhase (s : State) (ch : Nat) : Int := signed 16 (regF s (mchPage ch) 0x050 15 0)

/-- How many later sets the channels' advances need (R308, R334). -/
def metLag (s : State) : Nat := listMax ((List.range 30).map fun ch => (-(metPhase s ch / 4096)).toNat)

/-- The sample of a channel for the set at an index of the sets that came, newest first (R308): a whole delay takes the earlier set, a
whole advance the later one, and between two sets what interpolation gives of the channel's samples is open (log 1).  It is received
where the sets it comes from are (R309).  A channel without full scale gives 0. -/
def metSample (s : State) (k ch : Nat) : MetSample :=
  let d := metPhase s ch
  let i : Int := k + d / 4096
  let raw := s.met.raw
  let own : MetSet := raw.getD k { at' := 0, got := false, codes := [], xs := [] }
  if regF s (mchPage ch) 0x044 23 0 = 0 then { got := own.got, x := 0, clip := false }
  else match if i < 0 then none else raw[i.toNat]? with
    | none => { got := false, x := 0, clip := false }
    | some e =>
      let clip := decide ((e.codes.getD ch 0).natAbs = 8388607)
      if d % 4096 = 0 then { got := e.got, x := e.xs.getD ch 0, clip := clip }
      else
        { got := e.got && (raw.getD (i.toNat + 1) { e with got := false }).got, clip := clip
          x := clampInt (-2 ^ 77) (2 ^ 77 - 1) (Config.fracDelay (d % 4096).toNat (raw.map fun r => r.xs.getD ch 0) i.toNat) }

/-- The sample that RMS, peak and clip sums take in. -/
def addSample (x : MetSample) (c : MetCh) : MetCh :=
  { n := c.n + 1, sum := c.sum + x.x, sq := c.sq + x.x.natAbs * x.x.natAbs, peak := max c.peak x.x.natAbs, clips := c.clips + b01 x.clip }

/-- Sample j of a set. -/
def sampleAt (xs : List MetSample) (j : Nat) : MetSample := xs.getD j { got := false, x := 0, clip := false }

/-- A sample set joins a window: every channel of which something was received, and v × i of every slot of an enabled circuit where both
were (R309).  Of a set that was not received only time passes. -/
def winAdd (s : State) (got : Bool) (xs : List MetSample) (w : MetWin) : MetWin :=
  { w with
    n := w.n + 1
    gap := w.gap + b01 (!got)
    chs := (List.range 30).map fun ch =>
      let c := spGet (fun _ => {}) w.chs ch
      (ch, if (sampleAt xs ch).got then addSample (sampleAt xs ch) c else c)
    pows := (List.range 24).filterMap fun k =>
      (slotVolt s k).map fun v =>
        let q := spGet (fun _ => ((0 : Int), 0)) w.pows k
        (k, if (sampleAt xs v).got && (sampleAt xs (4 + k)).got then (q.1 + (sampleAt xs v).x * (sampleAt xs (4 + k)).x, q.2 + 1) else q) }

/-- Two parts of a window joined. -/
def winJoin (a b : MetWin) : MetWin :=
  { a with
    n := a.n + b.n
    gap := a.gap + b.gap
    chs := (List.range 30).map fun ch =>
      let x := spGet (fun _ => {}) a.chs ch
      let y := spGet (fun _ => ({} : MetCh)) b.chs ch
      (ch, { n := x.n + y.n, sum := x.sum + y.sum, sq := x.sq + y.sq, peak := max x.peak y.peak, clips := x.clips + y.clips })
    pows := (List.range 24).map fun k =>
      let x := spGet (fun _ => ((0 : Int), 0)) a.pows k
      let y := spGet (fun _ => ((0 : Int), 0)) b.pows k
      (k, (x.1 + y.1, x.2 + y.2)) }

/-- A window without a sample; its first one gives its start (R314). -/
def winNew (s : State) (unaligned : Bool) : MetWin := { unaligned := unaligned, short := s.met.shortNext }

/-- The open window ends as w, at a TB0 time in ns, after a number of sample sets. -/
def winClose (w : MetWin) (at' sets : Nat) (s : State) : State :=
  onMet (fun m => { m with
    closed := m.closed ++ [{ w with endSec := at' / 1000000000, endNs := at' % 1000000000, endSets := sets }], shortNext := false }) s

/-- A window opens, with the samples it already holds and their start. -/
def winOpen (unaligned : Bool) (s : State) : State :=
  let w := winNew s unaligned
  let cur := if s.met.past.n = 0 then w else winJoin { w with sec := s.met.past.sec, ns := s.met.past.ns } s.met.past
  onMet (fun m => { m with open' := true, past := {}, cur := cur }) s

/-- The window's end by its length, at a TB0 time (R314): at 6,400 samples without a trigger source, and where no trigger came by sample
6,432 the next one holds those since 6,401. -/
def winAdvance (at' : Nat) (s : State) : State :=
  if regB s .met 0x048 0 then
    if 32 ≤ s.met.past.n then winOpen true (winClose s.met.cur (at' - 1000000) (s.met.sets + 1 - 32) s) else s
  else if 6400 ≤ s.met.cur.n then winOpen false (winClose s.met.cur at' (s.met.sets + 1) s) else s

/-- A sample set of a TB0 time joins a part of a window, which starts with its first. -/
def winJoins (f : MetWin → MetWin) (at' : Nat) (w : MetWin) : MetWin :=
  f (if w.n = 0 then { w with sec := at' / 1000000000 % 2 ^ 32, ns := at' % 1000000000 } else w)

/-- One sample set goes into the window: beyond 6,400 it is kept apart until a trigger, or the want of one, decides. -/
def winTake (f : MetWin → MetWin) (at' : Nat) (s : State) : State :=
  if !s.met.open' then s
  else if s.met.cur.n < 6400 then winAdvance (at' + 31250) (onMet (fun m => { m with cur := winJoins f at' m.cur }) s)
  else winAdvance (at' + 31250) (onMet (fun m => { m with past := winJoins f at' m.past }) s)

/-- A trigger unit with TARGET 0x20 fires: a window starts at the first sample at or after the instant (R86, R314).  A firing before
that sample has come is dropped: the window that waits serves it (DESIGN CHOICE, log 159: R86 says nothing of it). -/
def metTrigger (s : State) : State :=
  if !metRuns s || !regB s .met 0x048 0 || s.met.trig.isSome then s else onMet (fun m => { m with trig := some (tbNs s.tb.t0) }) s

/-- The sample set of a TB0 time is the first at or after the trigger's instant: a window starts with it, and the one before it is short
where it has fewer than 6,400 samples (R314). -/
def winTrigger (at' : Nat) (s0 : State) : State :=
  if !s0.met.trig.any (fun a => decide (a ≤ at')) then s0
  else
    let s := onMet (fun m => { m with trig := none }) s0
    if s.met.open' && decide (0 < s.met.cur.n) then
      let w := winJoin s.met.cur s.met.past
      winOpen false (onMet (fun m => { m with past := {} }) (winClose { w with short := w.short || decide (w.n < 6400) } at' s.met.sets s))
    else winOpen false s

/-! ### Energy -/

/-- FREQ of a voltage channel in the last window, where its RMS reached `VPRES`; 0 none (R315, R317). -/
def freqOf (s : State) (v : Nat) : Nat :=
  let x := spGet (fun _ => (0, 0)) s.met.lastV v
  if x.1 < vPres s then 0 else x.2

/-- The samples of the fundamental cycle of a channel: its own for a voltage, its slot's voltage for a current; 640 where no
cycle is measured (R309). -/
def cycleLen (s : State) (ch : Nat) : Nat :=
  let f := if ch < 4 then freqOf s ch else match slotVolt s (ch - 4) with | some v => freqOf s v | none => 0
  if f = 0 then 640 else (32000000 + f / 2) / f

/-- The sample that energy uses in place of a missing one (R309). -/
def substitute (s : State) (ch : Nat) : Int := (s.met.hist.getD (cycleLen s ch - 1) []).getD ch 0

/-- A slot's power sample at one sample set (R317): it ends at a rising zero crossing of its voltage, or after 640 samples
where no frequency is measured. -/
def psStep (prev xs : List Int) (k : Nat) (s : State) : State :=
  match slotVolt s k with
  | none => onMet (fun m => { m with ps := spDel k m.ps }) s
  | some v =>
    let e := xs.getD v 0 * xs.getD (4 + k) 0
    let q := spGet (fun _ => ((0 : Int), 0)) s.met.ps k
    let valid := freqOf s v != 0
    if valid && decide (prev.getD v 0 < 0) && decide (0 ≤ xs.getD v 0) then
      onMet (fun m => { m with ps := spPut (fun _ => ((0 : Int), 0)) k (e, 1) m.ps, ended := if q.2 = 0 then m.ended else m.ended ++ [(k, q.1)] }) s
    else if !valid && decide (639 ≤ q.2) then
      onMet (fun m => { m with ps := spDel k m.ps, ended := m.ended ++ [(k, q.1 + e)] }) s
    else onMet (fun m => { m with ps := spPut (fun _ => ((0 : Int), 0)) k (q.1 + e, q.2 + 1) m.ps }) s

/-- One sample set for energy, with the substitutes for what was not received.  The sets kept reach over the longest cycle of R309 and
the longest harmonic interval of R316, 12 cycles of 40 Hz. -/
def energySet (xs : List MetSample) (s : State) : State :=
  let vals := (List.range 30).map fun ch => if (sampleAt xs ch).got then (sampleAt xs ch).x else substitute s ch
  let lost := (List.range 30).filter fun ch => !(sampleAt xs ch).got
  let s1 := forEach (psStep (s.met.hist.getD 0 []) vals) (List.range 24) s
  onMet (fun m => { m with hist := (vals :: m.hist).take 9632, got := (lost :: m.got).take 9632, sets := m.sets + 1 }) s1

/-- The TB0 time in ns of set i of a frame: the frame comes with its last one (DESIGN CHOICE, log 77). -/
def setTime (frameAt i : Nat) : Nat := frameAt - (7 - i) * 31250

/-- The set at an index of those that came goes into the window and the energy (R308, R309, R314). -/
def takeSet (k : Nat) (s0 : State) : State :=
  match s0.met.raw[k]? with
  | none => s0
  | some e =>
    let s := winTrigger e.at' s0
    let xs := (List.range 30).map (metSample s k)
    energySet xs (winTake (winAdd s e.got xs) e.at' s)

/-- A set has come, or its place in time: it and those that waited for it are taken; as many sets wait as the advances need. -/
def setCame (e : MetSet) (s : State) : State :=
  let lag := metLag s
  let n := s.met.ahead + 1
  forEach (fun j t => takeSet (n - 1 - j) t) (List.range (n - lag))
    (onMet (fun m => { m with raw := (e :: m.raw).take 10, ahead := min n lag }) s)

/-- A received sample set. -/
def gotSet (frameAt : Nat) (x : Nat × List Int) (s : State) : State :=
  setCame { at' := setTime frameAt x.1, got := true, codes := x.2
            xs := (List.range 30).map fun ch => metScale s ch (clampInt (-8388608) 8388607 (x.2.getD ch 0)) } s

/-- A missing sample set (R309). -/
def missSet (at' : Nat) (s : State) : State := setCame { at' := at', got := false, codes := [], xs := [] } s

/-- A frame lost after its repeat: a gap (R309). -/
def metGap (frameAt : Nat) (s : State) : State :=
  let s1 := raiseIrq .met 4 (bumpReg .met 0x05C s)
  let s2 := if 240000 ≤ s.met.clear then evrOffer .met 0x0204 (leBytes 4 (regN s1 .met 0x05C)) s1 else s1
  forEach (fun i t => missSet (setTime frameAt i) t) (List.range 8) (onMet (fun m => { m with clear := 0, gapInt := true }) s2)

/-- A frame of 8 sample sets that came at a TB0 time; one that was damaged and repeated is a transient fault (R16, R309). -/
def metFrameAt (r : CopyResult) (sets : List (List Int)) (frameAt : Nat) (s : State) : State :=
  let s0 := if s.met.open' || regB s .met 0x048 0 then s else winOpen false s
  match r with
  | .failed => metGap frameAt s0
  | r =>
    let s1 := if r = .okOnRetry then noteTransient .met s0 else s0
    forEach (gotSet frameAt) ((List.range 8).map fun i => (i, sets.getD i [])) (onMet (fun m => { m with clear := m.clear + 1 }) s1)

/-- A frame that comes now. -/
def metFrame (r : CopyResult) (sets : List (List Int)) (s : State) : State := metFrameAt r sets (tbNs s.tb.t0) s

/-- A frame reaches MET; while MET is in reset the MF die holds 60 ms of them (R328). -/
def mfFrame (r : CopyResult) (sets : List (List Int)) (s : State) : State :=
  if metRuns s then metFrame r sets s
  else if enabled s .met && inReset s .met then onMet (fun m => { m with buf := if m.buf.length < 240 then m.buf ++ [(r, sets, tbNs s.tb.t0)] else m.buf }) s
  else s

/-- `MF_FRAME`. -/
def execMfFrame (r : CopyResult) (sets : List (List Int)) (s : State) : Out := done s (mfFrame r sets s)

/-- MET is READY again: the frames held are taken (R328). -/
def metReady (s : State) : State :=
  if metRuns s then forEach (fun x t => metFrameAt x.1 x.2.1 x.2.2 t) s.met.buf (onMet (fun m => { m with buf := [] }) s) else s

/-- A slot's totals. -/
def totOf (s : State) (k : Nat) : MetTot := spGet (fun _ => {}) s.met.tots k

/-- Sets a slot's totals. -/
def putTot (k : Nat) (t : MetTot) (s : State) : State := onMet (fun m => { m with tots := spPut (fun _ => {}) k t m.tots }) s

/-- A 64-bit accumulator without its fraction (R318). -/
def native (a : Nat) : Nat := a / 2 ^ 40 % 2 ^ 64

/-- The circuit of a slot is absolute in the net view (R310). -/
def slotAbs (s : State) (k : Nat) : Bool := match slotCircuit s k with | some (c, _) => bit (circOf s c) 29 | none => false

/-- Net energy in mWh (R319). -/
def netOf (s : State) (k : Nat) (t : MetTot) : Int :=
  if slotAbs s k then (native t.imp : Int) + native t.exp else (native t.imp : Int) - native t.exp

/-- The multiples of 2^32 Wh that each compact view has passed (R319). -/
def compactTurns (s : State) (k : Nat) (t : MetTot) : Int × Int × Int :=
  ((native t.imp / 1000 / 2 ^ 32 : Nat), (native t.exp / 1000 / 2 ^ 32 : Nat), netOf s k t / 1000 / 2 ^ 32)

/-- Totals move on: WRAP sets where a compact view passed a multiple of 2^32 (R319). -/
def moveTot (k : Nat) (t : MetTot) (s : State) : State :=
  putTot k { t with wrap := t.wrap || compactTurns s k t != compactTurns s k (totOf s k) } s

/-- The circuit and pin of the test output count this slot (R333). -/
def testCounts (s : State) (k : Nat) : Bool :=
  regB s .met 0x068 31 && (match slotCircuit s k with | some (c, _) => c == regF s .met 0x068 28 24 | none => false)

/-- A power sample goes to its bucket by sign, after P_CORR (R313, R317, R318). -/
def addEnergy (k : Nat) (sum : Int) (s : State) : State :=
  if (slotCircuit s k).isNone then s
  else
    let corr := (1000000 + signed 32 (regN s .met (0x100 + 8 * k))).toNat
    let e := divOpen s 0 (sum.natAbs * corr * 2 ^ 40) (2 ^ 106 * 10000 * 1000000 * 32000 * 3600)
    let t := totOf s k
    let s1 := if sum < 0 then moveTot k { t with exp := (t.exp + e) % 2 ^ 104 } s else moveTot k { t with imp := (t.imp + e) % 2 ^ 104 } s
    used (if 0 ≤ sum && testCounts s k then onMet (fun m => { m with testAcc := m.testAcc + e }) s1 else s1)

/-- The power sample that ended first is accumulated. -/
def powerSampleEnd (s : State) : State :=
  match s.met.ended with
  | [] => s
  | (k, sum) :: rest => addEnergy k sum (onMet (fun m => { m with ended := rest }) s)

/-- `POWER_SAMPLE_END`. -/
def execPowerSampleEnd (s : State) : Out := done s (powerSampleEnd s)

/-- Every power sample in progress ends and is added to its bucket (R325). -/
def endSamples (s : State) : State :=
  let ps := s.met.ended ++ s.met.ps.map fun x => (x.1, x.2.1)
  forEach (fun x t => addEnergy x.1 x.2 t) ps (onMet (fun m => { m with ended := [], ps := [] }) s)

/-- `TEST_OUT_PULSE`: EA_IMP has reached one pulse (R333). -/
def testOutPulse (s : State) : State :=
  let k := regF s .met 0x068 15 0
  let n := regF s .met 0x068 19 16
  if !regB s .met 0x068 31 || k == 0 || decide (s.met.testAcc * k < 1000000 * 2 ^ 40) then s
  else
    let s1 := onMet (fun m => { m with testAcc := m.testAcc - 1000000 * 2 ^ 40 / k }) s
    if testPin s n && pinDrives s n then send (.testPulse n) s1 else s1

/-- `TEST_OUT_PULSE`. -/
def execTestOutPulse (s : State) : Out := done s (testOutPulse s)

/-! ### Persistence -/

/-- The bytes of a totals copy before its CRC (R324); their layout is the model's (PRESUMED, log 19). -/
def copyBody (s : State) (seq : Nat) : List Byte :=
  leBytes 4 seq ++ leBytes 8 (s.rtc / 2 ^ 15) ++ leBytes 4 (calCrc s).toNat ++ leBytes 4 (regN s .met 0x060)
    ++ (List.range 24).flatMap (fun k => let t := totOf s k
      leBytes 13 t.imp ++ leBytes 13 t.exp ++ leBytes 13 t.ind ++ leBytes 13 t.cap ++ leBytes 1 (b01 t.wrap))
    ++ (List.range 2).flatMap (fun j => let r := spGet (fun _ => ({} : RcmCh)) s.met.rcm j
      leBytes 8 r.base ++ leBytes 8 r.sum ++ leBytes 4 r.n ++ leBytes 1 (b01 r.learned))

/-- The number of bytes of a copy, its CRC included. -/
def copyLen : Nat := 20 + 24 * 53 + 2 * 21 + 4

/-- The address of copy A or B (R324). -/
def copyAddr (b : Bool) : Nat := if b then 0x20020000 else 0x20000000

/-- The totals are mirrored at every persistence copy (R469). -/
def totTell (s : State) : State :=
  if linkTells s then
    forEach (fun k t => jrnTell (.totals k (native (totOf t k.val).imp % 2 ^ 64) (native (totOf t k.val).exp % 2 ^ 64)) t) (List.finRange 24) s
  else s

/-- Writes a good copy, and turns to the other address. -/
def writeCopy (s : State) : State :=
  let seq := (s.met.seq + 1) % 2 ^ 32
  let b := copyBody s seq
  totTell <| onMet (fun m => { m with seq := seq, nextB := !m.nextB, persistCnt := 0 }) (memWrite (copyAddr s.met.nextB) (b ++ leBytes 4 (crc32 b)) s)

/-- A copy is written, or fails after its retry: what a failed write leaves is open, and the next copy goes to the same
address (R324). -/
def persist (r : CopyResult) (s : State) : State :=
  match r with
  | .failed =>
    let s1 := used (memWrite (copyAddr s.met.nextB) (freeB s copyLen) s)
    evrOffer .met 0x0202 (leBytes 4 ((s.met.seq + 1) % 2 ^ 32)) (raiseIrq .met 5 (recErr .met 0x103 (setRegB .met 0x044 1 true
      (onMet (fun m => { m with persistCnt := 0 }) s1))))
  | .okOnRetry => writeCopy (noteTransient .met s)
  | .ok => writeCopy s

/-- PWR_FAIL_N asserts (R325). -/
def metPowerFail (s : State) : State :=
  if enabled s .met then setRegB .met 0x044 2 true (writeCopy (endSamples s)) else s

/-- A copy as read; none where its CRC does not hold (R326). -/
def readCopy (s : State) (b : Bool) : Option (List Byte) :=
  let d := memRead s (copyAddr b) copyLen
  if leNat (d.drop (copyLen - 4)) = crc32 (d.take (copyLen - 4)) then some d else none

/-- A little-endian field of a copy. -/
def copyNat (d : List Byte) (off len : Nat) : Nat := leNat ((d.drop off).take len)

/-- Takes the totals and baselines of a copy. -/
def takeCopy (d : List Byte) (s : State) : State :=
  let tots := (List.range 24).foldl (fun m k =>
    let o := 20 + 53 * k
    let t : MetTot := { imp := copyNat d o 13, exp := copyNat d (o + 13) 13, ind := copyNat d (o + 26) 13, cap := copyNat d (o + 39) 13
                        wrap := copyNat d (o + 52) 1 != 0 }
    spPut (fun _ => {}) k { t with impAt := native t.imp, expAt := native t.exp } m) ([] : Sparse MetTot)
  let rcm := (List.range 2).foldl (fun m j =>
    let o := 20 + 53 * 24 + 21 * j
    spPut (fun _ => {}) j { base := copyNat d o 8, sum := copyNat d (o + 8) 8, n := copyNat d (o + 16) 4, learned := copyNat d (o + 20) 1 != 0 } m) ([] : Sparse RcmCh)
  onMet (fun m => { m with tots := tots, rcm := rcm, seq := copyNat d 0 4 }) s

/-- The totals are restored after a reset that cleared them (R326). -/
def metRestore (s : State) : State :=
  let rtc := leBytes 5 (s.rtc / 2 ^ 15)
  let restored := fun (d : List Byte) (fromB old : Bool) =>
    let s1 := setRegB .met 0x044 0 true (onMet (fun m => { m with nextB := !fromB }) (takeCopy d s))
    let s2 := if old then recErr .met 0x104 (setRegB .met 0x044 3 true s1) else s1
    evrOffer .met 0x0200 (d.take 4 ++ (d.drop 4).take 5 ++ rtc ++ leBytes 1 (b01 old)) s2
  match readCopy s false, readCopy s true with
  | none, none => evrOffer .met 0x0201 rtc (recErr .met 0x105 (setRegB .met 0x044 4 true s))
  | some a, none => restored a false (oldCopy a s true)
  | none, some b => restored b true (oldCopy b s false)
  | some a, some b => if actDiff (copyNat a 0 4) (copyNat b 0 4) > 0 then restored a false false else restored b true false
where
  /-- The one valid copy has the lower sequence: what the damaged one still shows is higher. -/
  oldCopy (d : List Byte) (s : State) (other : Bool) : Bool :=
    decide (0 < actDiff (memNat s (copyAddr other) 4) (copyNat d 0 4))

/-- A slot's totals once cleared: its WRAP and what its interval has added so far stay (R319, R321, R327). -/
def clearedTot (x : MetTot) : MetTot :=
  { wrap := x.wrap, impAdd := x.impAdd + (native x.imp - x.impAt), expAdd := x.expAdd + (native x.exp - x.expAt) }

/-- TOT_CLR: the named slots' accumulators become zero, both copies are written, and the values are recorded (R327).  The live WRAP stays,
and so does what the snapshot interval has added (R319, R321). -/
def totClr (v : Word) (s : State) : State :=
  let clear := fun k (t : State) =>
    if !bit v k then t
    else
      let x := totOf t k
      putTot k (clearedTot x) (evrOffer .met 0x0206 (leBytes 1 k ++ leBytes 8 (native x.imp) ++ leBytes 8 (native x.exp) ++ leBytes 8 (native x.ind) ++ leBytes 8 (native x.cap)) t)
  writeCopy (writeCopy (forEach clear (List.range 24) s))

/-- `TOT_CLR`. -/
def execTotClr (ini : Ini) (v : Word) (s : State) : Out := done s (admitWrite ini .met 0x054 v (totClr v) s)

/-! ### Snapshots -/

/-- The words of a snapshot slot (R323). -/
def snapSlot (s : State) (k : Nat) : List (Nat × Word) :=
  let t := totOf s k
  let o := 0x800 + 0x40 * k
  let two := fun off n => [(o + off, word (n % 2 ^ 32)), (o + off + 4, word (n / 2 ^ 32))]
  let di := min 0xFFFFFFFF (t.impAdd + (native t.imp - t.impAt))
  let de := min 0xFFFFFFFF (t.expAdd + (native t.exp - t.expAt))
  two 0 (native t.imp) ++ two 8 (native t.exp) ++ two 0x10 (native t.ind) ++ two 0x18 (native t.cap)
    ++ [(o + 0x20, word (native t.imp / 1000 % 2 ^ 32)), (o + 0x24, word (native t.exp / 1000 % 2 ^ 32)),
        (o + 0x28, word (unsigned 32 (netOf s k t / 1000))), (o + 0x2C, word di), (o + 0x30, word de),
        (o + 0x34, word (16 * b01 (slotAbs s k) + 8 * b01 s.met.gapInt + 4 * b01 t.wrap + 2 * b01 (di != 0 && de != 0) + b01 (slotCircuit s k).isSome))]

/-- A latch at a time, from a source (R321); requests that reach the same latch make one snapshot. -/
def metLatch (src sec ns : Nat) (s : State) : State :=
  let s0 := setRegB .met 0x7C4 0 false s
  match s.met.latches.getLast? with
  | some l =>
    if l.at' = s.met.sets then onMet (fun m => { m with latches := m.latches.dropLast ++ [{ l with src := l.src ||| src }] }) s0
    else add s0
  | none => add s0
where
  /-- A new latch. -/
  add (s : State) : State :=
    let words := (List.range 24).flatMap (snapSlot s) ++ [(0x7C8, word (sec % 2 ^ 32)), (0x7CC, word ns)]
    let flags := (List.range 24).map fun k => (words.find? fun x => x.1 == 0x800 + 0x40 * k + 0x34).elim 0 fun x => x.2
    let l : MetLatch := { src := src, at' := s.met.sets, words := words, wrap := flags.any (bit · 2), rev := flags.any (bit · 1) }
    let s1 := onMet (fun m => { m with latches := m.latches ++ [l], gapInt := false }) s
    forEach (fun k t => let x := totOf t k; putTot k { x with wrap := false, impAt := native x.imp, expAt := native x.exp, impAdd := 0, expAdd := 0 } t) (List.range 24) s1

/-- A write of `SNAP` (R321, R329, R336). -/
def snapWrite (v : Word) (s : State) : State :=
  if v.toNat / 2 != 0 then recErr .met 0x106 s
  else if v = 0 then s
  else workRequest .met (fun t => metLatch 1 t.tb.t0.sec t.tb.t0.ns t) s

/-- `SNAP`. -/
def execSnap (ini : Ini) (v : Word) (s : State) : Out := done s (admitWrite ini .met 0x050 v (snapWrite v) s)

/-- The snapshot view is replaced (R322, R335); a quiescing MET publishes none (R329). -/
def snapReady (s : State) : State :=
  match s.met.latches with
  | [] => s
  | l :: rest =>
    if quiescing s .met || !metRuns s then s
    else
      let s1 := forEach (fun x t => setReg .met x.1 x.2 t) l.words (onMet (fun m => { m with latches := rest }) s)
      let s2 := setReg .met 0x7C4 (word (l.src * 2 ^ 8 + b01 rest.isEmpty)) (setReg .met 0x7C0 (reg s .met 0x7C0 + 1) s1)
      let s3 := if l.wrap then raiseIrq .met 2 s2 else s2
      raiseIrq .met 1 (if l.rev then raiseIrq .met 3 s3 else s3)

/-- `SNAP_READY`. -/
def execSnapReady (s : State) : Out := done s (snapReady s)

/-! ### Window results -/

/-- The sums of a channel over a window. -/
def winCh (w : MetWin) (ch : Nat) : MetCh := spGet (fun _ => {}) w.chs ch

/-- The window's results are valid: at most 10 ms of gaps (R309). -/
def winValid (w : MetWin) : Bool := decide (w.gap ≤ 320) && decide (w.gap < w.n)

/-- The channel gives results: `CH_FS` is not 0 (R334). -/
def chOn (s : State) (ch : Nat) : Bool := regF s (mchPage ch) 0x044 23 0 != 0

/-- RMS of a channel in result units. -/
def winRms (s : State) (w : MetWin) (ch : Nat) : Nat :=
  let c := winCh w ch
  if !chOn s ch || c.n == 0 then 0 else sqrtOpen s (4096 + ch) (c.sq / (c.n * 2 ^ 106))

/-- FREQ in mHz of a voltage channel: 0 below `VPRES` or outside 40-70 Hz; how the crossings are interpolated the manual does
not give (R315; log 1). -/
def winFreq (s : State) (w : MetWin) (ch : Nat) : Nat :=
  let f := freePart s (4160 + ch) 17
  if winRms s w ch < vPres s ∨ f < 40000 ∨ 70000 < f ∨ 3 < ch ∨ !chOn s ch then 0 else f

/-- The harmonic interval could not follow `HREF` (R316). -/
def winUnsync (s : State) (w : MetWin) : Bool := winFreq s w (regF s .met 0x040 5 4) == 0

/-- The cycles of the harmonic interval: 10, or 12 with `F60` (R316). -/
def harmCycles (s : State) : Nat := if regB s .met 0x040 8 then 12 else 10

/-- The samples of the harmonic interval: its cycles of `HREF`, or of the nominal 20 ms or 16.667 ms where that shows no FREQ (R316). -/
def harmLen (s : State) (w : MetWin) : Nat :=
  let f := winFreq s w (regF s .met 0x040 5 4)
  if f = 0 then 6400 else harmCycles s * 32000000 / f

/-- What was received of a channel in the harmonic interval, oldest first; the interval ends with the window (R309, R316; DESIGN CHOICE,
log 128: it may end before). -/
def harmSamples (s : State) (w : MetWin) (ch : Nat) : List Int :=
  let k := s.met.sets - w.endSets
  let rows := ((s.met.hist.zip s.met.got).drop k).take (harmLen s w)
  ((rows.filter fun x => !x.2.contains ch).map fun x => x.1.getD ch 0).reverse

/-- G_h of a channel (R315, R316). -/
def harmGroup (s : State) (w : MetWin) (ch h : Nat) : Nat := Config.harmonicGroup h (harmCycles s) (harmSamples s w ch) % 2 ^ 32

/-- THD of a channel in 0.01 %, from the groups published beside it; without a fundamental there is no quotient: open (R315; log 1). -/
def harmThd (s : State) (w : MetWin) (ch : Nat) : Nat :=
  let g := harmGroup s w ch
  let sq := ((List.range 62).map fun h => g (h + 2) * g (h + 2)).sum
  if g 1 = 0 then freePart s (4280 + ch) 32 else min 0xFFFFFFFF (sqrtOpen s (4280 + ch) (sq * 10 ^ 8 / (g 1 * g 1)))

/-- The results of a channel as register keys and words (R315, R334). -/
def chResults (s : State) (w : MetWin) (ch : Nat) : List (Nat × Word) :=
  let p := mchPage ch
  let c := winCh w ch
  let on := chOn s ch && decide (0 < c.n)
  let stat := 32 * b01 (winUnsync s w) + 16 * b01 w.unaligned + 8 * b01 w.short + 4 * b01 (decide (0 < w.gap)) + 2 * b01 (decide (0 < c.clips))
    + b01 (winValid w && chOn s ch)
  let z := fun (x : Nat) => word (if on then x else 0)
  [(regKey p 0x0C0, word stat), (regKey p 0x0C4, word (winRms s w ch)),
   (regKey p 0x0C8, z (unsigned 32 (divOpenI s (4200 + ch) c.sum (c.n * 2 ^ 53)))),
   (regKey p 0x0CC, z (divOpen s (4240 + ch) c.peak (2 ^ 53))), (regKey p 0x0D0, word (winFreq s w ch)),
   (regKey p 0x0D4, z (harmThd s w ch)), (regKey p 0x0D8, word c.clips)]
    ++ (List.range 63).map fun h => (regKey p (0x104 + 4 * h), z (harmGroup s w ch (h + 1)))

/-- The sum of v × i of a slot over a window, and of how many samples. -/
def winPow (w : MetWin) (k : Nat) : Int × Nat := spGet (fun _ => (0, 0)) w.pows k

/-- The slot has power results: in an enabled circuit, its channels on, something received of both. -/
def slotOn (s : State) (w : MetWin) (k : Nat) : Bool :=
  match slotVolt s k with
  | some v => chOn s v && chOn s (4 + k) && decide (0 < (winPow w k).2)
  | none => false

/-- P of a slot in mW (R313, R315). -/
def winP (s : State) (w : MetWin) (k : Nat) : Int :=
  if slotOn s w k then
    divOpenI s (4320 + k) ((winPow w k).1 * (1000000 + signed 32 (regN s .met (0x100 + 8 * k)))) ((winPow w k).2 * 2 ^ 106 * 10000 * 1000000)
  else 0

/-- Q1 of a slot in mvar: what the harmonic analysis gives is open, and Q_CORR corrects it (R313, R315; log 1). -/
def winQ (s : State) (w : MetWin) (k : Nat) : Int :=
  if slotOn s w k then
    clampInt (-2 ^ 31) (2 ^ 31 - 1) (divOpenI s (4520 + k) (signed 32 (freePart s (4360 + k) 32) * (1000000 + signed 32 (regN s .met (0x104 + 8 * k)))) 1000000)
  else 0

/-- S of a slot in mVA. -/
def winS (s : State) (w : MetWin) (k : Nat) : Nat :=
  if slotOn s w k then
    let v := winCh w ((slotVolt s k).getD 0)
    let i := winCh w (4 + k)
    sqrtOpen s (4400 + k) (v.sq * i.sq / (max 1 v.n * max 1 i.n * 2 ^ 212 * 100000000))
  else 0

/-- PF in signed 1.15; 0 where S is 0 (R315). -/
def winPf (s : State) (w : MetWin) (k : Nat) : Int :=
  if winS s w k = 0 then 0 else clampInt (-32768) 32767 (divOpenI s (4440 + k) (winP s w k * 32768) (winS s w k))

/-- The results of a phase slot (R335). -/
def slotResults (s : State) (w : MetWin) (k : Nat) : List (Nat × Word) :=
  let o := 0x400 + 0x10 * k
  let nov := match slotVolt s k with | some v => decide (winRms s w v < vPres s) | none => false
  [(regKey .met o, word (unsigned 32 (winP s w k))), (regKey .met (o + 4), word (unsigned 32 (winQ s w k))),
   (regKey .met (o + 8), word (winS s w k)),
   (regKey .met (o + 12), word (b01 nov * 2 ^ 31 + b01 (slotOn s w k && winValid w) * 2 ^ 16 + unsigned 16 (winPf s w k)))]

/-- Every result of a window. -/
def winResults (s : State) (w : MetWin) : List (Nat × Word) :=
  (List.range 30).flatMap (chResults s w) ++ (List.range 24).flatMap (slotResults s w)
    ++ [(regKey .met 0x3C8, word w.sec), (regKey .met 0x3CC, word w.ns)]

/-- A slot's reactive energy of a window (R317). -/
def addReactive (s0 : State) (w : MetWin) (k : Nat) (s : State) : State :=
  if (slotCircuit s k).isNone then s
  else
    let q := winQ s0 w k
    let e := divOpen s0 (4480 + k) (q.natAbs * w.n * 2 ^ 40) (32000 * 3600)
    let t := totOf s k
    if q < 0 then putTot k { t with cap := (t.cap + e) % 2 ^ 104 } s else putTot k { t with ind := (t.ind + e) % 2 ^ 104 } s

/-! ### Residual currents -/

/-- A residual channel. -/
def rcmOf (s : State) (j : Nat) : RcmCh := spGet (fun _ => {}) s.met.rcm j

/-- Sets a residual channel. -/
def putRcm (j : Nat) (r : RcmCh) (s : State) : State := onMet (fun m => { m with rcm := spPut (fun _ => {}) j r m.rcm }) s

/-- `RCM_CFG_j`. -/
def rcmCfg (s : State) (j : Nat) : Word := reg s .met (0x200 + 0x10 * j)
/-- `RCM_LIM_j`. -/
def rcmLim (s : State) (j : Nat) : Word := reg s .met (0x204 + 0x10 * j)

/-- The window meets the alarm condition (R331): ABS always, the rise above the baseline once it is learned. -/
def rcmOver (s : State) (j x : Nat) : Bool :=
  decide (fld (rcmLim s j) 15 0 * 100 ≤ x)
    || ((rcmOf s j).learned && decide ((rcmOf s j).base + fld (rcmCfg s j) 15 0 * 100 * 2 ^ 32 ≤ x * 2 ^ 32))

/-- Learning and tracking of the baseline (R331). -/
def rcmBase (s : State) (j x : Nat) (above : Bool) : RcmCh :=
  let r := rcmOf s j
  if !r.learned then
    let n := r.n + 1
    let r1 := { r with n := n, sum := r.sum + x }
    if fld (rcmLim s j) 31 16 ≤ n then { r1 with learned := true, base := r1.sum * 2 ^ 32 / n } else r1
  else if above || r.suspect || r.alarm then r
  else { r with base := ((r.base : Int) + ((x * 2 ^ 32 : Nat) - (r.base : Int)) / (2 ^ fld (rcmCfg s j) 20 16 : Nat)).toNat }

/-- One window of a residual channel, its RMS x in µA (R331). -/
def rcmWindow (j x : Nat) (s : State) : State :=
  let above := rcmOver s j x
  let b := (rcmOf s j).base / 2 ^ 32
  let r := rcmBase s j x above
  if r.alarm then
    putRcm j (if above then { r with clean := 0 } else if 1 ≤ r.clean then { r with alarm := false, clean := 0 } else { r with clean := r.clean + 1 }) s
  else if r.suspect then
    if above then evrOffer .met 0x0205 (leBytes 1 j ++ leBytes 4 x ++ leBytes 4 b) (raiseIrq .met 6 (putRcm j { r with suspect := false, alarm := true, clean := 0 } s))
    else raiseIrq .met 7 (putRcm j { r with suspect := false, trans := satInc 65535 r.trans } s)
  else putRcm j { r with suspect := above } s

/-- A residual channel at a window's end: not energised, an open suspicion is abandoned (R331). -/
def rcmEnd (s0 : State) (w : MetWin) (j : Nat) (s : State) : State :=
  let v := fld (circOf s (fld (rcmCfg s j) 28 24)) 19 18
  if !bit (rcmCfg s j) 31 || (winCh w (28 + j)).n == 0 then s
  else if 23 < fld (rcmCfg s j) 28 24 || decide (winRms s0 w v < vPres s) then putRcm j { rcmOf s j with suspect := false } s
  else rcmWindow j (winRms s0 w (28 + j)) s

/-- Learning starts again and the alarm clears (R331). -/
def relearn (j : Nat) (s : State) : State := putRcm j { trans := (rcmOf s j).trans } s

/-- A write of `RCM_CMD` (R331, R336). -/
def rcmCmd (v : Word) (s : State) : State :=
  if fld v 31 24 != 0xB7 then recErr .met 0x106 s else if bit v 1 then relearn (fld v 0 0) s else s

/-- `RELEARN`. -/
def execRelearn (ini : Ini) (v : Word) (s : State) : Out := done s (admitWrite ini .met 0x220 v (rcmCmd v) s)

/-- A write of `RCM_CFG_j`: setting EN starts learning (R331). -/
def rcmCfgWrite (ini : Ini) (j : Nat) (v : Word) (s : State) : State :=
  let s1 := plainWrite ini .met (0x200 + 0x10 * j) v s
  if !bit (rcmCfg s j) 31 && bit (rcmCfg s1 j) 31 then relearn j s1 else s1

/-! ### The end of a window -/

/-- The window ends on a TB0 second divisible by `INTERVAL` (R321): the second lies after its start and not after its end. -/
def intervalDue (s : State) (w : MetWin) : Bool :=
  let n := regF s .met 0x04C 16 0
  n != 0 && w.endSec % n == 0 && decide (w.sec * 1000000000 + w.ns < w.endSec % 2 ^ 32 * 1000000000)

/-- The powers that attribution may use of a window (R343). -/
def attrPower (s : State) (w : MetWin) (k : Nat) : Option Int :=
  if slotOn s w k && winValid w && w.gap == 0 && !w.short && !w.unaligned then some (winP s w k) else none

/-- What a published window gives attribution (R343, R349). -/
def winAttr (w : MetWin) (s : State) : State :=
  let p := attrPower s w
  attrEnergy w.n (forEach (attrMeasure (w.sec * 1000000000 + w.ns) p) (List.range 24) s)

/-- A window's results wait to be published; nothing is computed while MET sleeps, nothing published while it quiesces
(R322, R329). -/
def winCompute (w : MetWin) (s : State) : State :=
  let lastV := (List.range 4).map fun v => (v, (winRms s w v, winFreq s w v))
  let s1 := onMet (fun m => { m with lastV := lastV.filter fun x => x.2 != (0, 0) }) s
  if asleep s .met || quiescing s .met then s1
  else winAttr w (onMet (fun m => { m with pend := some (winResults s w) }) (setRegB .met 0x3C4 0 false s1))

/-- A window that has ended: results, reactive energy, residual currents, persistence, the interval's snapshot
(R314-R331). -/
def windowEnd (r : CopyResult) (s : State) : State :=
  match s.met.closed with
  | [] => s
  | w :: rest =>
    let s0 := onMet (fun m => { m with closed := rest }) s
    let s1 := winCompute w s0
    let s2 := forEach (addReactive s0 w) (List.range 24) s1
    let s3 := used (forEach (rcmEnd s0 w) (List.range 2) s2)
    let n := s3.met.persistCnt + 1
    let s4 := if regF s .met 0x040 3 1 ≤ n then persist r s3 else onMet (fun m => { m with persistCnt := n }) s3
    if intervalDue s w then metLatch 2 w.endSec w.endNs s4 else s4

/-- `WINDOW_END`. -/
def execWindowEnd (r : CopyResult) (s : State) : Out := done s (windowEnd r s)

/-- The window view is replaced: MET and every channel at once (R322). -/
def winReady (s : State) : State :=
  match s.met.pend with
  | none => s
  | some l =>
    if quiescing s .met || !metRuns s then s
    else
      let s1 := onMet (fun m => { m with pend := none }) { s with regs := l.foldl (fun m x => spPut regReset x.1 x.2 m) s.regs }
      let s2 := setReg .met 0x3C4 1 (setReg .met 0x3C0 (reg s .met 0x3C0 + 1) s1)
      let s3 := forEach (fun n t =>
        let t1 := raiseIrq (.mch n) 0 t
        if regB t (.mch n) 0x0C0 1 then raiseIrq (.mch n) 1 t1 else t1) (List.finRange 30) s2
      raiseIrq .met 0 s3

/-- `WIN_READY`. -/
def execWinReady (s : State) : Out := done s (winReady s)

/-! ### Registers and resets -/

/-- A write of `TEST_OUT` (R333, R336); a new setting starts from no energy (DESIGN CHOICE, log 20). -/
def testOutWrite (ini : Ini) (v : Word) (s : State) : State :=
  if (v &&& 0x60F00000) != 0 then recErr .met 0x106 s
  else onMet (fun m => { m with testAcc := 0 }) (plainWrite ini .met 0x068 v s)

/-- The registers of MET whose reads are computed. -/
def metView (s : State) (off : Nat) : Option Word :=
  match off with
  | 0x058 => some (word s.met.seq)
  | 0x064 => some (calCrc s)
  | 0x208 => some (rcmBaseWord 0)
  | 0x218 => some (rcmBaseWord 1)
  | 0x20C => some (rcmStatWord 0)
  | 0x21C => some (rcmStatWord 1)
  | _ => none
where
  /-- `RCM_BASE_j`. -/
  rcmBaseWord (j : Nat) : Word := word (b01 (rcmOf s j).learned * 2 ^ 31 + min 0xFFFFFF ((rcmOf s j).base / 2 ^ 32))
  /-- `RCM_STAT_j`. -/
  rcmStatWord (j : Nat) : Word := word ((rcmOf s j).trans * 2 ^ 16 + 2 * b01 (rcmOf s j).alarm + b01 (rcmOf s j).suspect)

/-- Reach FULL clears `CIRC_c`: the rounds of the circuits that it disables are void (R346). -/
def circuitsGone (s : State) : State := forEach (fun c t => if circEnabled t c then attrVoid c 3 t else t) (List.range 24) s

/-- A block reset (R328): windows and latches are discarded, power samples end; reach FULL returns RCM_STAT too, the baselines stay. -/
def metDatapath (full : Bool) (s : State) : State :=
  let rcm := fun (m : Met) => if full then m.rcm.map fun x => (x.1, { x.2 with alarm := false, suspect := false, trans := 0, clean := 0 }) else m.rcm
  onMet (fun m => { m with
    open' := false, cur := {}, past := {}, closed := [], latches := [], pend := none, shortNext := true, hist := [], got := [], raw := [], ahead := 0, trig := none
    rcm := rcm m }) (endSamples (if full then circuitsGone s else s))

/-- MET is disabled: its window is discarded and its power samples end (R318). -/
def metDisable (s : State) : State := metDatapath false s

/-- MET is enabled: without a trigger source a window starts (R314). -/
def metEnable (s : State) : State := if regB s .met 0x048 0 then s else winOpen false s

/-- Windows, latches or results that wait are MET's work. -/
def metBusy (s : State) : Bool := !s.met.latches.isEmpty

end Sys2Proof.Machine
end

