-- ==== Sys2Proof/Machine/OasisCore.lean ====
section
/-! DEFINITION. Reset episodes (R541-R546), and the Oasis domain's clock, calendar, alarms, `PWR_ON` and tamper latches
(R483-R499). -/
namespace Sys2Proof.Machine

/-- Changes the Oasis domain's own state. -/
def onOas (f : Oasis → Oasis) (s : State) : State := { s with oas := f s.oas }

/-- Changes the reset and clock state. -/
def onRst (f : RstState → RstState) (s : State) : State := { s with rst := f s.rst }

/-! ### Reset episodes -/

/-- A register of the Oasis page: every reset but a backup POR leaves it (R483). -/
def oasKey (key : Nat) : Bool := key % 2 ^ 32 / 0x1000 == 0x40150

/-- An address that a reset of reach RESET_N keeps: MRAM and NOR (R541). -/
def keptAddr (a : Nat) : Bool := decide (0x20000000 ≤ a) && decide (a < 0x40000000)

/-- A NAND operation in progress at a reset leaves its page as it happens. -/
def nandCut (s : State) : State :=
  match s.nand.ops with
  | o :: _ => if o.kind = 1 then s else nandSpoil o s
  | [] => s

/-- The levels at the lands do not change with a reset of the module: DET inputs, GPIO pins, VBUS and the twin's presence
(R252, R58, R67, R480). -/
def landLevels (old s : State) : State :=
  let s1 := forEach (fun n t => setRegB .det (0x10C + 0x10 * n) 16 (regB old .det (0x10C + 0x10 * n) 16) t) (List.range 16) s
  setRegB .twin 0x044 11 (regB old .twin 0x044 11) (setRegB .usbd 0x044 3 old.usb.vbus (setReg .gpio 0x054 (word old.lands)
    { s1 with usb := { s1.usb with vbus := old.usb.vbus }, lands := old.lands }))

/-- The reach RESET_N (R541): every page except OASIS, DRAM, key registers, MA0-MA7 and all work in flight; the Oasis
domain, MRAM, NOR, NAND and fuses keep what they hold, and so do EVR's counters (R586) and contactors in hold-off.  A unit
in control owes its handover record (R477). -/
def coreReset (s0 : State) : State :=
  let s := nandCut s0
  landLevels s { ({} : State) with
    pending := s.pending
    freeCtr := s.freeCtr
    regs := s.regs.filter fun x => oasKey x.1
    mem := s.mem.filter fun c => keptAddr c.1
    sent := s.sent
    nand := { s.nand with ops := [] }
    cont := (contOff s).cont
    evr := { opsec := s.evr.opsec, pcyc := s.evr.pcyc, reseed := s.evr.reseed }
    twin := { owes := s.twin.owes || (twinEn s && regB s .twin 0x044 4) }
    opt := s.opt
    keys := s.keys
    rtc := s.rtc
    railsOn := s.railsOn
    oas := s.oas
    rst := { s.rst with pllDown := 0, pllOff := 0, avsDrop := 0, avsHi := 0, avsLo := 0, therm := 3, romKicks := true }
    sec := { s.sec with shadows := [], queue := [], run := none, ma := [], nonce := none }
    boot := s.boot }

/-- A source of the sources in `bits` (as in `RST_REASON`) asserts: it begins an episode, or joins the one that is open, and
a core POR widens it (R543).  PWR_FAIL_N asserted before the reset is recorded too (R495). -/
def episode (bits : Nat) (por : Bool) (s : State) : State :=
  let pf := if regB s .pwr 0x044 31 then 2 ^ 11 else 0
  let t := coreReset s
  if s.rst.active then onRst (fun r => { r with porReach := r.porReach || por, seen := r.seen ||| bits }) t
  else onRst (fun r => { r with active := true, porReach := por, seen := bits ||| pf }) t

/-- A core POR (R541): the rails are sequenced off and on again, so its source stays until the release. -/
def corePor (bits : Nat) (s : State) : State := onRst (fun r => { r with por := true }) (episode (2 ^ 14 ||| bits) true s)

/-! ### The RTC -/

/-- Seconds of the RTC. -/
def rtcSec (s : State) : Nat := s.rtc / 2 ^ 15

/-- The instant of alarm k (R491). -/
def almInstant (s : State) (k : Nat) : Nat :=
  (regN s .oasis (0x08C + 0x10 * k) * 2 ^ 32 + regN s .oasis (0x088 + 0x10 * k)) * 2 ^ 15 + regN s .oasis (0x090 + 0x10 * k)

/-- Alarm k is armed. -/
def almArmed (s : State) (k : Nat) : Bool := regB s .oasis 0x080 k

/-- A set of the RTC, by `RTC_CMD`: `TIME_VALID`, and the armed alarms it jumps past (R487, R492). -/
def rtcSet (new : Nat) (s : State) : State :=
  let jumped := (List.range 2).foldl (fun a k =>
    if almArmed s k && decide (s.rtc < almInstant s k) && decide (almInstant s k < new) then a ||| 2 ^ k else a) s.oas.passed
  setRegB .oasis 0x040 0 true (onOas (fun o => { o with passed := jumped }) { s with rtc := new })

/-- `SET_BIN` (R487). -/
def rtcSetBin (s : State) : State :=
  rtcSet ((regN s .oasis 0x054 * 2 ^ 32 + regN s .oasis 0x050) * 2 ^ 15 + regN s .oasis 0x058) s

/-- One tick of the 32.768 kHz oscillator: the fraction carries into the seconds, which wrap modulo 2^40; `RTC_TRIM` applies
once in 2^20 ticks (R485, R488). -/
def oasTick (s : State) : State :=
  let n := s.oas.ticks + 1
  let trim : Int := if n % 2 ^ 20 = 0 then signed 9 (regF s .oasis 0x060 8 0) else 0
  { s with rtc := (((s.rtc : Int) + 1 + trim) % (2 ^ 55 : Nat)).toNat, oas := { s.oas with ticks := n } }

/-! ### Calendar (R489) -/

/-- A leap year. -/
def isLeap (y : Nat) : Bool := y % 4 == 0 && (y % 100 != 0 || y % 400 == 0)

/-- The lengths of the months of a year. -/
def monthLens (y : Nat) : List Nat := [31, if isLeap y then 29 else 28, 31, 30, 31, 30, 31, 31, 30, 31, 30, 31]

/-- Days of a year. -/
def yearLen (y : Nat) : Nat := if isLeap y then 366 else 365

/-- The year (beyond 2000) and the day within it of a day number, looking at `n` years from y on. -/
def yearOf : Nat → Nat → Nat → Nat × Nat
  | 0, y, d => (y, d)
  | n + 1, y, d => if d < yearLen (2000 + y) then (y, d) else yearOf n (y + 1) (d - yearLen (2000 + y))

/-- The month (from m on) and the day of a day within a year. -/
def monthOf : List Nat → Nat → Nat → Nat × Nat
  | [], m, d => (m, d)
  | l :: ls, m, d => if d < l then (m, d + 1) else monthOf ls (m + 1) (d - l)

/-- The seconds that the calendar view covers. -/
def calRange : Nat := 6311433600

/-- `CAL_DATE` of a number of seconds: WDAY, YEAR, MONTH, DAY. -/
def calDate (sec : Nat) : Word :=
  if calRange ≤ sec then 0
  else
    let d := sec / 86400
    let y := yearOf 200 0 d
    let m := monthOf (monthLens (2000 + y.1)) 1 y.2
    word ((d + 6) % 7 * 2 ^ 24 + y.1 * 2 ^ 16 + m.1 * 2 ^ 8 + m.2)

/-- `CAL_TIME` of a number of seconds: HOUR, MIN, SEC. -/
def calTime (sec : Nat) : Word :=
  if calRange ≤ sec then 0
  else let t := sec % 86400; word (t / 3600 * 2 ^ 16 + t / 60 % 60 * 2 ^ 8 + t % 60)

/-- The day number of a date of the calendar view. -/
def dayNumber (y m d : Nat) : Nat :=
  ((List.range y).map fun k => yearLen (2000 + k)).sum + ((monthLens (2000 + y)).take (m - 1)).sum + (d - 1)

/-- A date and time as `CAL_SET_DATE` and `CAL_SET_TIME` hold them is possible (R490). -/
def calPossible (date time : Word) : Bool :=
  let y := fld date 23 16
  let m := fld date 11 8
  let d := fld date 4 0
  decide (y ≤ 199) && decide (1 ≤ m) && decide (m ≤ 12) && decide (1 ≤ d) && decide (d ≤ (monthLens (2000 + y)).getD (m - 1) 0)
    && decide (fld time 20 16 ≤ 23) && decide (fld time 13 8 ≤ 59) && decide (fld time 5 0 ≤ 59)

/-- `SET_CAL` (R490). -/
def rtcSetCal (s : State) : State :=
  let date := reg s .oasis 0x06C
  let time := reg s .oasis 0x070
  if calPossible date time then
    let sec := dayNumber (fld date 23 16) (fld date 11 8) (fld date 4 0) * 86400 + fld time 20 16 * 3600 + fld time 13 8 * 60 + fld time 5 0
    setRegB .oasis 0x074 0 false (rtcSet (sec * 2 ^ 15) s)
  else recErr .oasis 0x100 (setRegB .oasis 0x074 0 true s)

/-- A read of `RTC_FRAC` latches the seconds and the calendar view for its initiator (R486). -/
def rtcFracRead (ini : Ini) (s : State) : State :=
  let x := rtcSec s
  answer (.data (word (s.rtc % 2 ^ 15)))
    (setRegI .oasis 0x048 ini.id (word (x % 2 ^ 32)) (setRegI .oasis 0x04C ini.id (word (x / 2 ^ 32))
      (setRegI .oasis 0x064 ini.id (calDate x) (setRegI .oasis 0x068 ini.id (calTime x) s))))

/-! ### PWR_ON (R494) -/

/-- `PWR_ON` asserts: the waking sources are kept for `RST_REASON` (R495). -/
def pwrOnAssert (woke : Nat) (s : State) : State :=
  onOas (fun o => { o with woke := woke, minHold := false, wakes := 0 }) { s with railsOn := true }

/-- Source n of `PWRON_CFG` fires: 0 alarm 0, 1 alarm 1, 2 periodic wake, 3 a tamper latch, which also needs
`TAMP_CFG.WAKE` (R494, R499; DEDUCED, log 28). -/
def wakeSource (n : Nat) (s : State) : State :=
  if !regB s .oasis 0x0C0 n || (n == 3 && !regB s .oasis 0x100 24) then s
  else if regB s .oasis 0x040 4 then setRegB .oasis 0x040 3 true (setRegB .oasis 0x040 4 false s)
  else if s.railsOn then s
  else if s.oas.minHold then onOas (fun o => { o with wakes := o.wakes ||| 2 ^ (n + 1) }) s
  else pwrOnAssert (2 ^ (n + 1)) s

/-! ### Alarms (R491, R492) -/

/-- Alarm k fires: FIRED, LATE, its interrupt, its source, and EN clears. -/
def almFire (k : Nat) (late : Bool) (s : State) : State :=
  let s1 := setRegB .oasis 0x084 k true (if late then setRegB .oasis 0x084 (4 + k) true s else s)
  let s2 := setRegB .oasis 0x080 k false (onOas (fun o => { o with passed := o.passed &&& (3 - 2 ^ k) }) s1)
  wakeSource k (raiseIrq .oasis (1 + k) s2)

/-- An alarm is armed, or disarmed, as EN is written; one whose instant has passed fires at once with LATE. -/
def almArm (k : Nat) (en : Bool) (s : State) : State :=
  if !en then setRegB .oasis 0x080 k false (onOas (fun o => { o with passed := o.passed &&& (3 - 2 ^ k) }) s)
  else if almArmed s k then s
  else
    let s1 := setRegB .oasis 0x080 k true s
    if almInstant s k < s.rtc then almFire k true s1 else s1

/-! ### Tamper (R497-R499) -/

/-- A tamper latch: 0-3 TAMP0-TAMP3, 4 MESH; a source that is latched stays so. -/
def tamperLatch (n : Nat) (s : State) : State :=
  if regB s .oasis 0x104 n then s
  else
    let first := regF s .oasis 0x104 4 0 == 0
    let s1 := setRegB .oasis 0x104 n true (bumpRegF .oasis 0x110 15 0 s)
    let s2 := forEach (fun k t => setReg .oasis (0x260 + 4 * k) 0 t) (List.range 8) s1
    let s3 := if first then setReg .oasis 0x108 (word (rtcSec s % 2 ^ 32)) (setReg .oasis 0x10C (word (rtcSec s / 2 ^ 32)) s2) else s2
    wakeSource 3 (raiseIrq .oasis 4 s3)

/-- An input is at its active level: its level against ACT; one that nothing drives is pulled high, and where LEVEL_DEF is 1
counts as active-high (R497, R502; DESIGN CHOICE, log 29). -/
def tampActive (s : State) (n : Nat) (driven high : Bool) : Bool :=
  if driven then high == regB s .oasis 0x100 (4 + n) else regB s .oasis 0x100 10 || regB s .oasis 0x100 (4 + n)

/-- A sample of the inputs: the numbers that latch, and the state (R497). -/
def tamperSample (driven high : Nat) (s : State) : List Nat × State :=
  let act := (List.range 4).filter fun n => regB s .oasis 0x100 n && tampActive s n (driven.testBit n) (high.testBit n)
  let hits := act.filter fun n => s.oas.tampPrev.testBit n && !regB s .oasis 0x104 n
  (hits, forEach tamperLatch hits (onOas (fun o => { o with tampPrev := act.foldl (fun a n => a + 2 ^ n) 0 }) s))

/-- A mesh check: whether it latches, and the state (R498). -/
def meshCheck (mismatch : Bool) (s : State) : Bool × State :=
  if !regB s .oasis 0x100 8 then (false, s)
  else
    let hit := mismatch && s.oas.meshPrev && !regB s .oasis 0x104 4
    let s1 := onOas (fun o => { o with meshPrev := mismatch }) s
    (hit, if hit then tamperLatch 4 s1 else s1)

end Sys2Proof.Machine
end

