-- ==== Sys2Proof/Machine/SecCore.lean ====
section
/-! DEFINITION. The security core: key slots, mailbox requests and what they do (R504-R521). -/
namespace Sys2Proof.Machine

/-- Changes the security core's own state. -/
def onSec (f : Sec → Sec) (s : State) : State := { s with sec := f s.sec }

/-- The bytes of a text. -/
def ascii (t : List Char) : List Byte := t.map fun c => BitVec.ofNat 8 c.toNat

/-- A key slot as it serves. -/
def keySlotOf (s : State) (n : Nat) : KeySlot := spGet (fun _ => {}) s.keys n

/-- A slot's shadow. -/
def shadowOf (s : State) (n : Nat) : Option Shadow := spGet (fun _ => none) s.sec.shadows n

/-- Sets or discards a shadow. -/
def putShadow (n : Nat) (x : Option Shadow) (s : State) : State :=
  onSec (fun c => { c with shadows := spPut (fun _ => none) n x c.shadows }) s

/-- An accumulator MA0-MA7: 48 bytes (R515). -/
def maOf (s : State) (i : Nat) : List Byte := takePad 48 (spGet (fun _ => []) s.sec.ma i)

/-- KTYPE of an attribute word (R506). -/
def kType (w : Word) : Nat := fld w 31 28

/-- OWNER of an attribute word admits an initiator (R506). -/
def ownerAdmits (w : Word) (ini : Nat) : Bool :=
  match fld w 17 16 with
  | 0 => ini == 8
  | 1 => decide (4 ≤ ini) && decide (ini ≤ 8)
  | 2 => decide (ini ≤ 8)
  | _ => false

/-- `SEC_STAT.RESTRICTED`. -/
def restricted (s : State) : Bool := regB s .sec 0x040 30

/-- A new attribute word breaks a rule of R507. -/
def attrBroken (w : Word) : Bool :=
  let uses := fld w 4 0
  fld w 25 18 != 0 || fld w 15 8 != 0 || decide (4 < kType w) || fld w 17 16 == 3
    || (kType w == 2 && uses &&& 0x17 != 0)
    || (kType w == 3 && (uses &&& 0x17 != 0 || bit w 6))
    || (kType w == 4 && (uses != 0 || bit w 6))
    || (bit w 5 && (!bit w 4 || uses &&& 0xF != 0))

/-- What refuses a slot to a request before its own rule: slot 0, SLOT_BAD, restricted boot, OWNER (R507-R510); `loose` is a
LOAD or ERASE. -/
def slotBarred (s : State) (n ini : Nat) (loose : Bool) : Option Nat :=
  let k := keySlotOf s n
  if n = 0 then some 0x104
  else if k.bad && !(loose && !bit k.attr 7) then some 0x100
  else if restricted s && !bit k.attr 26 then some 0x102
  else if !ownerAdmits k.attr ini then some 0x103
  else none

/-- What refuses a slot to an operation that needs a use bit, and a KTYPE (any for 0); a slot with BIND_MEAS serves only
DERIVE (R507). -/
def slotRefuses (s : State) (n ini useBit ktype : Nat) : Option Nat :=
  let k := keySlotOf s n
  match slotBarred s n ini false with
  | some e => some e
  | none =>
    if kType k.attr = 0 then some 0x101
    else if !bit k.attr useBit || (bit k.attr 5 && useBit != 4) || (ktype != 0 && kType k.attr != ktype) then some 0x102
    else none

/-- A request ends with an error. -/
def secFail (r : SecReq) (e : Nat) (s : State) : State := onSec (fun c => { c with run := some { req := r, err := e } }) s

/-- A request ends well, with its results. -/
def secOk (r : SecReq) (res : List Word) (s : State) : State := onSec (fun c => { c with run := some { req := r, res := res } }) s

/-- Words of a request's arguments as bytes. -/
def argBytes (r : SecReq) (a n : Nat) : List Byte := bytesOfWords ((r.args.drop a).take n)

/-- An argument. -/
def argOf (r : SecReq) (k : Nat) : Word := r.args.getD k 0

/-- The request draws from the DRBG. -/
def secDrew (s : State) : State := used (onSec (fun c => { c with run := c.run.map fun x => { x with drew := true } }) s)

/-! ### LOAD, VERIFY, COMMIT, ERASE (R511-R513) -/

/-- A value enters the shadow of a slot with a new ticket. -/
def shadowLoad (r : SecReq) (n : Nat) (attr : Word) (value : List Byte) (verified wrapped : Bool) (s : State) : State :=
  let t := (s.sec.ticket + 1) % 2 ^ 32
  secOk r [word t] (putShadow n (some { value := value, attr := attr, ticket := t, verified := verified, wrapped := wrapped })
    (onSec (fun c => { c with ticket := t }) s))

/-- What refuses the loading of a shadow: the slot, LOCKED, the new attribute word, its OWNER (R507, R511). -/
def loadRefuses (s : State) (n ini : Nat) (attr : Word) : Option Nat :=
  match slotBarred s n ini true with
  | some e => some e
  | none =>
    if bit (keySlotOf s n).attr 7 then some 0x104
    else if attrBroken attr then some 0x102
    else if !ownerAdmits attr ini then some 0x103
    else none

/-- LOAD (R511); a reserved source fails as BAD_OP (DESIGN CHOICE, log 31). -/
def secLoad (r : SecReq) (s : State) : State :=
  let attr := argOf r 15
  match loadRefuses s r.slot r.ini attr with
  | some e => secFail r e s
  | none =>
    match r.flags with
    | 0 => secDrew (shadowLoad r r.slot attr (freeB s 32) true false s)
    | 1 =>
      match slotRefuses s r.slot2 r.ini 1 1 with
      | some e => secFail r e s
      | none =>
        match Config.keyUnwrap (keySlotOf s r.slot2).value (argBytes r 0 10) with
        | some v => shadowLoad r r.slot attr (takePad 32 v) false true s
        | none => secFail r 0x107 s
    | 2 =>
      let pub := kType attr == 3 || kType attr == 4
      if !pub && r.ini != 8 then secFail r 0x103 s else shadowLoad r r.slot attr (argBytes r 0 8) pub false s
    | _ => secFail r 0x10C s

/-- The shadow that a ticket names (R511). -/
def shadowNamed (s : State) (n : Nat) (ticket : Word) : Option Shadow :=
  match shadowOf s n with
  | some x => if x.ticket = ticket.toNat then some x else none
  | none => none

/-- VERIFY (R512). -/
def secVerify (r : SecReq) (s : State) : State :=
  match slotBarred s r.slot r.ini false with
  | some e => secFail r e s
  | none =>
    match shadowNamed s r.slot (argOf r 8) with
    | none => secFail r 0x105 s
    | some x =>
      let kat := takePad 16 (Config.hmacSha256 x.value (ascii ['G', 'L', 'F', '-', 'K', 'A', 'T'] ++ argBytes r 0 4))
      if kat = argBytes r 4 4 then secOk r [] (putShadow r.slot (some { x with verified := true }) s)
      else secFail r 0x106 (putShadow r.slot none s)

/-- The commit point: the copy that holds g - 1, or copy A where both hold g, takes generation g + 1, and the new value serves
(R513). -/
def slotCommit (n : Nat) (value : List Byte) (attr : Word) (s : State) : State :=
  let k := keySlotOf s n
  let a := spGet (fun _ => ({} : KeySlot)) s.sec.copyA n
  let b := spGet (fun _ => ({} : KeySlot)) s.sec.copyB n
  let new : KeySlot := { value := value, attr := attr, gen := (k.gen + 1) % 2 ^ 32 }
  let toB := a.gen == k.gen && b.gen != k.gen
  let s1 := { s with keys := spPut (fun _ => {}) n new s.keys }
  onSec (fun c => if toB then { c with copyB := spPut (fun _ => {}) n new c.copyB } else { c with copyA := spPut (fun _ => {}) n new c.copyA }) s1

/-- COMMIT (R513); an unverified shadow is refused as one that is not there (DESIGN CHOICE, log 31). -/
def secCommit (r : SecReq) (s : State) : State :=
  match slotBarred s r.slot r.ini false with
  | some e => secFail r e s
  | none =>
    if bit (keySlotOf s r.slot).attr 7 then secFail r 0x104 s
    else match shadowNamed s r.slot (argOf r 0) with
    | none => secFail r 0x105 s
    | some x =>
      if !x.verified then secFail r 0x105 s
      else
        let heals := restricted s && bit x.attr 26 && x.wrapped
        let s1 := secOk r [] (putShadow r.slot none (slotCommit r.slot x.value x.attr s))
        onSec (fun c => { c with run := c.run.map fun y => { y with heals := heals } }) s1

/-- ERASE (R513). -/
def secErase (r : SecReq) (s : State) : State :=
  match slotBarred s r.slot r.ini true with
  | some e => secFail r e s
  | none =>
    if bit (keySlotOf s r.slot).attr 7 then secFail r 0x104 s
    else secOk r [] (slotCommit r.slot (List.replicate 32 0) 0 s)

/-! ### Uses of keys (R515-R520) -/

/-- INFO: attribute word, SHADOW and BAD, generation. -/
def secInfo (r : SecReq) (s : State) : State :=
  let k := keySlotOf s r.slot
  if restricted s && !bit k.attr 26 then secFail r 0x102 s
  else if !ownerAdmits k.attr r.ini && r.slot != 0 then secFail r 0x103 s
  else secOk r [k.attr, word (2 * b01 (shadowOf s r.slot).isSome + b01 k.bad), word k.gen] s

/-- The input of a request lies in system SRAM or DRAM and has an admitted length. -/
def secInput (r : SecReq) (lo hi : Nat) : Bool := decide (lo ≤ r.len) && decide (r.len ≤ hi) && (r.len == 0 || inRam r.ptr r.len)

/-- DERIVE (R516). -/
def secDerive (r : SecReq) (s : State) : State :=
  match slotRefuses s r.slot r.ini 4 0 with
  | some e => secFail r e s
  | none =>
    if !secInput r 1 256 then secFail r 0x10C s
    else
      let k := keySlotOf s r.slot
      let m := memRead s r.ptr r.len ++ (if bit k.attr 5 then takePad 48 (Config.sha384 (maOf s 0 ++ maOf s 1 ++ maOf s 2 ++ maOf s 3)) else [])
      let v := takePad 32 (Config.hmacSha256 k.value m)
      match r.flags with
      | 0 =>
        if 4 ≤ r.slot2 ∧ r.slot2 ≤ 7 then
          secOk r [] { s with cryp := { s.cryp with keys := spPut (fun _ => none) r.slot2 (some (v, true)) s.cryp.keys } }
        else secFail r 0x10C s
      | 1 =>
        match loadRefuses s r.slot2 r.ini (argOf r 15) with
        | some e => secFail r e s
        | none => shadowLoad r r.slot2 (argOf r 15) v true false s
      | _ => secFail r 0x10C s

/-- MAC. -/
def secMac (r : SecReq) (s : State) : State :=
  match slotRefuses s r.slot r.ini 2 1 with
  | some e => secFail r e s
  | none =>
    if !secInput r 0 65536 then secFail r 0x10C s
    else secOk r (wordsOf (takePad 32 (Config.hmacSha256 (keySlotOf s r.slot).value (memRead s r.ptr r.len)))) s

/-- SIGN: r and s of a digest, with a random k from the DRBG. -/
def secSign (r : SecReq) (s : State) : State :=
  match slotRefuses s r.slot r.ini 3 2 with
  | some e => secFail r e s
  | none => secDrew (secOk r (wordsOf (takePad 64 (Config.ecdsaSign (keySlotOf s r.slot).value (argBytes r 0 8) (freeB s 32)))) s)

/-- WRAP: the value under AES-KW of SLOT2. -/
def secWrap (r : SecReq) (s : State) : State :=
  match slotRefuses s r.slot r.ini 6 0, slotRefuses s r.slot2 r.ini 0 1 with
  | some e, _ => secFail r e s
  | none, some e => secFail r e s
  | none, none => secOk r (wordsOf (takePad 40 (Config.keyWrap (keySlotOf s r.slot2).value (keySlotOf s r.slot).value))) s

/-- EXTEND (R515). -/
def secExtend (r : SecReq) (s : State) : State :=
  let i := r.slot % 8
  if i < 4 && regB s .sec 0x040 31 then secFail r 0x10A s
  else if i < 4 && r.ini != 8 then secFail r 0x103 s
  else
    let v := takePad 48 (Config.sha384 (maOf s i ++ argBytes r 0 12))
    secOk r [] (onSec (fun c => { c with ma := spPut (fun _ => []) i v c.ma }) s)

/-- The message of ATTEST (R517). -/
def attestMessage (r : SecReq) (s : State) : List Byte :=
  ascii ['G', 'L', 'F', '-', 'A', 'T', 'T', 'E', 'S', 'T'] ++ argBytes r 0 8 ++ (List.range 8).flatMap (maOf s)
    ++ leBytes 4 (regN s .ident 0x048) ++ leBytes 4 (regN s .ident 0x04C) ++ leBytes 1 (regF s .ident 0x044 7 0) ++ leBytes 1 (regF s .sec 0x040 31 24)
    ++ leBytes 4 r.slot

/-- ATTEST. -/
def secAttest (r : SecReq) (s : State) : State :=
  match slotRefuses s r.slot r.ini 2 1 with
  | some e => secFail r e s
  | none => secOk r (wordsOf (takePad 32 (Config.hmacSha256 (keySlotOf s r.slot).value (attestMessage r s)))) s

/-- NONCE (R518). -/
def secNonce (r : SecReq) (s : State) : State :=
  let n := freeB s 32
  secDrew (secOk r (wordsOf n) (onSec (fun c => { c with nonce := some n }) s))

/-- The signature of a token holds under the slot it names (R518): none where the slot does not serve. -/
def tokenSigned (t : List Byte) (k : KeySlot) : Option Bool :=
  let body := t.take 64
  if kType k.attr = 3 ∧ bit k.attr 3 then
    some (Config.ecdsaVerify 256 (BitVec.ofNat 8 (2 + b01 (bit k.attr 27)) :: k.value) (Config.sha256 body) (t.drop 64))
  else if kType k.attr = 1 ∧ bit k.attr 2 ∧ !bit k.attr 5 then
    some (t.drop 64 == takePad 32 (Config.hmacSha256 k.value body) ++ List.replicate 32 0)
  else none

/-- A token fails: NONCE_STALE and SIG_FAIL are recorded too (R518). -/
def tokenFail (r : SecReq) (cmd e : Nat) (s : State) : State :=
  let s1 := secFail r e (onSec (fun c => { c with nonce := none }) s)
  if e = 0x108 ∨ e = 0x109 then evrOffer .sec 0x0013 (leBytes 1 cmd ++ leBytes 2 e) s1 else s1

/-- EXEC (R518). -/
def secExec (r : SecReq) (s : State) : State :=
  let t := memRead s r.ptr 128
  let cmd := (t.getD 4 0).toNat
  let n := (t.getD 5 0).toNat
  let arg := word (leNat ((t.drop 48).take 4))
  if !inRam r.ptr 128 || t.take 4 != [0x47, 0x53, 0x49, 0x47] || (cmd != 1 && cmd != 2) then tokenFail r cmd 0x10C s
  else if leNat ((t.drop 8).take 8) != regN s .ident 0x04C * 2 ^ 32 + regN s .ident 0x048 || s.sec.nonce != some ((t.drop 16).take 32) then tokenFail r cmd 0x109 s
  else
    match slotBarred s (n % 64) r.ini false with
    | some e => tokenFail r cmd e s
    | none =>
      match tokenSigned t (keySlotOf s (n % 64)) with
      | none => tokenFail r cmd (if kType (keySlotOf s (n % 64)).attr = 0 then 0x101 else 0x102) s
      | some false => tokenFail r cmd 0x108 s
      | some true =>
        let s1 := onSec (fun c => { c with nonce := none }) s
        secOk r [] (if cmd = 1 then totClr (arg &&& 0xFFFFFF) s1 else evrClear n s1)

/-! ### The mailbox (R519-R521) -/

/-- A request is carried out: what it would leave undone is kept beside it. -/
def secServe (r : SecReq) (s : State) : State :=
  let before : SecUndo := {
    slot := some (r.slot, keySlotOf s r.slot, spGet (fun _ => {}) s.sec.copyA r.slot, spGet (fun _ => {}) s.sec.copyB r.slot)
    shadows := s.sec.shadows, ma := s.sec.ma, keys := s.cryp.keys }
  let t := match r.op with
    | 1 => secInfo r s | 2 => secLoad r s | 3 => secVerify r s | 4 => secCommit r s | 5 => secErase r s | 6 => secDerive r s | 7 => secMac r s
    | 8 => secSign r s | 9 => secWrap r s | 10 => secExtend r s | 11 => secAttest r s | 12 => secNonce r s | 13 => secExec r s
    | _ => secFail r 0x10C s
  onSec (fun c => { c with run := c.run.map fun x => { x with undo := before } }) t

/-- The next request is served, where none is (R521). -/
def secNext (s : State) : State :=
  match s.sec.run, s.sec.queue with
  | none, r :: rest => secServe r (onSec (fun c => { c with queue := rest }) s)
  | _, _ => s

/-- `MB_STAT.BUSY` of an initiator. -/
def secBusyOf (s : State) (i : Fin 10) : Bool := bit (regI s .sec 0x090 i) 0

/-- A write of `MB_GO`: PORT_BUSY while BUSY, else DONE, FAIL and ABORTED clear, the results are zeroed, and the request joins
the queue (R521). -/
def secGo (ini : Ini) (s : State) : State :=
  if secBusyOf s ini.id then recErr .sec 0x10D s
  else
    let c := regI s .sec 0x080 ini.id
    let r : SecReq := { ini := ini.id.val, op := fld c 31 24, slot := fld c 21 16, slot2 := fld c 13 8, flags := fld c 7 0
                        ptr := (regI s .sec 0x084 ini.id).toNat, len := fld (regI s .sec 0x088 ini.id) 16 0
                        args := (List.range 16).map fun k => regI s .sec (0x0C0 + 4 * k) ini.id }
    let s1 := forEach (fun k t => setRegI .sec (0x100 + 4 * k) ini.id 0 t) (List.range 16) (setRegI .sec 0x090 ini.id 1 s)
    secNext (onSec (fun x => { x with queue := x.queue ++ [r] }) s1)

/-- A write of `MB_GO`. -/
def mbGoSec (ini : Ini) (v : Word) (s : State) : State := if v = 0x5C000000 then workRequest .sec (secGo ini) s else s

/-- A write of another mailbox register: ignored with PORT_BUSY while BUSY (R521). -/
def mbPortWrite (ini : Ini) (off : Nat) (v : Word) (s : State) : State :=
  if secBusyOf s ini.id then recErr .sec 0x10D s else plainWrite ini .sec off v s

/-- A mailbox command: `MB_GO` where `MB_CMD` holds the operation. -/
def mbOp (op : Nat) (ini : Ini) (s : State) : Out :=
  done s (if fld (regI s .sec 0x080 ini.id) 31 24 = op then admitWrite ini .sec 0x08C 0x5C000000 (mbGoSec ini 0x5C000000) s else s)

/-- A read of `MB_RES`: zeros and EARLY_READ before DONE (R521). -/
def mbResRead (ini : Ini) (w : Nat) (s : State) : State :=
  if bit (regI s .sec 0x090 ini.id) 1 then answer (.data (regI s .sec (0x100 + 4 * w) ini.id)) s
  else answer (.data 0) (recErr .sec 0x10E s)

/-- What the request had done is undone. -/
def secUndo (u : SecUndo) (s : State) : State :=
  let s1 := { s with cryp := { s.cryp with keys := u.keys } }
  let s2 := onSec (fun c => { c with shadows := u.shadows, ma := u.ma }) s1
  match u.slot with
  | none => s2
  | some (n, k, a, b) =>
    onSec (fun c => { c with copyA := spPut (fun _ => {}) n a c.copyA, copyB := spPut (fun _ => {}) n b c.copyB })
      { s2 with keys := spPut (fun _ => {}) n k s2.keys }

/-- The other copy takes the value that serves (R513). -/
def copyBoth (n : Nat) (s : State) : State :=
  let k := keySlotOf s n
  onSec (fun c => { c with copyA := spPut (fun _ => {}) n k c.copyA, copyB := spPut (fun _ => {}) n k c.copyB }) s

/-- A request is at its end: DONE with its results, or FAIL with its error. -/
def secEnd (x : SecRun) (err : Nat) (s : State) : State :=
  let i : Fin 10 := Fin.ofNat 10 x.req.ini
  let s1 := onSec (fun c => { c with run := none }) s
  let s2 := if err = 0 then setRegI .sec 0x090 i 2 (forEach (fun k t => setRegI .sec (0x100 + 4 * k) i (x.res.getD k 0) t) (List.range 16) s1)
    else recErr .sec err (setRegI .sec 0x094 i (word err) (setRegI .sec 0x090 i 4 s1))
  raiseIrq .sec 0 s2

/-- A re-provisioning of a recovery slot clears the tamper latches (R539). -/
def secHeals (x : SecRun) (s : State) : State :=
  if x.heals then evrOffer .sec 0x0014 (leBytes 1 x.req.slot ++ leBytes 2 (regF s .oasis 0x110 15 0)) (setReg .oasis 0x104 0 s) else s

/-- The request stores a slot (R513). -/
def secStores (x : SecRun) : Bool := x.err == 0 && (x.req.op == 4 || x.req.op == 5)

/-- The request being served completes (R513, R521), and the next one is served; success on the one retry is a transient fault
(R16). -/
def mbDone (f : SecFault) (s : State) : State :=
  match s.sec.run with
  | none => s
  | some x =>
    let stores := secStores x
    let good := fun (t : State) => if stores then secEnd x 0 (secHeals x (copyBoth x.req.slot t)) else secEnd x x.err t
    secNext (match f with
      | .none => good s
      | .retried => good (if stores || x.drew then noteTransient .sec s else s)
      | .early => if stores then secEnd x 0x10F (secUndo x.undo s) else if x.drew then secEnd x 0x110 (secUndo x.undo s) else secEnd x x.err s
      | .late => if stores then secEnd x 0x10F s else secEnd x x.err s)

/-- `SLOT_BAD`, `SLOT_USED` of 32 slots from a number on (R519). -/
def slotBits (s : State) (from' : Nat) (f : KeySlot → Bool) : Word :=
  word ((List.range 32).foldl (fun a k => if f (keySlotOf s (from' + k)) then a + 2 ^ k else a) 0)

/-- The number of slots SLOT_BAD. -/
def slotsBad (s : State) : Nat := ((List.range 64).filter fun n => (keySlotOf s n).bad).length

/-- The registers of SEC whose reads are computed. -/
def secView (s : State) (off : Nat) : Option Word :=
  match off with
  | 0x040 => some (setFld (reg s .sec 0x040) 15 8 (slotsBad s))
  | 0x048 => some (slotBits s 0 (·.bad))
  | 0x04C => some (slotBits s 32 (·.bad))
  | 0x050 => some (slotBits s 0 fun k => kType k.attr != 0)
  | 0x054 => some (slotBits s 32 fun k => kType k.attr != 0)
  | _ =>
    if 0x400 ≤ off ∧ off < 0x600 then
      let w := off % 0x40 / 4
      if w < 12 then some (word (leNat (((maOf s ((off - 0x400) / 0x40)).drop (4 * w)).take 4))) else none
    else none

/-- Accepted work of SEC. -/
def secBusy (s : State) : Bool := s.sec.run.isSome || !s.sec.queue.isEmpty

end Sys2Proof.Machine
end

