-- ==== Sys2Proof/Machine/Cryp.lean ====
section
/-! DEFINITION. The CRYP engine (R522, R523), and the response to a tamper latch (R524). -/
namespace Sys2Proof.Machine

/-- A key register. -/
def crypKey (s : State) (n : Nat) : Option (List Byte × Bool) := spGet (fun _ => none) s.cryp.keys n

/-- Changes CRYP's own state. -/
def onCryp (f : Cryp → Cryp) (s : State) : State := { s with cryp := f s.cryp }

/-- CRYP is running a job. -/
def crypBusy (s : State) : Bool := s.cryp.job.isSome

/-- `CR_STAT` at a job's end; DONE and FAIL as given. -/
def crypEnd (ok : Bool) (s : State) : State :=
  raiseIrq .cryp 0 (setReg .cryp 0x044 (if ok then 2 else 6) (onCryp (fun c => { c with job := none }) s))

/-- A write of `CR_GO` (R522): CRYP_BUSY, ALG_INVALID, KEY_EMPTY, or a job with the registers as they stand. -/
def crypGo (s : State) : State :=
  let c := reg s .cryp 0x040
  let alg := fld c 3 0
  let keyed := decide (alg ≤ 3) || alg == 6
  let fails := fun code => recErr .cryp code (setReg .cryp 0x044 4 s)
  if crypBusy s then recErr .cryp 0x101 s
  else if 9 < alg then fails 0x103
  else if keyed && (crypKey s (fld c 10 8)).isNone then fails 0x102
  else
    let k := (crypKey s (fld c 10 8)).getD ([], false)
    let key := if !keyed then [] else if alg = 6 then k.1 else takePad (if bit c 12 then 32 else 16) k.1
    let job : CrypJob := { alg := alg, dec := bit c 4, key := key, src := regN s .cryp 0x048, dst := regN s .cryp 0x04C, len := regN s .cryp 0x050
                           aad := regN s .cryp 0x054, iv := (List.range 4).flatMap fun n => leBytes 4 (regN s .cryp (0x060 + 4 * n))
                           tag := (List.range 4).flatMap fun n => leBytes 4 (regN s .cryp (0x070 + 4 * n)) }
    setReg .cryp 0x044 1 (forEach (fun n t => setReg .cryp (0x100 + 4 * n) 0 t) (List.range 16) (onCryp (fun x => { x with job := some job }) s))

/-- A write of `CR_GO`. -/
def crGoWrite (v : Word) (s : State) : State := if v = 1 then workRequest .cryp crypGo s else s

/-- A CRYP command: `CR_GO` where `CR_CTRL` holds the algorithm. -/
def crypOp (ok : Nat → Bool) (ini : Ini) (s : State) : Out :=
  done s (if ok (regF s .cryp 0x040 3 0) then admitWrite ini .cryp 0x058 1 (crGoWrite 1) s else s)

/-- `CR_KEY0`-`CR_KEY7` hold the key data. -/
def crKeyWrite (n : Nat) (v : Word) (s : State) : State := onCryp (fun c => { c with data := spPut (fun _ => 0) n v c.data }) s

/-- A write of `CR_KLOAD`: loads key register 0-3 and zeroes the key data (R522). -/
def crKload (v : Word) (s : State) : State :=
  let k := (List.range 8).flatMap fun n => leBytes 4 (spGet (fun _ => (0 : Word)) s.cryp.data n).toNat
  if 4 ≤ fld v 2 0 then onCryp (fun c => { c with data := [] }) s
  else onCryp (fun c => { c with data := [], keys := spPut (fun _ => none) (fld v 2 0) (some (if bit v 8 then k else takePad 16 k, bit v 8)) c.keys }) s

/-! ### The algorithms -/

/-- Blocks of 16 bytes, the last as long as it is. -/
def blocks16 : Nat → List Byte → List (List Byte)
  | 0, _ => []
  | n + 1, l => if l.isEmpty then [] else l.take 16 :: blocks16 n (l.drop 16)

/-- Bytes combined by exclusive or, as long as the first. -/
def xorBytes (a b : List Byte) : List Byte := List.zipWith (· ^^^ ·) a (takePad a.length b)

/-- One AES block. -/
def aes (key : List Byte) (dec : Bool) (b : List Byte) : List Byte := takePad 16 (Config.aesBlock key dec (takePad 16 b))

/-- CBC over blocks with a chaining value (SP 800-38A). -/
def cbc (key : List Byte) (dec : Bool) : List Byte → List (List Byte) → List Byte
  | _, [] => []
  | iv, b :: bs =>
    if dec then xorBytes (aes key true b) iv ++ cbc key dec b bs
    else let c := aes key false (xorBytes b iv); c ++ cbc key dec c bs

/-- CTR over blocks with a 128-bit counter block (SP 800-38A); GCM's increments its low 32 bits (SP 800-38D). -/
def ctr (key : List Byte) (gcm : Bool) : Nat → List (List Byte) → List Byte
  | _, [] => []
  | n, b :: bs =>
    let next := if gcm then n / 2 ^ 32 * 2 ^ 32 + (n + 1) % 2 ^ 32 else (n + 1) % 2 ^ 128
    xorBytes b (aes key false (beBytes 16 n)) ++ ctr key gcm next bs

/-- The lengths of the input that a job reads: a verify's is fixed, the DRBG has none. -/
def crypIn (j : CrypJob) : Nat :=
  match j.alg with
  | 7 => 160
  | 8 => 240
  | 9 => 0
  | _ => j.len

/-- The bytes that a job writes to memory. -/
def crypOutLen (j : CrypJob) : Nat := if j.alg ≤ 2 then j.len else if j.alg = 3 then j.len - j.aad else 0

/-- Puts a digest, tag or random bytes into `CR_OUT`. -/
def crypOut (bs : List Byte) (s : State) : State :=
  forEach (fun n t => setReg .cryp (0x100 + 4 * n) (word (leNat ((bs.drop (4 * n)).take 4))) t) (List.range 16) s

/-- A job's work (R504, R522): whether it succeeds, and the state. -/
def crypWork (j : CrypJob) (s : State) : Bool × State :=
  let x := memRead s j.src (crypIn j)
  let bl := blocks16 (x.length + 1)
  match j.alg with
  | 0 => (true, memWrite j.dst (((bl x).flatMap (aes j.key j.dec)).take j.len) s)
  | 1 => (true, memWrite j.dst ((cbc j.key j.dec j.iv (bl x)).take j.len) s)
  | 2 => (true, memWrite j.dst (ctr j.key false (beNat j.iv) (bl x)) s)
  | 3 =>
    let aad := x.take j.aad
    let body := x.drop j.aad
    let iv := j.iv.take 12
    let out := ctr j.key true (beNat iv * 2 ^ 32 + 2) (bl body)
    let tag := takePad 16 (Config.gcmTag j.key iv aad (if j.dec then body else out))
    (!j.dec || tag == j.tag, crypOut tag (memWrite j.dst out s))
  | 4 => (true, crypOut (takePad 32 (Config.sha256 x)) s)
  | 5 => (true, crypOut (takePad 48 (Config.sha384 x)) s)
  | 6 => (true, crypOut (takePad 32 (Config.hmacSha256 j.key x)) s)
  | 7 => (Config.ecdsaVerify 256 ((x.drop 32).take 64) (x.take 32) (x.drop 96), s)
  | 8 => (Config.ecdsaVerify 384 ((x.drop 48).take 96) (x.take 48) (x.drop 144), s)
  | _ => (true, used (crypOut (freeB s (min 64 j.len)) s))

/-- A job's buffers lie in memory that a master may reach; a bus error fails the job (R523). -/
def crypReach (j : CrypJob) : Bool :=
  (crypIn j == 0 || inRam j.src (crypIn j)) && (crypOutLen j == 0 || inRam j.dst (crypOutLen j))
    && decide (j.alg ≠ 3 ∨ j.aad ≤ j.len)

/-- A job completes (R523). -/
def crypDone (s : State) : State :=
  match s.cryp.job with
  | none => s
  | some j =>
    if !running s .cryp then s
    else if !crypReach j then crypEnd false (recErr .cryp 0x105 s)
    else let r := crypWork j s; crypEnd r.1 r.2

/-- A read of `CR_OUT`: zeros and EARLY_READ before DONE (R523). -/
def crOutRead (w : Nat) (s : State) : State :=
  if regB s .cryp 0x044 1 then answer (.data (reg s .cryp (0x100 + 4 * w))) s else answer (.data 0) (recErr .cryp 0x100 s)

/-- A block reset of CRYP: the job is dropped, and every key register is zeroed (R522). -/
def crypDatapath (s : State) : State :=
  setReg .cryp 0x044 0 (crypOut [] { s with cryp := {} })

/-! ### Tamper (R524) -/

/-- The request in progress is aborted: results zeroed, shadows discarded; a commit stands if it had passed its point, which
the model leaves open. -/
def mbAbort (s : State) : State :=
  match s.sec.run with
  | none => onSec (fun c => { c with shadows := [] }) s
  | some x =>
    let i : Fin 10 := Fin.ofNat 10 x.req.ini
    let s1 := used (if freeN s % 2 = 1 then secUndo x.undo s else s)
    let s2 := forEach (fun k t => setRegI .sec (0x100 + 4 * k) i 0 t) (List.range 16) (onSec (fun c => { c with run := none, shadows := [] }) s1)
    raiseIrq .sec 1 (recErr .sec 0x10B (setRegI .sec 0x094 i 0x10B (setRegI .sec 0x090 i 0xC s2)))

/-- A CRYP job is aborted: `CR_OUT` is zeroed, and so are the bytes it had written, as many as the model leaves open. -/
def crypAbort (s : State) : State :=
  match s.cryp.job with
  | none => s
  | some j =>
    let n := freeN s % (crypOutLen j + 1)
    let s1 := used (if crypReach j then memWrite j.dst (List.replicate n 0) s else s)
    raiseIrq .cryp 1 (recErr .cryp 0x104 (setReg .cryp 0x044 0xC (crypOut [] (onCryp (fun c => { c with job := none }) s1))))

/-- The tamper policy of the option bytes (R538): ZEROISE, RESTRICT, DBG_CLOSE; NO_UPDATE acts at a start. -/
def tamperPolicy (s : State) : State :=
  let pol := optByte s 13
  let s1 := if pol.testBit 0 then onCryp (fun c => { c with keys := [] }) (onSec (fun c => { c with shadows := [] }) s) else s
  let s2 := if pol.testBit 1 then setRegB .sec 0x040 30 true s1 else s1
  if pol.testBit 3 then { s2 with boot := { s2.boot with dbgClosed := true } } else s2

/-- The response to a tamper latch while the security core runs (R524). -/
def tamperResponse (s : State) : State :=
  if s.rst.active then s
  else secNext (setRegB .sec 0x040 29 true (tamperPolicy (crypAbort (mbAbort s))))

/-! ### The commands -/

/-- `INFO`. -/
def execInfo (ini : Ini) (s : State) : Out := mbOp 0x01 ini s
/-- `LOAD`. -/
def execLoad (ini : Ini) (s : State) : Out := mbOp 0x02 ini s
/-- `VERIFY`. -/
def execVerify (ini : Ini) (s : State) : Out := mbOp 0x03 ini s
/-- `COMMIT`. -/
def execCommit (ini : Ini) (s : State) : Out := mbOp 0x04 ini s
/-- `ERASE`. -/
def execErase (ini : Ini) (s : State) : Out := mbOp 0x05 ini s
/-- `DERIVE`. -/
def execDerive (ini : Ini) (s : State) : Out := mbOp 0x06 ini s
/-- `MAC`. -/
def execMac (ini : Ini) (s : State) : Out := mbOp 0x07 ini s
/-- `SIGN`. -/
def execSign (ini : Ini) (s : State) : Out := mbOp 0x08 ini s
/-- `WRAP`. -/
def execWrap (ini : Ini) (s : State) : Out := mbOp 0x09 ini s
/-- `EXTEND`. -/
def execExtend (ini : Ini) (s : State) : Out := mbOp 0x0A ini s
/-- `ATTEST`. -/
def execAttest (ini : Ini) (s : State) : Out := mbOp 0x0B ini s
/-- `NONCE`. -/
def execNonce (ini : Ini) (s : State) : Out := mbOp 0x0C ini s
/-- `EXEC`. -/
def execExec (ini : Ini) (s : State) : Out := mbOp 0x0D ini s

/-- `BAD_OP`: an undefined OP (R520). -/
def execBadOp (ini : Ini) (s : State) : Out :=
  let op := fld (regI s .sec 0x080 ini.id) 31 24
  if op = 0 ∨ 13 < op then mbOp op ini s else done s s

/-- `NONCE_EXPIRE` (R518). -/
def execNonceExpire (s : State) : Out := done s (onSec (fun c => { c with nonce := none }) s)

/-- `MB_RES_READ`. -/
def execMbResRead (ini : Ini) (w : Fin 16) (s : State) : Out := done s (admitRead ini .sec (0x100 + 4 * w.val) (mbResRead ini w.val) s)

/-- `MB_DONE`. -/
def execMbDone (f : SecFault) (s : State) : Out := done s (mbDone f s)

/-- `AES_ECB`. -/
def execAesEcb (ini : Ini) (s : State) : Out := crypOp (· == 0) ini s
/-- `AES_CBC`. -/
def execAesCbc (ini : Ini) (s : State) : Out := crypOp (· == 1) ini s
/-- `AES_CTR`. -/
def execAesCtr (ini : Ini) (s : State) : Out := crypOp (· == 2) ini s
/-- `AES_GCM`. -/
def execAesGcm (ini : Ini) (s : State) : Out := crypOp (· == 3) ini s
/-- `SHA_256`. -/
def execSha256 (ini : Ini) (s : State) : Out := crypOp (· == 4) ini s
/-- `SHA_384`. -/
def execSha384 (ini : Ini) (s : State) : Out := crypOp (· == 5) ini s
/-- `HMAC_SHA_256`. -/
def execHmacSha256 (ini : Ini) (s : State) : Out := crypOp (· == 6) ini s
/-- `P256_VERIFY`. -/
def execP256Verify (ini : Ini) (s : State) : Out := crypOp (· == 7) ini s
/-- `P384_VERIFY`. -/
def execP384Verify (ini : Ini) (s : State) : Out := crypOp (· == 8) ini s
/-- `DRBG`. -/
def execDrbg (ini : Ini) (s : State) : Out := crypOp (· == 9) ini s
/-- `ALG_INVALID`. -/
def execAlgInvalid (ini : Ini) (s : State) : Out := crypOp (fun n => decide (9 < n)) ini s

/-- `CRYP_DONE`. -/
def execCrypDone (s : State) : Out := done s (crypDone s)

/-- `CR_KLOAD`. -/
def execCrKload (ini : Ini) (v : Word) (s : State) : Out := done s (admitWrite ini .cryp 0x0A0 v (crKload v) s)

/-- `CR_OUT_READ`. -/
def execCrOutRead (ini : Ini) (w : Fin 16) (s : State) : Out := done s (admitRead ini .cryp (0x100 + 4 * w.val) (crOutRead w.val) s)

end Sys2Proof.Machine
end

