-- ==== Sys2Proof/Machine/Boot.lean ====
section
/-! DEFINITION. Option bytes, the boot chain, packages, trial and rollback, the OPTB page (R526-R540), and IDENT (R600). -/
namespace Sys2Proof.Machine

/-- Changes the update's state. -/
def onBoot (f : Boot → Boot) (s : State) : State := { s with boot := f s.boot }

/-- A record that firmware of the security core writes (R583's table of codes). -/
def evrFirmware (code : Nat) (pay : List Byte) (s : State) : State :=
  { s with evr := { s.evr with offers := s.evr.offers ++ [{ code := code, pay := pay, src := 8, loc := locOfIni (serial16 s) 8 }] } }

/-! ### IDENT (R600) -/

/-- The identity offsets. -/
def identOffs : List Nat :=
  (List.range 11).map (fun k => 0x044 + 4 * k) ++ (List.range 3).flatMap (fun d => (List.range 4).map fun k => 0x100 + 0x10 * d + 4 * k) ++ [0x13C]

/-- The bits that an identity register has (R6, R601). -/
def identMask (off : Nat) : Nat :=
  if off = 0x044 || off = 0x064 || off = 0x06C then 0xFFFF
  else if off = 0x050 || off = 0x05C then 0x00FF0F1F
  else if decide (0x100 ≤ off) && decide (off < 0x130) then
    (match off % 0x10 with | 4 => 0xFFFF | 8 => 0x1F00FFFF | 0xC => 0xFFFF | _ => 0xFFFFFFFF)
  else 0xFFFFFFFF

/-- The ordering code: 0x01 HDL-GLF64-S1, 0x02 HDL-GLF64-S2 (R1, R601). -/
def orderCode : Nat := if Config.variantS2 then 2 else 1

/-- An identity word but the check: ORDER carries the code of the variant that is fitted (R1). -/
def identField (off : Nat) : Word :=
  let w := Config.identWord off &&& word (identMask off)
  if off = 0x044 then setFld w 7 0 orderCode else w

/-- `ID_CRC`: over offsets 0x044-0x138 in their order, reserved ones taken as zero (R600). -/
def identCrc : Word :=
  word (crc32 ((List.range 62).flatMap fun k =>
    leBytes 4 (if identOffs.contains (0x044 + 4 * k) then (identField (0x044 + 4 * k)).toNat else 0)))

/-- An identity word as manufacture wrote it. -/
def identValue (off : Nat) : Word := if off = 0x13C then identCrc else identField off

/-- IDENT reads the identity words; a check that holds on the second read is a transient fault (R16), a second failed check is
lasting, and every identity register reads 0. -/
def identRead (fails : Nat) (s : State) : State :=
  if fails < 2 then
    let s1 := if fails = 1 then noteTransient .ident s else s
    setReg .ident 0x040 1 (forEach (fun off t => setReg .ident off (identValue off) t) identOffs s1)
  else recErr .ident 0x100 (setReg .ident 0x040 0 (forEach (fun off t => setReg .ident off 0 t) identOffs s))

/-! ### Option bytes (R526, R529) -/

/-- A copy's place in the NOR window. -/
def optAddr (b : Bool) : Nat := if b then 0x30001000 else 0x30000000

/-- A copy of the option bytes, where its magic and CRC hold. -/
def optCopy (s : State) (b : Bool) : Option (List Byte) :=
  let d := memRead s (optAddr b) 64
  if d.take 4 = [0x47, 0x4F, 0x50, 0x54] ∧ leNat (d.drop 60) = crc32 (d.take 60) then some d else none

/-- GEN of a copy. -/
def optGen (d : List Byte) : Nat := leNat ((d.drop 4).take 4)

/-- The copy to be used: 0 A, 1 B, 2 none, with its bytes. -/
def optChoose (s : State) : Nat × List Byte :=
  match optCopy s false, optCopy s true with
  | some a, some b => if optGen a < optGen b then (1, b) else (0, a)
  | some a, none => (0, a)
  | none, some b => (1, b)
  | none, none => (2, optDefaults)

/-- The option bytes are read: those in force, `OPT_STAT`, OPT0-OPT15 and the reset values of `TW_CTRL`, by which a twin unit
starts without control and CONT quiesced (R57, R472). -/
def optRead (s : State) : State :=
  let c := optChoose s
  let s1 := { s with opt := c.2 }
  let s2 := setReg .optb 0x040 (word (c.1 / 2 * 256 + c.1 * 16)) s1
  let s3 := forEach (fun k t => setReg .optb (0x080 + 4 * k) (word (leNat ((c.2.drop (4 * k)).take 4))) t) (List.range 16) s2
  let s4 := contKeep (setReg .twin 0x040 (word (8 + optByte s1 9 / 2 % 2 + optByte s1 9 % 2 * 2)) s3)
  if c.1 = 2 then evrFirmware 0x0010 [] s4 else s4

/-- BOOT_SRC as it is read. -/
def bootSrc (s : State) : Nat := let n := optByte s 8 % 4; if n = 3 then 1 else n

/-- CONFIRM_WIN as it is read. -/
def confirmWin (s : State) : Nat := clampNat 30 3600 (optByte s 14 + 256 * optByte s 15)

/-- A new image has no reserved value or bit in bytes 8-59, and does not lower DBG (R529). -/
def optNewValid (s : State) (d : List Byte) : Bool :=
  let b := fun n => (d.getD n 0).toNat
  decide (b 8 ≤ 2) && decide (b 9 ≤ 3) && decide (b 10 ≤ 2) && decide (b 11 ≤ 7) && decide (b 12 ≤ 3) && decide (b 13 ≤ 15)
    && ((d.drop 16).take 44).all (· == 0) && decide (min 2 (optByte s 12 % 4) ≤ min 2 (b 12))

/-- `OPT_CMD` COMMIT: the copy not in use takes the new image with GEN one above (R529). -/
def optCommit (r : CopyResult) (s : State) : State :=
  let d := (List.range 16).flatMap fun k => leBytes 4 (regN s .optb (0x0C0 + 4 * k))
  if !optNewValid s d then recErr .optb 0x101 s
  else
    let use := regF s .optb 0x040 5 4
    let gen := if use = 2 then 0 else optGen s.opt
    let body := ([0x47, 0x4F, 0x50, 0x54] : List Byte) ++ leBytes 4 (gen + 1) ++ (d.drop 8).take 52
    let a := optAddr (use == 0)
    match r with
    | .failed => recErr .optb 0x102 (used (memWrite a (freeB s 64) s))
    | .okOnRetry => noteTransient .optb (memWrite a (body ++ leBytes 4 (crc32 body)) s)
    | .ok => memWrite a (body ++ leBytes 4 (crc32 body)) s

/-- A write of `OPT_CMD`. -/
def optCmdWrite (r : CopyResult) (v : Word) (s : State) : State := keyed .optb 0x4F v (fun t => if bit v 0 then optCommit r t else t) s

/-! ### Slots and tamper at a start (R508, R509, R538) -/

/-- The check of a slot's two copies: the one whose tag holds, or the higher generation; the other is rewritten. -/
def slotCheck (f : BootFacts) (n : Fin 64) (s : State) : State :=
  let a := spGet (fun _ => ({} : KeySlot)) s.sec.copyA n.val
  let b := spGet (fun _ => ({} : KeySlot)) s.sec.copyB n.val
  let okA := !a.bad && !f.badA.contains n
  let okB := !b.bad && !f.badB.contains n
  let use : KeySlot := if okA && (!okB || decide (b.gen ≤ a.gen)) then a else b
  if okA || okB then copyBoth n.val { s with keys := spPut (fun _ => {}) n.val use s.keys }
  else raiseIrq .sec 2 { s with keys := spPut (fun _ => {}) n.val { keySlotOf s n.val with bad := true } s.keys }

/-- Every slot is SLOT_BAD, and the module boots restricted (R508, R600). -/
def slotsLost (s : State) : State :=
  raiseIrq .sec 2 (setRegB .sec 0x040 30 true
    (forEach (fun n t => { t with keys := spPut (fun _ => {}) n { keySlotOf t n with bad := true } t.keys }) (List.range 64) s))

/-- Slot 0: generated at the first start, with its fixed attribute word (R508). -/
def slotZero (s : State) : State :=
  if kType (keySlotOf s 0).attr = 0 then used { s with keys := spPut (fun _ => {}) 0 { value := freeB s 32, attr := 0x10000090 } s.keys } else s

/-- The slots at a start. -/
def slotsLoad (f : BootFacts) (s : State) : State :=
  if !f.fuseOk || !regB s .ident 0x040 0 then slotsLost s
  else forEach (fun n t => if n = 0 then t else slotCheck f (Fin.ofNat 64 n) t) (List.range 64) (slotZero s)

/-- A tamper latch is found. -/
def latched (s : State) : Bool := regF s .oasis 0x104 4 0 != 0

/-! ### Packages (R533-R535) -/

/-- Bytes of the package in STAGE. -/
def pkg (s : State) (off len : Nat) : List Byte := (List.range len).map fun k => nandByte s.nand (off + k)

/-- A number of the package. -/
def pkgN (s : State) (off len : Nat) : Nat := leNat (pkg s off len)

/-- N and M. -/
def pkgCounts (s : State) : Nat × Nat := (pkgN s 6 1, pkgN s 7 1)

/-- Compatibility entries of a component. -/
def pkgDeps (s : State) (id : Nat) : List (Nat × Nat × Nat) :=
  let c := pkgCounts s
  (List.range c.2).filterMap fun k =>
    let o := 105 + 64 * c.1 + 12 * k
    if pkgN s o 1 = id then some (pkgN s (o + 1) 1, pkgN s (o + 4) 4, pkgN s (o + 8) 4) else none

/-- The components of the package: ID, offset, and what the set table keeps of them. -/
def pkgComps (s : State) : List (Nat × Nat × SetComp) :=
  (List.range (pkgCounts s).1).map fun k =>
    let o := 105 + 64 * k
    (pkgN s o 1, pkgN s (o + 8) 4, { ver := pkgN s (o + 4) 4, len := pkgN s (o + 12) 4, digest := pkg s (o + 16) 48, deps := pkgDeps s (pkgN s o 1) })

/-- The greatest length of a component (R533). -/
def compLimit (id : Nat) : Nat :=
  match id with
  | 0 => 224 * 1024 | 1 => 64 * 1024 | 2 => 256 * 1024 | 3 => 512 * 1024 | 4 => 448 * 1024 * 1024 | _ => 0

/-- The form of the package is within R533, and it serves the ordering code. -/
def pkgFormat (s : State) : Bool :=
  let c := pkgCounts s
  pkg s 0 4 == [0x47, 0x50, 0x4B, 0x47] && decide (1 ≤ c.1) && decide (c.1 ≤ 5) && decide (c.2 ≤ 64)
    && (pkgComps s).all (fun x => decide (x.1 ≤ 4) && decide (x.2.2.len ≤ compLimit x.1) && decide (x.2.1 + x.2.2.len ≤ 0x20000000))
    && (pkgN s 5 1).testBit (regF s .ident 0x044 7 0 - 1)

/-- The length of what the signature covers. -/
def pkgSigned (s : State) : Nat := 105 + 64 * (pkgCounts s).1 + 12 * (pkgCounts s).2

/-- The signature holds under the key whose hash slot 1 holds. -/
def pkgSig (s : State) : Bool :=
  let key := pkg s 8 97
  let n := pkgSigned s
  (Config.sha384 key).take 32 == (keySlotOf s 1).value && !(keySlotOf s 1).bad
    && Config.ecdsaVerify 384 (key.drop 1) (Config.sha384 (pkg s 0 n)) (pkg s n 96)

/-- The co-signature holds against slot 2, or slot 2 is EMPTY. -/
def pkgCosign (s : State) : Bool :=
  let n := pkgSigned s
  kType (keySlotOf s 2).attr == 0 || Config.ecdsaVerify 384 (keySlotOf s 2).value (Config.sha384 (pkg s 0 n)) (pkg s (n + 96) 96)

/-- A component of ACTIVE. -/
def actOf (s : State) (c : Nat) : SetComp := spGet (fun _ => {}) s.boot.act c

/-- The resulting set: the staged component where there is one. -/
def resulting (s : State) (c : Nat) : SetComp :=
  match (pkgComps s).find? fun x => x.1 == c with
  | some x => x.2.2
  | none => actOf s c

/-- Every compatibility entry of the resulting set is met. -/
def pkgCompat (s : State) : Bool :=
  (List.range 5).all fun c => (resulting s c).deps.all fun d => decide (d.2.1 ≤ (resulting s d.1).ver) && decide ((resulting s d.1).ver ≤ d.2.2)

/-- The checks in their order: the cause of the first that fails (R534). -/
def pkgCheck (s : State) : Nat :=
  if !pkgFormat s then 1
  else if !pkgSig s then 2
  else if !pkgCosign s then 3
  else if pkgN s 4 1 < s.boot.minSvn then 4
  else if !(pkgComps s).all (fun x => (Config.sha384 (pkg s x.2.1 x.2.2.len)).take 48 == x.2.2.digest) then 5
  else if !pkgCompat s then 6
  else 0

/-- `UPD_STAT`. -/
def updStat (s : State) : Word :=
  let b := s.boot
  word (b.st * 2 ^ 28 + b.trials * 2 ^ 16 + b.cause * 2 ^ 8 + b.minSvn)

/-- Rollback: the changed components come back from RETAIN, and the event is recorded (R536). -/
def rollback (cause : Nat) (s : State) : State :=
  let back := s.boot.changed.foldl (fun m c => spPut (fun _ => {}) c (spGet (fun _ => ({} : SetComp)) s.boot.ret c) m) s.boot.act
  let s1 := onBoot (fun b => { b with act := back, changed := [], toCopy := [], staged := false, st := 4, cause := cause })
    { s with nand := nandCopied 1 s.nand }
  raiseIrq .optb 1 (evrFirmware 0x0012 (leBytes 4 (updStat s1).toNat ++ (List.range 5).flatMap fun c => leBytes 4 (actOf s1 c).ver) s1)

/-- Copy-in of what is still to be copied, then the first trial; a copy that fails its retry rolls back at once (R535,
R536), one that holds on it is a transient fault (R16). -/
def copyIn (fails : Option (Fin 5)) (retried : Bool) (s0 : State) : State :=
  let s := if retried then noteTransient .optb s0 else s0
  match fails with
  | some c =>
    if s.boot.toCopy.any fun x => x.1 == c.val then rollback 7 s else go s
  | none => go s
where
  /-- The copies all hold. -/
  go (s : State) : State :=
    raiseIrq .optb 0 (onBoot (fun b => { b with
      act := b.toCopy.foldl (fun m x => spPut (fun _ => {}) x.1 x.2 m) b.act, toCopy := [], st := 2, trials := 1, cause := 0 })
      { s with nand := nandCopied 1 s.nand })

/-- A staged package is checked and installed, or rejected (R534). -/
def install (f : BootFacts) (s : State) : State :=
  match pkgCheck s with
  | 0 =>
    let comps := (pkgComps s).map fun x => (x.1, x.2.2)
    copyIn f.copyFails f.copyRetried (onBoot (fun b => { b with toCopy := comps, changed := comps.map (·.1), svn := pkgN s 4 1, trials := 0 }) s)
  | c => onBoot (fun b => { b with st := 5, cause := c, staged := false }) s

/-- The update at a start: a copy-in resumes, a trial starts a second time or is rolled back, or a package is installed
(R534-R536). -/
def updateStart (f : BootFacts) (s : State) : State :=
  if !s.boot.toCopy.isEmpty then copyIn f.copyFails f.copyRetried s
  else if s.boot.st = 2 then
    if 2 ≤ s.boot.trials then rollback (if f.copyFails.isSome then 7 else 8) s
    else raiseIrq .optb 0 (onBoot (fun b => { b with trials := 2 }) s)
  else if s.boot.staged && !(latched s && (optByte s 13).testBit 2) then install f s
  else s

/-! ### The boot chain (R530-R532) -/

/-- Extends an accumulator with a digest. -/
def measure (i : Nat) (d : List Byte) (s : State) : State :=
  onSec (fun c => { c with ma := spPut (fun _ => []) i (takePad 48 (Config.sha384 (maOf s i ++ takePad 48 d))) c.ma }) s

/-- Extends an accumulator with a digest that the manual's layout does not let one compute. -/
def measureOpen (i : Nat) (s : State) : State := used (measure i (freeB s 48) s)

/-- The boot measurements of a start (R532). -/
def measureAll (s : State) : State :=
  let s1 := measureOpen 0 (measure 0 (Config.sha384 s.opt) s)
  let s2 := measure 2 (actOf s 2).digest (measure 2 (actOf s 1).digest (measure 1 (actOf s 0).digest s1))
  let s3 := measureOpen 2 (measureOpen 2 (measureOpen 2 (measureOpen 2 s2)))
  measureOpen 3 (measure 3 (actOf s 4).digest s3)

/-- The processors of the set are released, and BOOT_DONE is set (R530, R515). -/
def releaseAll (s : State) : State :=
  setRegB .sec 0x040 31 true (setReg .sys 0x044 0x1FF (setReg .sys 0x040 0x1FF s))

/-- LINE_SAFE as it is read: 0 RELEASE, 1 HOLD, 2 FAILSAFE_CMD (R526). -/
def lineSafe (s : State) : Nat := let n := optByte s 10 % 4; if n = 3 then 0 else n

/-- Under HOLD and FAILSAFE_CMD, RT0 enables PTAB and starts the RESTORE of the bring-up; when it ends, RT0 acts on the lines (R528,
R547; DESIGN CHOICE, log 129).  Under RELEASE the ports stay OFF. -/
def lineSafeAsk (s : State) : State :=
  if lineSafe s = 0 then onBoot (fun b => { b with safe := 0 }) s
  else setRegB .ptab 0x048 0 true (setRegB .ptab 0x004 0 true (onBoot (fun b => { b with safe := lineSafe s }) s))

/-- The steps of the boot chain: slots, tamper check, first boot stage, package, images (R530). -/
def bootSteps (f : BootFacts) (s : State) : State :=
  let s1 := slotsLoad f (onBoot (fun b => { b with dbgClosed := false }) s)
  let s2 := if latched s1 then tamperPolicy s1 else s1
  if !f.stageA && !f.stageB then s2
  else
    let s3 := updateStart f (if f.imageRetried then noteTransient .sec s2 else s2)
    let s4 := if !f.imagesOk && s3.boot.st == 2 && decide (2 ≤ s3.boot.trials) then rollback 8 s3 else s3
    if bootSrc s4 = 2 || (!f.imagesOk && !(s4.boot.st == 4 && s.boot.st != 4)) then s4 else releaseAll (measureAll s4)

/-- The boot chain (R530).  LINE_SAFE governs the lines then, and after a start that releases nothing too (R528). -/
def bootChain (f : BootFacts) (s : State) : State := lineSafeAsk (bootSteps f s)

/-! ### OPTB's commands -/

/-- A write of `UPD_CONFIRM` HEALTHY: MIN_SVN advances, the changed components go to RETAIN, STAGE is cleared (R537).  Confirmed in its
second trial, the set has come through on the retry (R16, R536). -/
def healthy (fuse : CopyResult) (s : State) : State :=
  if s.boot.st ≠ 2 then recErr .optb 0x100 s
  else
    let ret := s.boot.changed.foldl (fun m c => spPut (fun _ => {}) c (actOf s c) m) s.boot.ret
    let s1 := match fuse with
      | .failed => recErr .optb 0x103 s
      | .okOnRetry => noteTransient .optb (onBoot (fun b => { b with minSvn := max b.minSvn b.svn }) s)
      | .ok => onBoot (fun b => { b with minSvn := max b.minSvn b.svn }) s
    let s2 := if 2 ≤ s.boot.trials then noteTransient .optb s1 else s1
    onBoot (fun b => { b with ret := ret, changed := [], staged := false, st := 3 }) { s2 with nand := nandCopied 2 s2.nand }

/-- A write of `UPD_CONFIRM`. -/
def updConfirmWrite (fuse : CopyResult) (v : Word) (s : State) : State :=
  keyed .optb 0xC0 v (fun t => if bit v 0 then healthy fuse t else t) s

/-- A write of `STAGE_CMD` (R533, R540). -/
def stageCmdWrite (v : Word) (s : State) : State :=
  keyed .optb 0x53 v (fun t =>
    if t.boot.st = 2 then recErr .optb 0x100 t
    else
      let t1 := if bit v 0 then onBoot (fun b => { b with staged := true, st := 1 }) t else t
      if bit v 1 then onBoot (fun b => { b with staged := false, st := 0 }) t1 else t1) s

/-- `OPT_COMMIT`. -/
def execOptCommit (ini : Ini) (r : CopyResult) (s : State) : Out := done s (admitWrite ini .optb 0x100 0x4F000001 (optCmdWrite r 0x4F000001) s)

/-- `HEALTHY`. -/
def execHealthy (ini : Ini) (fuse : CopyResult) (s : State) : Out :=
  done s (admitWrite ini .optb 0x108 0xC0000001 (updConfirmWrite fuse 0xC0000001) s)

/-- `STAGE`. -/
def execStage (ini : Ini) (s : State) : Out := done s (admitWrite ini .optb 0x110 0x53000001 (stageCmdWrite 0x53000001) s)

/-- `UNSTAGE`. -/
def execUnstage (ini : Ini) (s : State) : Out := done s (admitWrite ini .optb 0x110 0x53000002 (stageCmdWrite 0x53000002) s)

/-- The registers of OPTB whose reads are computed; how much of the window remains is left open. -/
def optbView (s : State) (off : Nat) : Option Word :=
  if off = 0x040 then some (setBit (reg s .optb 0x040) 0 (s.boot.st == 2))
  else if off = 0x104 then some (updStat s)
  else if off = 0x10C then some (if s.boot.st = 2 then word (freeN s % (confirmWin s + 1)) else 0)
  else if 0x140 ≤ off ∧ off < 0x154 then some (word (actOf s ((off - 0x140) / 4)).ver)
  else if 0x160 ≤ off ∧ off < 0x174 then some (word (spGet (fun _ => ({} : SetComp)) s.boot.ret ((off - 0x160) / 4)).ver)
  else none

end Sys2Proof.Machine
end

