-- ==== Sys2Proof/Machine/Det.lean ====
section
/-! DEFINITION. Detector inputs and definitions; the events they make wait in MIR's queue (R251-R256). -/
namespace Sys2Proof.Machine

/-- A strip word (R249). -/
def stripW (s : State) (k w : Nat) : Word := reg s .mir (0x800 + 0x20 * k + 4 * w)

/-- A strip is in service. -/
def stripEn (s : State) (k : Nat) : Bool := bit (stripW s k 0) 31
/-- END_DM. -/
def stripEnd (s : State) (k : Nat) : Nat := fld (stripW s k 1) 23 0
/-- V_MIN. -/
def stripVmin (s : State) (k : Nat) : Nat := fld (stripW s k 3) 7 0
/-- V_DEF. -/
def stripVdef (s : State) (k : Nat) : Nat := fld (stripW s k 3) 19 8
/-- V_MAX. -/
def stripVmax (s : State) (k : Nat) : Nat := fld (stripW s k 3) 31 20

/-- The strip allows a direction; an unknown one is taken as allowed (DEDUCED, log 15). -/
def stripAllows (s : State) (k dir : Nat) : Bool := dir == 3 || (fld (stripW s k 0) 29 28).testBit (dir - 1)

/-- An input's stamps and last taken edge. -/
def detInput (s : State) (n : Nat) : DetInput := spGet (fun _ => {}) s.detIn n

/-- Sets an input. -/
def putInput (n : Nat) (x : DetInput) (s : State) : State := { s with detIn := spPut (fun _ => {}) n x s.detIn }

/-- The words of a loaded definition; none where it is not valid. -/
def defOf (s : State) (d : Nat) : List Word := spGet (fun _ => []) s.det.defs d

/-- Sets a definition's words. -/
def putDef (d : Nat) (ws : List Word) (s : State) : State := { s with det := { s.det with defs := spPut (fun _ => []) d ws s.det.defs } }

/-- KIND. -/
def defKind (ws : List Word) : Nat := fld (wordAt ws 0) 30 28
/-- STRIP. -/
def defStrip (ws : List Word) : Nat := fld (wordAt ws 0) 21 16

/-- A valid definition may be loaded (R255). -/
def defGood (s : State) (ws : List Word) : Bool :=
  let w := wordAt ws
  let k := defKind ws
  decide (k ≤ 3) && fld (w 0) 27 26 != 0 && fld (w 0) 23 22 == 0 && fld (w 0) 15 0 == 0 && fld (w 1) 31 24 == 0
    && (match k with
      | 0 => fld (w 2) 31 4 == 0
      | 1 => fld (w 2) 15 8 == 0
      | 2 => fld (w 2) 31 14 == 0
      | _ => w 2 == 0)
    && fld (w 3) 15 12 == 0 && (k == 1 || fld (w 3) 31 16 == 0) && (List.range 4).all (fun j => w (4 + j) == 0)
    && stripEn s (defStrip ws) && decide (fld (w 1) 23 0 ≤ stripEnd s (defStrip ws))
    && !(k == 1 && (fld (w 2) 31 16 == 0 || fld (w 3) 31 16 == 0 || fld (w 2) 7 4 == fld (w 2) 3 0))
    && !(k == 2 && (decide (ptCount ≤ fld (w 2) 13 0) ||
      !(cfgKind (ptHalf s (fld (w 2) 13 0)) == kindSensor && cfgRadio (ptHalf s (fld (w 2) 13 0)))))

/-- DEF_INVALID (R253, R255). -/
def defInvalid (s : State) : State := raiseIrq .det 1 (recErr .det 0x101 s)

/-- Loads definition d from the table (R254, R255).  The A edges that wait at it are dropped (DESIGN CHOICE, log 187). -/
def defLoad (d : Nat) (s : State) : State :=
  let ws := memWords s (regN s .det 0x040 + 32 * d) 8
  let s1 := { s with det := { s.det with edges := spPut (fun _ => []) d [] s.det.edges } }
  if !bit (wordAt ws 0) 31 then putDef d [] s1
  else if defGood s ws then putDef d ws s1
  else defInvalid (putDef d [] s1)

/-- A write of `RELOAD` (R252). -/
def detReload (v : Word) (s : State) : State :=
  if bit v 9 then forEach defLoad (List.range 512) s else defLoad (fld v 8 0) s

/-- `DET_RELOAD`. -/
def execDetReload (ini : Ini) (v : Word) (s : State) : Out := done s (admitWrite ini .det 0x044 v (detReload v) s)

/-- A strip that is disabled silences its definitions until a reload finds them valid (R255). -/
def defSilence (k : Nat) (s : State) : State :=
  forEach (fun d t => if defStrip (defOf t d) = k ∧ defOf t d ≠ [] then defInvalid (putDef d [] t) else t) (s.det.defs.map (·.1)) s

/-- A write of `DEF_BASE` (R252, R253). -/
def defBaseWrite (ini : Ini) (v : Word) (s : State) : State :=
  if v.toNat % 16384 != 0 || !inRam v.toNat 16384 then recErr .det 0x100 s else plainWrite ini .det 0x040 v s

/-- A write of `IN_CFG_n` clears OVR (R252). -/
def inCfgWrite (ini : Ini) (n : Nat) (v : Word) (s : State) : State :=
  setRegF .det (0x10C + 0x10 * n) 15 8 0 (plainWrite ini .det (0x100 + 0x10 * n) v s)

/-! ### Events -/

/-- `MIR_CTRL.MODE`: 0 OFF, 1 ACTIVE, 2 SHADOW (R277). -/
def mirMode (s : State) : Nat := regF s .mir 0x040 1 0

/-- MIR takes events (R277). -/
def mirOn (s : State) : Bool := enabled s .mir && mirMode s != 0

/-- EV_DROP (R256, R259). -/
def mirDrop (s : State) : State := raiseIrq .mir 1 (bumpReg .mir 0x060 s)

/-- An event waits for MIR; `EVQ_MAX` follows. -/
def mirQueue (e : MirEv) (s : State) : State :=
  let q := s.mir.queue ++ [e]
  let s1 := { s with mir := { s.mir with queue := q } }
  if regN s1 .mir 0x04C < q.length then setReg .mir 0x04C (word q.length) s1 else s1

/-- An event reaches MIR: discarded where its direction is not allowed, not taken in OFF, held while MIR quiesces (R38,
R256, R276, R277). -/
def mirOffer (e : MirEv) (s : State) : State :=
  if !mirOn s then s
  else if !stripAllows s e.strip e.dir then mirDrop s
  else if quiescing s .mir || inReset s .mir then { s with mir := { s.mir with held := s.mir.held ++ [e] } }
  else mirQueue e s

/-- The speed of an event that gives none: DEF_SPEED, or the strip's V_DEF (R254, R256). -/
def defSpeed (s : State) (ws : List Word) : Nat :=
  if fld (wordAt ws 3) 11 0 = 0 then stripVdef s (defStrip ws) else fld (wordAt ws 3) 11 0

/-- The event of a definition. -/
def defEvent (s : State) (ws : List Word) (dir ms us : Nat) (speed : Option Nat) : MirEv :=
  { strip := defStrip ws, pos := fld (wordAt ws 1) 23 0, dir := if dir = 0 then fld (wordAt ws 0) 27 26 else dir
    ms := ms, us := us, speed := speed.getD (defSpeed s ws), assumed := speed.isNone
    birthConf := bit (wordAt ws 0) 25, noBirth := bit (wordAt ws 0) 24 }

/-- Microseconds from stamp a to stamp b. -/
def stampUs (a b : Nat × Nat) : Int := actDiff b.1 a.1 * 1000 + (b.2 : Nat) - (a.2 : Nat)

/-- The unpaired A edges of a definition. -/
def edgesOf (s : State) (d : Nat) : List (Nat × Nat) := spGet (fun _ => []) s.det.edges d

/-- Sets them. -/
def putEdges (d : Nat) (l : List (Nat × Nat)) (s : State) : State :=
  { s with det := { s.det with edges := spPut (fun _ => []) d l s.det.edges } }

/-- An A edge no more than MAX_GAP before an instant. -/
def edgeLive (ws : List Word) (at' a : Nat × Nat) : Bool :=
  decide (0 ≤ stampUs a at') && decide (stampUs a at' ≤ 1000 * (fld (wordAt ws 3) 31 16 : Nat))

/-- The speed of a pair: 1,000 × SPACING / ms, truncated, limited to the strip's speeds (R256); two edges of one
microsecond give no quotient, and the speed is a free one of the limits (log 1). -/
def pairSpeed (s : State) (ws : List Word) (us : Nat) : Nat :=
  let k := defStrip ws
  let raw := if us = 0 then freeN s else 1000000 * fld (wordAt ws 2) 31 16 / us
  clampNat (stripVmin s k) (stripVmax s k) raw

/-- A B edge of a PAIR (R256): it claims the latest unpaired A edge, or is an orphan. -/
def pairB (d : Nat) (ws : List Word) (st : Nat × Nat) (s : State) : State :=
  match (edgesOf s d).reverse.find? (edgeLive ws st) with
  | none => mirOffer (defEvent s ws 0 st.1 st.2 none) (bumpReg .det 0x04C s)
  | some a =>
    mirOffer (defEvent s ws 0 st.1 st.2 (some (pairSpeed s ws (stampUs a st).toNat))) (used (putEdges d ((edgesOf s d).erase a) s))

/-- A taken edge is offered to a definition (R256). -/
def defEdge (n : Nat) (st : Nat × Nat) (d : Nat) (s : State) : State :=
  let ws := defOf s d
  let a := fld (wordAt ws 2) 7 4
  let b := fld (wordAt ws 2) 3 0
  if ws = [] then s
  else match defKind ws with
    | 0 => if b = n then mirOffer (defEvent s ws 0 st.1 st.2 none) s else s
    | 1 => if a = n then putEdges d (edgesOf s d ++ [st]) s else if b = n then pairB d ws st s else s
    | _ => s

/-- The definitions that are loaded, in their order. -/
def defsLoaded (s : State) : List Nat := s.det.defs.map (·.1)

/-- The host FIFO's copy of a stamp (R251). -/
def detCopy (n : Nat) (st : Nat × Nat) (level : Bool) (s : State) : State :=
  let x := detInput s n
  if x.fifo.length < 8 then putInput n { x with fifo := x.fifo ++ [(st.1, st.2, level)] } s
  else raiseIrq .det 0 (bumpRegF .det (0x10C + 0x10 * n) 15 8 s)

/-- The stamper takes an edge to a level: EN, EDGE after INV, and HOLDOFF (R251, R253). -/
def detTakes (s : State) (n : Nat) (rising : Bool) : Bool :=
  let c := reg s .det (0x100 + 0x10 * n)
  let eff := rising != bit c 3
  enabled s .det && !inReset s .det && !asleep s .det && bit c 0 && (fld c 2 1).testBit (if eff then 0 else 1)
    && (match (detInput s n).last with
      | none => true
      | some t => decide (t + fld c 23 16 * 2500000 ≤ s.tb.cycles))

/-- A filtered edge at a detector input (R251, R85). -/
def detEdge (n : Nat) (rising : Bool) (s : State) : State :=
  let s1 := captureEdge (3 + n) rising (setRegB .det (0x10C + 0x10 * n) 16 rising s)
  if !detTakes s1 n rising then s1
  else
    let st := (nowMs s1, s1.tb.t0.ns / 1000 % 1000)
    let s2 := detCopy n st rising (putInput n { detInput s1 n with last := some s1.tb.cycles } s1)
    forEach (defEdge n st) (defsLoaded s2) s2

/-- `DET_EDGE`. -/
def execDetEdge (n : Fin 16) (rising : Bool) (s : State) : Out := done s (detEdge n.val rising s)

/-- A read of `IN_MS_n` (R252); with no stamp it answers 0, and EMPTY alone shows (DESIGN CHOICE, log 7). -/
def inMsPop (n : Nat) (s : State) : State :=
  match (detInput s n).fifo with
  | [] => answer (.data 0) (setReg .det (0x108 + 0x10 * n) (word (2 ^ 30)) s)
  | (ms, us, l) :: rest =>
    answer (.data (word ms)) (setReg .det (0x108 + 0x10 * n) (word (b01 l * 2 ^ 31 + us)) (putInput n { detInput s n with fifo := rest } s))

/-- `IN_MS_POP`. -/
def execInMsPop (ini : Ini) (n : Fin 16) (s : State) : Out := done s (admitRead ini .det (0x104 + 0x10 * n.val) (inMsPop n.val) s)

/-- `PAIR_A_EXPIRE`: A edges older than MAX_GAP are discarded (R256). -/
def execPairAExpire (d : Fin 512) (s : State) : Out :=
  done s (putEdges d.val ((edgesOf s d.val).filter (edgeLive (defOf s d.val) (nowMs s, s.tb.t0.ns / 1000 % 1000))) s)

/-- A report of a radio SENSOR point (R256, R369); a direction of 0 and a speed of 0 are not reported. -/
def detSensor (i ms us dir speed : Nat) (s : State) : State :=
  if !working s .det then s
  else forEach (fun d t =>
    let ws := defOf t d
    if ws ≠ [] ∧ defKind ws = 2 ∧ fld (wordAt ws 2) 13 0 = i then
      mirOffer (defEvent t ws dir ms us (if speed = 0 then none else some speed)) t
    else t) (defsLoaded s) s

/-- The registers of DET whose reads are computed (R252). -/
def detView (s : State) (off : Nat) : Option Word :=
  if off = 0x048 then some (word (s.det.defs.length * 65536))
  else if 0x100 ≤ off ∧ off < 0x200 ∧ off % 16 = 12 then
    some (setFld (reg s .det off) 3 0 (detInput s ((off - 0x100) / 16)).fifo.length)
  else none

/-- A block reset of DET (R39): stamps and unpaired edges; FULL the loaded definitions too. -/
def detDatapath (full : Bool) (s : State) : State :=
  let s1 := forEach (fun n t => setReg .det (0x108 + 0x10 * n) 0 (setRegF .det (0x10C + 0x10 * n) 15 8 0 t)) (List.range 16) s
  { s1 with detIn := [], det := { s1.det with edges := [], defs := if full then [] else s1.det.defs } }

end Sys2Proof.Machine
end

