-- ==== Sys2Proof/Machine/Lseq.lean ====
section
/-! DEFINITION. The line sequencer: cycles, queues, acknowledgement and retry, urgent frames, returns (R183-R204). -/
namespace Sys2Proof.Machine

/-! ### LN_CTRL -/

/-- A frame that was fixed for an edge at which the line sends nothing is stale (R192). -/
def unfix (n : Nat) (s : State) : State := putLine' n { lineOf s n with fixed := none, due := false } s

/-- A write of `LN_CTRL` (R183, R188): setting RUN while MODE and RATE disagree is refused with MODE_RATE. -/
def lnCtrlWrite (ini : Ini) (n : Nat) (v : Word) (s : State) : State :=
  let pix := if lineRun s n || locked s (linePage n) 1 then linePixel s n else bit v 1
  if bit v 0 && !lineRun s n && pix != (lineRate s n == 2) then recErr (linePage n) 0x110 s
  else
    let s1 := plainWrite ini (linePage n) 0x080 v s
    if lineRun s n && !lineRun s1 n then unfix n s1 else s1

/-- `RUN_START`: a write of `LN_CTRL` with RUN set. -/
def execRunStart (ini : Ini) (n : Fin 64) (v : Word) (s : State) : Out :=
  done s (admitWrite ini (.line n) 0x080 (v ||| 1) (lnCtrlWrite ini n.val (v ||| 1)) s)

/-- `RUN_STOP`: a write of `LN_CTRL` with RUN clear. -/
def execRunStop (ini : Ini) (n : Fin 64) (v : Word) (s : State) : Out :=
  done s (admitWrite ini (.line n) 0x080 (v &&& ~~~1) (lnCtrlWrite ini n.val (v &&& ~~~1)) s)

/-- The positions that map entry k of a line stands for: position k, or the drivers of its segment's run (R185). -/
def entryPlaces (s : State) (n k : Nat) : List Nat :=
  if !linePixel s n then [k]
  else if ptCount ≤ mapIdx s n k then []
  else (List.range (cfgCount (ptHalf s (mapIdx s n k)))).map (cfgPos (ptHalf s (mapIdx s n k)) + ·)

/-- A position's SEQ history and its copy of the settings are forgotten (R196, R198). -/
def forgetPos (n p : Nat) (s : State) : State := putLpos n p { lposOf s n p with hist := none, copy := [], setting := none } s

/-- A write of a map word (R185): the positions of an entry that changes, before and after, lose their SEQ history and their
copy of the settings (R196, R198). -/
def mapWrite (ini : Ini) (n k : Nat) (v : Word) (s : State) : State :=
  let s1 := plainWrite ini (linePage n) (0x100 + 4 * k) v s
  forEach (fun e t => if mapIdx s n e = mapIdx t n e then t else forEach (forgetPos n) (entryPlaces s n e ++ entryPlaces s1 n e) t)
    [2 * k, 2 * k + 1] s1

/-- A write of `LN_RETBUF` (R190, R204): 0, or 16 KiB wholly in DRAM. -/
def retbufWrite (ini : Ini) (n : Nat) (v : Word) (s : State) : State :=
  let a := v.toNat / 8192 * 8192
  if a = 0 || inDram a 16384 then plainWrite ini (linePage n) 0x0A0 v s else recErr (linePage n) 0x115 s

/-- A write of `LN_FREQ` (R203, R190). -/
def lnFreq (n : Nat) (v : Word) (s : State) : State :=
  let pix := linePixel s n
  if (lineOf s n).fw.isSome || fld v 31 28 != (if pix then 5 else 1) then recErr (linePage n) 0x114 s
  else if reg s (linePage n) 0x0A0 = 0 then recErr (linePage n) 0x115 s
  else putLine' n { lineOf s n with fw := some (fld v 18 16, min (if pix then 1024 else 64) (fld v 10 0)) } s

/-- `LN_FREQ`. -/
def execLnFreq (ini : Ini) (n : Fin 64) (v : Word) (s : State) : Out :=
  done s (admitWrite ini (.line n) 0x098 v (workRequest (.line n) (lnFreq n.val v)) s)

/-! ### Cycles -/

/-- The firmware frame that is asked for and not out yet: one request makes one frame (R203). -/
def fwAsked (l : LineState) : Option (Nat × Nat) :=
  let out := fun (f : Option LFrame) => match f with | some f => f.fw | none => false
  if out l.wire || out l.back then none else l.fw

/-- A frame is due: a start has passed, or a block reset ended the frame before (R43, R191). -/
def owes (l : LineState) : Bool := l.due || l.again

/-- Fixes the line's next LCYC, or the firmware frame that replaces it (R192, R203); one that is due goes at once. -/
def fixFrame (n : Nat) (s : State) : State :=
  let s1 := fixLook n s
  let (f, s2) := match fwAsked (lineOf s1 n) with
    | some (dsel, count) => (fwFrame n dsel count s1, s1)
    | none => fixLantern n (lanternCount s1 n) s1
  if owes (lineOf s2 n) && !pairBusy s2 n then lineSend n f s2
  else putLine' n { lineOf s2 n with fixed := some f } s2

/-- `FRAME_FIX`: 20 µs before its sync edge a frame's contents are fixed (R192); of no-op slots while PTAB serves no lookups (R120).
What was fixed for a start that did not come is fixed anew. -/
def frameFix (n : Nat) (s : State) : State :=
  let kept := fun (f : LFrame) => (lineOf s n).due || f.at' == s.tb.cycles
  if lineSends s n && !linePixel s n && !(lineOf s n).fixed.any kept then fixFrame n s else s

/-- `FRAME_FIX`. -/
def execFrameFix (n : Fin 64) (s : State) : Out := done s (frameFix n.val s)

/-- DIAG's limit of proofs per line counts anew in each cycle (R290). -/
def proofsAnew (n : Nat) (s : State) : State := { s with diag := { s.diag with proofs := spPut (fun _ => 0) n 0 s.diag.proofs } }

/-- The frame that is fixed for the edge that comes now: one that is due, or one fixed 20 µs (5,000 cycles) ago and not earlier
(R192). -/
def liveFix (s : State) (n : Nat) : Option LFrame :=
  (lineOf s n).fixed.filter fun f => (lineOf s n).due || decide (s.tb.cycles ≤ f.at' + 5000)

/-- The commands of the frame that is fixed go out with it: none takes their place, and a revocation of one waits until it is on the
wire (R192, R195, R196; DEDUCED, log 165). -/
def goingOut (s : State) (n : Nat) : List Nat :=
  match liveFix s n with
  | some f => f.carried.map (·.2)
  | none => []

/-- A lantern cycle starts (R191): its LCYC is sent, or follows the busy frame, which SLIP_CNT counts; what was fixed for this
very edge is then stale, and is fixed again 20 µs before its own. -/
def cycleStart (n : Nat) (s0 : State) : State :=
  let s := proofsAnew n s0
  if linePixel s n then s
  else if !lineSends s n then unfix n s
  else
    let s1 := peCycle n s
    let l := lineOf s1 n
    if pairBusy s1 n then bumpReg (linePage n) 0x0A8 (putLine' n { l with fixed := if l.due then l.fixed else none, due := true } s1)
    else match liveFix s1 n with
      | some f => lineSend n f s1
      | none => putLine' n { l with fixed := none, due := true } s1

/-- TB2 counts, and is at a cycle start of the line (R71, R191). -/
def atCycleStart (s : State) (n : Nat) : Bool :=
  enabled s (.tb 2) && tbNs s.tb.t2 / 1000 % linePeriod s n == regN s (linePage n) 0x08C % linePeriod s n

/-- A forward step of TB2 from one time to another, ns, crosses a start of the line's timer (R191). -/
def crossesStart (s : State) (n old new : Nat) : Bool :=
  let p := linePeriod s n
  let k := fun t => (t / 1000 + p - regN s (linePage n) 0x08C % p) / p
  decide (old < new) && k old != k new

/-- A step of TB2 across a start makes that cycle start at once: the contents are fixed at the step, and its sync edge follows
20 µs later, or later still while the pair is busy (R191); its contents stay those of the step. -/
def cycleStep (n old new : Nat) (s : State) : State :=
  if lineRun s n && !linePixel s n && !regB s (linePage n) 0x080 4 && !idleMode s && crossesStart s n old new then
    frameFix n (cycleStart n (putLine' n { lineOf s n with fixed := none } s))
  else s

/-- `CYCLE_START`: a start of the cycle timer on TB2; IDLE stops the timers (R191, R549). -/
def execCycleStart (n : Fin 64) (s : State) : Out :=
  done s (if !regB s (.line n) 0x080 4 && !idleMode s && atCycleStart s n.val then cycleStart n.val s else s)

/-- Urgent commands wait for a frame on a line (R189). -/
def urgWaiting (s : State) (n : Nat) : Bool :=
  (lineOf s n).pos.any fun x => (x.2.queue ++ x.2.revokes).any fun c => c.urgent && !c.sent

/-- The highest position with an urgent command, plus one (R172). -/
def urgTop (s : State) (n : Nat) : Nat :=
  listMax (((lineOf s n).pos.filter fun x => (pickCmd x.2 true).isSome && decide (x.1 < 64)).map fun x => x.1 + 1)

/-- `LURG`: an urgent frame, at the first point at which the module holds the pair (R172, R199). -/
def lurg (n : Nat) (s : State) : State :=
  if !lineSends s n || linePixel s n || pairBusy s n || !urgWaiting s n || !ptReady s then s
  else match fixUrgent n (urgTop s n) (mapLook n s) with
    | (some f, s1) => wireSend n f s1
    | (none, _) => s

/-- `LURG`. -/
def execLurg (n : Fin 64) (s : State) : Out := done s (lurg n.val s)

/-! ### Queues -/

/-- The line positions to which a command for a point goes: its position, or the drivers of its run. -/
def cmdPlaces (s : State) (i : Nat) : Option (Nat × List Nat) :=
  let c := ptHalf s i
  if cfgRadio c then none
  else if cfgKind c = kindPixel then some (cfgLine c, (List.range (cfgCount c)).map (cfgPos c + ·))
  else if cfgKind c = kindLine ∨ cfgKind c = kindSensor then some (cfgLine c, [cfgPos c])
  else none

/-- Places a command in a queue (R195): a level-kind command takes the place of an unsent one that is not going out now; four are
held. -/
def enqueue (c : Cmd) (q : List Cmd) (out : List Nat := []) : Option (List Cmd) :=
  match q.findIdx? fun o => levelKind o.op && levelKind c.op && o.seq.isNone && !out.contains o.uid with
  | some k => some (setAt q k c)
  | none => if q.length < 4 then some (q ++ [c]) else none

/-- Every position of a command has room for it. -/
def roomFor (s : State) (n : Nat) (ps : List Nat) (c : Cmd) : Bool := ps.all fun p => (enqueue c (lposOf s n p).queue (goingOut s n)).isSome

/-- The positions a command is for: all of its point's, or those it was taken back from (R195). -/
def cmdOnly (c : Cmd) (ps : List Nat) : List Nat := if c.only.isEmpty then ps else ps.filter c.only.contains

/-- A REVOKE that a block reset took back waits again at its positions (R42, R196). -/
def putRevokes (n : Nat) (ps : List Nat) (c : Cmd) (s : State) : State :=
  forEach (fun p t =>
    let x := lposOf t n p
    settingYield n p (putLpos n p { x with revokes := x.revokes ++ [{ c with uid := t.dim.nextId }] } (idTaken t))) ps s

/-- Puts a command into the queues of its positions. -/
def putQueued (n : Nat) (ps : List Nat) (c : Cmd) (s : State) : State :=
  forEach (fun p t => let c1 := { c with uid := t.dim.nextId, jrn := jrnWaits t }
    match enqueue c1 (lposOf t n p).queue (goingOut t n) with
    | some q => jrnTell (jrnHanded p c1) (settingYield n p (putLpos n p { lposOf t n p with queue := q } (idTaken t)))
    | none => t) ps s

/-- The commands an engine offers: 0 DIM, 1 DIAG, 2 NUPD. -/
def offersOf (s : State) (src : Nat) : List Cmd :=
  match src with
  | 0 => s.dim.offers | 1 => s.diag.offers | _ => s.nupd.offers

/-- Sets the commands an engine offers. -/
def setOffers (src : Nat) (l : List Cmd) (s : State) : State :=
  match src with
  | 0 => { s with dim := { s.dim with offers := l } }
  | 1 => { s with diag := { s.diag with offers := l } }
  | _ => { s with nupd := { s.nupd with offers := l } }

/-- The k-th offer of an engine, if no earlier one is for the same point. -/
def offerAt (s : State) (src k : Nat) : Option Cmd :=
  match (offersOf s src)[k]? with
  | none => none
  | some c => if ((offersOf s src).take k).any fun o => o.point == c.point then none else some c

/-- The list without its k-th element. -/
def dropAt {α : Type} (l : List α) (k : Nat) : List α := l.take k ++ l.drop (k + 1)

/-- An engine hands over its k-th offer for a line point, or a full queue refuses it (R195).  Of a point that is no longer served
DIM issues no new command: its offer falls (R98). -/
def handover (src k : Nat) (s : State) : State :=
  match offerAt s src k with
  | none => s
  | some c => match cmdPlaces s c.point with
    | none => s
    | some (n, ps) =>
      if !accepting s .lseq || !accepting s (linePage n) || !ptReady s || !c.members.isEmpty || !inControl s || (src == 2 && !nuSends s) then s
      else
        let c1 := { c with src := src, since := tbNs s.tb.t0 / 1000 }
        let at' := cmdOnly c ps
        let s0 := setOffers src (dropAt (offersOf s src) k) s
        if src < 2 ∧ ptServed s c.point = false then s0
        else if c.op = 4 then putRevokes n at' c1 s0
        else if roomFor s n at' c1 then
          let s1 := putQueued n at' c1 s0
          if src = 0 then dimHanded c1 s1 else s1
        else raiseIrq .lseq 0 (bumpReg .lseq 0x054 s)

/-- `HANDOVER`. -/
def execHandover (src : Fin 3) (k : Nat) (s : State) : Out := done s (handover src.val k s)

/-- The revocations an engine offers: 0 DIM, 2 NUPD. -/
def revsOf (s : State) (nupd : Bool) : List (Nat × Nat) := if nupd then s.nupd.revs else s.dim.revs

/-- Takes the k-th revocation off an engine's list. -/
def dropRev (nupd : Bool) (k : Nat) (s : State) : State :=
  if nupd then { s with nupd := { s.nupd with revs := dropAt s.nupd.revs k } } else { s with dim := { s.dim with revs := dropAt s.dim.revs k } }

/-- The command a revocation names. -/
def revoked (nupd : Bool) (i cause : Nat) (c : Cmd) : Bool :=
  c.point == i && (if nupd then c.op == 15 && c.arg / 4096 % 16 == 2 else levelKind c.op && c.cause == cause && c.src == 0)

/-- Queues a REVOKE of a SEQ at a position; it is urgent when the command it revokes was (R196). -/
def queueRevoke (nupd : Bool) (n p i cause seq : Nat) (urgent : Bool) (s : State) : State :=
  let c : Cmd := { point := i, op := 4, arg := seq, urgent := urgent, src := if nupd then 2 else 0, cause := cause, since := tbNs s.tb.t0 / 1000, uid := s.dim.nextId }
  let s1 := settingYield n p (putLpos n p { lposOf s n p with revokes := (lposOf s n p).revokes ++ [c] } (idTaken s))
  if nupd then s1 else bumpRegF .dim 0x050 15 0 s1

/-- The SEQ of the ACTIVATE that a node has acknowledged and that may be pending there (R406). -/
def nuActSeq (s : State) (i p : Nat) : Option Nat := (nuTarget s i).bind fun t => if (nuNode t p).act = 2 then (nuNode t p).seq else none

/-- A revocation at one position (R196): an unsent command is removed, one that has been sent, or was acknowledged, becomes a
REVOKE. -/
def revokeAt (nupd : Bool) (n p i cause : Nat) (s : State) : State :=
  let x := lposOf s n p
  match x.queue.find? (revoked nupd i cause) with
  | some c => match c.seq with
    | none =>
      let s1 := jrnTell (.revoked i p c.uid) (putLpos n p { x with queue := x.queue.filter fun o => o.uid != c.uid } s)
      if nupd then nuUnact i p false s1 else dimDropped c.cause c.act i s1
    | some q => queueRevoke nupd n p i cause q c.urgent s
  | none =>
    if nupd then match nuActSeq s i p with
      | some q => queueRevoke nupd n p i cause q false s
      | none => nuUnact i p false s
    else match (dimPt s i).pend.filter fun d => d.cause == cause with
      | some d => match d.seq with
        | some q => queueRevoke nupd n p i cause q d.urgent s
        | none => s
      | none => s

/-- The command that a revocation names is in a frame that goes out now. -/
def revokeWaits (nupd : Bool) (s : State) (n p i cause : Nat) : Bool :=
  (lposOf s n p).queue.any fun c => revoked nupd i cause c && c.seq.isNone && (goingOut s n).contains c.uid

/-- LSEQ takes the k-th revocation of an engine that is for a line point. -/
def lseqRevoke (nupd : Bool) (k : Nat) (s : State) : State :=
  match (revsOf s nupd)[k]? with
  | none => s
  | some (i, cause) => match cmdPlaces s i with
    | none => s
    | some (n, ps) =>
      if !accepting s .lseq || !accepting s (linePage n) || !ptReady s || (nupd && !nuSends s) || ps.any (fun p => revokeWaits nupd s n p i cause) then s
      else forEach (fun p t => revokeAt nupd n p i cause t) ps (dropRev nupd k s)

/-- `LSEQ_REVOKE`. -/
def execLseqRevoke (nupd : Bool) (k : Nat) (s : State) : Out := done s (lseqRevoke nupd k s)

/-! ### Acknowledgement and retry -/

/-- A command is acknowledged (R197): its engine is told, a retried one is reported to DIAG as transient. -/
def cmdAcked (c : Cmd) (pos : Nat) (late : Bool) (s : State) : State :=
  let s1 := match c.src with
    | 0 => dimAck c late c.point s
    | 2 => nuAcked c pos late s
    | _ => s
  if c.retry then diagReport (.cmdRetry c.point) s1 else s1

/-- Takes an acknowledged command off its position; a REVOKE takes the command it revoked with it, a setting is copied
(R196, R198). -/
def ackRemove (x : LPos) (c : Cmd) : LPos :=
  let keep := fun (o : Cmd) => o.uid != c.uid && !(c.op == 4 && o.seq == some c.arg)
  { x with queue := x.queue.filter keep, revokes := x.revokes.filter keep
           setting := x.setting.filter fun o => o.uid != c.uid
           copy := if c.src = 3 then spPut (fun _ => none) c.op (some c.arg) x.copy else x.copy }

/-- The acknowledgements a valid return slot brings (R197). -/
def takeAck (n p st : Nat) (s : State) : State :=
  let x := lposOf s n p
  let hit := (allCmds x).filter fun c => stAckValid st && c.seq == some (stAckSeq st)
  forEach (fun c t => jrnTell (.acked c.point p c.uid) (cmdAcked c p (stRevLate st) (putLpos n p (ackRemove (lposOf t n p) c) t))) hit s

/-- A lasting failure (R197): CMD_FAIL, the queue is emptied, DIAG and DIM are told; of a setting command only itself is
dropped (R198). -/
def cmdFails (n p : Nat) (c : Cmd) (s : State) : State :=
  let s1 := diagReport (.cmdFail c.point (c.op == 5)) (raiseIrq (linePage n) 7 (bumpReg (linePage n) 0x0B8 s))
  if c.src = 3 then putLpos n p { lposOf s1 n p with setting := none } s1
  else
    let gone := (lposOf s1 n p).queue ++ (lposOf s1 n p).revokes
    let s2 := putLpos n p { lposOf s1 n p with queue := [], revokes := [], failed := true } s1
    let s3 := if isLantern (ptHalf s2 c.point) then dimFailed c.point s2 else s2
    forEach (fun o t => if o.src = 2 then nuCmdFailed o t else t) gone s3

/-- The end of a return phase that was made for a command it left unacknowledged (R197): the first attempt is counted
and its retry begins, the retry fails. -/
def attemptEnds (n p : Nat) (c : Cmd) (s : State) : State :=
  if c.retry then cmdFails n p c s
  else bumpReg (linePage n) 0x0B4 (putLpos n p (lposUpd (lposOf s n p) c.uid fun o => { o with retry := true, sent := false }) s)

/-- Settles the unacknowledged commands of a position at the end of a return phase; a setting command whose place a queued one takes has
been abandoned (R198). -/
def settlePos (n p : Nat) (s0 : State) : State :=
  let s := settingYield n p s0
  let open' := (allCmds (lposOf s n p)).filter (·.sent)
  match open'.find? (·.retry) with
  | some c => attemptEnds n p c s
  | none => forEach (fun o t => attemptEnds n p o t) open' s

/-- Settles every position of a line. -/
def settleAll (n : Nat) (s : State) : State := forEach (fun p t => settlePos n p t) ((lineOf s n).pos.map (·.1)) s

/-! ### Returns -/

/-- The address of a line's return buffer; 0 for none (R204). -/
def retBuf (s : State) (n : Nat) : Nat := regN s (linePage n) 0x0A0

/-- Writes a slot into the slot area (R204). -/
def slotArea (n p st data : Nat) (s : State) : State :=
  if retBuf s n = 0 then s else memWrite (retBuf s n + 8 * p) (leBytes 4 st ++ leBytes 4 data) s

/-- The first valid slot of a position gives its SEQ history (R196). -/
def seqStart (n p st : Nat) (s : State) : State :=
  let x := lposOf s n p
  if x.hist.isSome then s else putLpos n p { x with hist := some (if stAckValid st then stAckSeq st else 15) } s

/-- After a lasting failure the position's next valid slot ends it, and signals DIM for a lantern (R197). -/
def recoverPos (n p : Nat) (pt : Option Nat) (s : State) : State :=
  let x := lposOf s n p
  if !x.failed then s
  else
    let s1 := putLpos n p { x with failed := false } s
    match pt with
    | some i => if isLantern (ptHalf s1 i) then dimRecover i s1 else s1
    | none => s1

/-- RESTARTED (R198, R201): RESTART_SEEN, and the copy of the settings is cleared; the engines are told of a served point, and
the restart of one of its drivers abandons a pixel segment's suspicions (R288). -/
def restartPos (n p : Nat) (pt : Option Nat) (st : Nat) (s : State) : State :=
  if !stRestarted st then s
  else
    let s1 := raiseIrq (linePage n) 5 (putLpos n p { lposOf s n p with copy := [], setting := none } s)
    match pt with
    | some i => nuRestarted i p (dimRestarted i (if linePixel s n then dropSus i (fun _ => true) s1 else s1))
    | none => s1

/-- What a valid slot or STATUS of a served point writes to it, by LSEQ or CRV (R14, R171, R201). -/
def slotToPoint (who : Page) (p i st data : Nat) (s : State) : State :=
  let s1 := engPoke who i 38 (word (nowSec s)) (engPoke who i 33 (word st) s)
  let s2 :=
    if stDsel st = 0 ∧ stMeasNone st = false then engPoke who i 34 (word data) s1
    else if stDsel st = 1 then dimMeasured i (engPoke who i 35 (word data) s1)
    else if stDsel st = 4 then nuVersion i p (data % 65536) s1
    else nuReport i p (stDsel st) data s1
  diagObserve { point := i, status := st, data := data } s2

/-- A pixel segment's point that holds a position. -/
def segOf (s : State) (n p : Nat) : Option Nat :=
  ((List.range 64).filterMap (mapPoint s n)).find? fun i => cfgPos (ptHalf s i) ≤ p && p < cfgPos (ptHalf s i) + cfgCount (ptHalf s i)

/-- The slots of a return with their positions: the i-th of n belongs to position n - 1 - i (R201). -/
def slotPositions : List (Nat × Nat) → List (Nat × Nat × Nat)
  | [] => []
  | (st, data) :: rest => (rest.length, st, data) :: slotPositions rest

/-- The slots that pass CHK. -/
def validSlots (slots : List (Nat × Nat)) : List (Nat × Nat × Nat) := (slotPositions slots).filter fun x => returnCheck x.2.1 x.2.2

/-- The point that a position of a frame serves: in pixel mode the segment that holds it (R185). -/
def frameServes (s : State) (n : Nat) (f : LFrame) (p : Nat) : Option Nat :=
  if linePixel s n then frameSeg s f p else framePoint s f p

/-- A valid slot goes to the slot area: of a firmware frame, of an unmapped position, with DSEL 2-6 in a lantern cycle (R204), or with
DSEL 5 or 6 of a campaign's target (R398). -/
def slotToArea (s : State) (n : Nat) (f : LFrame) (x : Nat × Nat × Nat) : Bool :=
  f.fw || (frameServes s n f x.1).isNone
    || ((stDsel x.2.1 == 5 || stDsel x.2.1 == 6) && (frameServes s n f x.1).any fun i => (nuTarget s i).isSome) || (!linePixel s n && decide (2 ≤ stDsel x.2.1) && decide (stDsel x.2.1 ≤ 6))

/-- One valid return slot (R201). -/
def takeSlot (n : Nat) (f : LFrame) (p st data : Nat) (s : State) : State :=
  let s1 := takeAck n p st (seqStart n p st (settingYield n p s))
  let s2 := if p = 0 then nodeMargin n (nfld st 31 28) s1 else s1
  let pt := frameServes s n f p
  let s3 := restartPos n p pt st (recoverPos n p pt s2)
  let s4 := match pt with
    | none => s3
    | some i =>
      if linePixel s n then nuReport i p (stDsel st) data (if stDsel st = 4 then nuVersion i p (data % 65536) s3 else s3)
      else slotToPoint .lseq p i st data s3
  if slotToArea s n f (p, st, data) then slotArea n p st data s4 else s4

/-- The pair is free: a frame that is due and fixed is sent (R191). -/
def afterPair (n : Nat) (s : State) : State :=
  match (lineOf s n).fixed with
  | some f => if owes (lineOf s n) && lineSends s n && !linePixel s n then lineSend n (lateHead n f s) s else s
  | none => s

/-- The return phase is over: the port's driver takes the pair again (R128), NUPD counts the phase, and a frame that waits for the
pair is sent. -/
def phaseOver (n : Nat) (s : State) : State :=
  let s0 := if driving s n then setEl n 1 false (setEl n 2 true s) else s
  let s1 := { s0 with nupd := { s0.nupd with rets := spPut (fun _ => 0) n (spGet (fun _ => 0) s0.nupd.rets n + 1) s0.nupd.rets } }
  afterPair n (putLine' n { lineOf s1 n with back := none, preOk := false } s1)

/-- A firmware frame completes (R203): every position without a valid slot is written as zero, FW_BUSY clears, FW_DONE
rises. -/
def fwDone (n count : Nat) (valid : List Nat) (s : State) : State :=
  let s1 := forEach (fun p t => if valid.contains p then t else slotArea n p 0 0 t) (List.range count) s
  raiseIrq (linePage n) 9 (putLine' n { lineOf s1 n with fw := none } s1)

/-- A return phase without an accepted preamble, or a return that cannot be attributed (R201, R202): RET_LOST; from the second
in a row SILENT is set, and the second is reported to DIAG. -/
def phaseLost (n : Nat) (f : LFrame) (s : State) : State :=
  let l := lineOf s n
  let s1 := bumpReg (linePage n) 0x0AC (putLine' n { l with lost := l.lost + 1 } s)
  let s2 := if l.lost + 1 = 2 then diagReport (.silent n) (raiseIrq (linePage n) 6 (setRegB (linePage n) 0x084 6 true s1))
    else if 2 < l.lost + 1 then setRegB (linePage n) 0x084 6 true s1 else s1
  let s3 := if f.fw then fwDone n f.count [] s2 else s2
  phaseOver n (settleAll n s3)

/-- Served points of a line that brought no slot while others did (R286). -/
def reportMissing (f : LFrame) (valid : List Nat) (s : State) : State :=
  if valid.isEmpty then s
  else forEach (fun p t => match framePoint t f p with
    | some i => if valid.contains p then t else diagReport (.noReturn i) t
    | none => t) (List.range (min f.count 64)) s

/-- A firmware frame on a pixel line gives each served segment that brought a valid slot an observation, in the form of a pixel summary
(R295); a driver that the frame did not address is no missing one (DEDUCED, log 126). -/
def fwSegments (f : LFrame) (ok : List (Nat × Nat × Nat)) (s : State) : State :=
  forEach (fun i t =>
    let c := ptHalf t i
    let run := ok.filter fun x => decide (cfgPos c ≤ x.1) && decide (x.1 < cfgPos c + cfgCount c)
    let any := fun (b : Nat) => b01 (run.any fun x => x.2.1.testBit b)
    let asked := min (cfgCount c) (f.count - cfgPos c)
    if run.isEmpty || !ptServed t i then t
    else diagObserve { point := i, status := any 12 * 2 ^ 31 + any 11 * 2 ^ 30 + (run.length + (cfgCount c - asked)) * 2 ^ 16, data := 0 } t)
    (f.pts.filterMap id).eraseDups s

/-- A discovery frame, whose slots are the nodes of the line (R182). -/
def discovers (s : State) (n : Nat) (f : LFrame) : Bool := f.fw && f.count == (if linePixel s n then 1024 else 64)

/-- A ranging frame of COUNT p + 1 that returned whole gives D(p) = (RT(p) - 4T) / 2 (R181). -/
def rangeTake (n : Nat) (f : LFrame) (early : Bool) (s : State) : State :=
  if f.fw && linePixel s n && !early && decide (0 < f.count) then
    putLine' n { lineOf s n with delays := spPut (fun _ => none) (f.count - 1) (some ((regN s (linePage n) 0x09C - 320) / 2)) (lineOf s n).delays } s
  else s

/-- A LISTEN port overhears another module's return: its bit errors count, and a valid slot of position 0, the last one, gives
NODE_MARGIN (R125, R142). -/
def hearReturn (n bitErrs : Nat) (margin : Option Nat) (s : State) : State :=
  if portMode s n != 2 || !(lineOf s n).preOk then s
  else
    let s1 := putLine' n { lineOf s n with preOk := false } (countBitErrs n bitErrs s)
    match margin with
    | some m => nodeMargin n m s1
    | none => s1

/-- MARGIN of the last slot of a return, position 0's, where it is valid. -/
def lastMargin (slots : List (Nat × Nat)) : Option Nat :=
  (slots.getLast?.filter fun x => returnCheck x.1 x.2).map fun x => nfld x.1 31 28

/-- A return stream has ended: its slots are attributed, written, and matched to the commands (R201). -/
def returnStream (n : Nat) (slots : List (Nat × Nat)) (bitErrs : Nat) (s : State) : State :=
  match (lineOf s n).back with
  | none => hearReturn n bitErrs (lastMargin slots) s
  | some f =>
    if !(lineOf s n).preOk || !(f.ftype == 1 || f.ftype == 5) then s
    else
      let s0 := countBitErrs n bitErrs s
      let tail := match slots with
        | [] => false
        | (st, data) :: _ => returnCheck st data && stTail st
      if f.count < slots.length || (slots.length != f.count && !tail) then phaseLost n f s0
      else
        let early := decide (slots.length < f.count)
        let s1 := setRegB (linePage n) 0x084 6 false (setRegF (linePage n) 0x084 26 16 slots.length (setRegB (linePage n) 0x084 7 early s0))
        let s1' := if linePixel s n then peCycle n (rangeTake n f early s1) else s1
        let s2 := putLine' n { lineOf s1' n with lost := 0, found := if discovers s n f then slots.length else (lineOf s1' n).found } s1'
        let ok := validSlots slots
        let valid := ok.map (·.1)
        let s2' := setReg (linePage n) 0x0B0 (word (min 0xFFFFFFFF (regN s2 (linePage n) 0x0B0 + (slots.length - ok.length)))) s2
        let s3 := forEach (fun x t => takeSlot n f x.1 x.2.1 x.2.2 t) ok s2'
        let wrote := retBuf s n != 0 && ok.any (slotToArea s2 n f)
        let s4 := if early then diagReport (.tailEarly n slots.length) (raiseIrq (linePage n) 4 s3) else diagReport (.wholeReturn n) s3
        let s5 := if linePixel s n then (if f.fw then fwSegments f ok s4 else s4) else reportMissing f valid s4
        let s6 := if f.fw then fwDone n f.count valid s5 else s5
        let s7 := if wrote && !linePixel s n then raiseIrq (linePage n) 10 s6 else s6
        phaseOver n (settleAll n s7)

/-- `RETURN_TIMEOUT`: no accepted preamble in time, or a rejected one (R202). -/
def returnTimeout (n : Nat) (s : State) : State :=
  match (lineOf s n).back with
  | none => s
  | some f => if (lineOf s n).preOk then s else phaseLost n f s

/-! ### Views and resets -/

/-- `LN_STAT` (R189). -/
def lnStat (s : State) (n : Nat) : Word :=
  let w := setBit (setBit (reg s (linePage n) 0x084) 0 (lineSends s n)) 1 (lineRun s n && !driving s n)
  setBit (setBit w 3 (urgWaiting s n)) 4 (lineOf s n).fw.isSome

/-- The registers of a LINE page whose reads are computed. -/
def lineView (s : State) (n off : Nat) : Option Word :=
  if off = 0x084 then some (lnStat s n) else if off = 0x044 then some (elStat s n) else none

/-- ACTIVE of 32 lines (R212). -/
def activeWord (s : State) (k : Nat) : Word :=
  word ((List.range 32).foldl (fun a i => a + b01 (lineSends s (32 * k + i)) * 2 ^ i) 0)

/-- The registers of LSEQ whose reads are computed. -/
def lseqView (s : State) (off : Nat) : Option Word :=
  match off with
  | 0x04C => some (activeWord s 0)
  | 0x050 => some (activeWord s 1)
  | _ => none

/-- The engine that handed a command: 0 DIM, 1 DIAG, 2 NUPD. -/
def enginePage (src : Nat) : Page := match src with | 0 => .dim | 1 => .diag | _ => .nupd

/-- The one retry after a block reset ended with a block reset too: the failure is lasting (R16, R42). -/
def resetFails (c : Cmd) (s : State) : State :=
  let s1 := diagReport (.cmdFail c.point (c.op == 5)) (recErr (enginePage c.src) errBlockReset s)
  match c.src with
  | 0 => if levelKind c.op then dimFailed c.point s1 else s1
  | 2 => nuCmdFailed c s1
  | _ => s1

/-- A command goes back to its engine with BLOCK_RESET, and is offered once again for the positions it was taken from
(R42, R195). -/
def giveBack (x : Nat × Cmd) (s : State) : State :=
  let c := x.2
  let c1 := { c with seq := none, sent := false, retry := false, jrn := false, uid := 0, since := 0, only := [], again := true }
  if 3 ≤ c.src then s
  else if c.again then resetFails c s
  else match (offersOf s c.src).findIdx? fun o => { o with only := [] } == c1 && !o.only.isEmpty with
    | some k => setOffers c.src (setAt (offersOf s c.src) k { c1 with only := ((offersOf s c.src).getD k c1).only ++ [x.1] }) s
    | none => setOffers c.src (offersOf s c.src ++ [{ c1 with only := [x.1] }]) (recErr (enginePage c.src) errBlockReset s)

/-- Clears the queues of a line (R195); the SEQ history is kept, unless the reset is FULL (R196). -/
def clearQueues (full : Bool) (n : Nat) (s0 : State) : State :=
  let s := chunkBack n s0
  let l := lineOf s n
  let cmds := l.pos.flatMap fun x => (x.2.queue ++ x.2.revokes).map fun c => (x.1, c)
  let pos : Sparse LPos := if full then [] else
    l.pos.foldl (fun m x => spPut (fun _ => {}) x.1 { x.2 with queue := [], revokes := [], setting := none } m) []
  let s1 := putLine' n { l with pos := pos, fixed := none, wire := none, back := none, due := false, fw := none, preOk := false, again := false } s
  forEach giveBack cmds s1

/-- A frame request of the line is open: a frame, or one that `LN_FREQ` asked for (R43). -/
def frameOpen (l : LineState) : Bool := l.wire.isSome || l.back.isSome || l.fixed.isSome || owes l || l.fw.isSome

/-- The open frame request is itself the retry of one that a block reset ended. -/
def frameRetried (l : LineState) : Bool :=
  let again := fun (f : Option LFrame) => match f with | some f => f.again | none => false
  l.again || again l.wire || again l.back

/-- What a block reset leaves of the frame request of a line that was open before it: it completes with BLOCK_RESET at the page that
made it, and is made once more (R42, R43).  Of `LN_FREQ` it is the firmware frame. -/
def frameAgain (l : LineState) (who : Page) (n : Nat) (s : State) : State :=
  let again := !frameRetried l
  recErr who errBlockReset (putLine' n { lineOf s n with again := again, fw := if again then l.fw else none } s)

/-- The block reset of a LINE page (R153, R195): LSEQ's open frame request completes with BLOCK_RESET, and is made once more when
the page is READY (R42, R43). -/
def lineDatapath (full : Bool) (n : Nat) (s : State) : State :=
  let l := lineOf s n
  let s1 := setReg (linePage n) 0x084 0 (clearQueues full n (portOff n s))
  if frameOpen l then frameAgain l .lseq n s1 else s1

/-- The block reset of reach FULL of a LINE page. -/
def lineFull (n : Nat) (s : State) : State :=
  let t := lineDatapath true n s
  putLine' n { again := (lineOf t n).again, fw := (lineOf t n).fw, port := { hot := (lineOf t n).port.hot } } t

/-- The block reset of LSEQ clears the queues of every line (R195); a firmware frame that a LINE page asked it for is asked for
again (R42). -/
def lseqDatapath (full : Bool) (s : State) : State :=
  forEach (fun n t => let u := clearQueues full n t
    if (lineOf t n).fw.isSome then frameAgain (lineOf t n) (linePage n) n u else u) (List.range 64) s

/-- Accepted work of a line: queued commands, frames, and a firmware frame that is asked for (R29). -/
def lineBusy (s : State) (n : Nat) : Bool :=
  pairBusy s n || (lineOf s n).fw.isSome || (lineOf s n).pos.any fun x => !x.2.queue.isEmpty || !x.2.revokes.isEmpty

end Sys2Proof.Machine
end

