-- ==== Sys2Proof/Machine/CrvCore.lean ====
section
/-! DEFINITION. Caravan: radios and channels, sessions, routes, command queues, transmission (R356-R380). -/
namespace Sys2Proof.Machine

/-! ### Radios -/

/-- `CRV_CTRL.MODE`: 0 OFF, 1 ACTIVE, 2 SHADOW (R391). -/
def crvMode (s : State) : Nat := regF s .crv 0x040 1 0

/-- `RADIO`: 0 RFA, 1 RFB. -/
def crvRadio (s : State) : Nat := regF s .crv 0x040 8 8

/-- The radio can carry Erg messages, as far as all neighbour entries share it (R442). -/
def radioUp (s : State) : Bool := regB s .erg 0x040 8 && working s .crv && crvMode s == 1

/-- A neighbour entry may use the radio, when it is up (R442). -/
def nbrRadio (x : ErgNbr) : Bool := x.valid && bit x.word0 27 && x.rfPan != 0xFFFF

/-- The radio path of the entries that may use it has come up or gone down: a change of path state raises NBR_CHG (R442). -/
def radioSee (s : State) : State :=
  if radioUp s == s.erg.rfUp then s
  else
    let s1 := { s with erg := { s.erg with rfUp := radioUp s } }
    if working s .erg && regF s .erg 0x040 1 0 != 0 && s.erg.nbrs.any (nbrRadio ·.2) then raiseIrq .erg 4 s1 else s1

/-- The page of the selected radio. -/
def rfPage (s : State) : Page := .rf (Fin.ofNat 2 (crvRadio s))

/-- `PAN_ID`. -/
def crvPan (s : State) : Nat := regF s .crv 0x040 31 16

/-- `MAX_DEPTH`. -/
def crvDepth (s : State) : Nat := regF s .crv 0x040 15 12

/-- The rate of the selected radio: 0-2 RFA's 50, 100, 150 kbit/s, 3 RFB's 250 (R393). -/
def rfRate (s : State) : Nat := regF s (rfPage s) 0x040 5 4

/-- The channels of a radio's plan (R357). -/
def planChannels (radio band rate : Nat) : List Nat :=
  if radio = 1 then (List.range 16).map (11 + ·)
  else match band with
    | 1 => List.range (if rate = 2 then 17 else 34)
    | 2 => List.range (if rate = 2 then 5 else 10)
    | 3 => List.range (if rate = 2 then 64 else 129)
    | _ => []

/-- A channel is enabled in `CH_MASK0`-`CH_MASK4` (R393). -/
def chEnabled (s : State) (p : Page) (c : Nat) : Bool :=
  if c = 128 then regB s p 0x080 0 else regB s p (0x060 + 4 * (c / 32)) (c % 32)

/-- The enabled channels of the selected radio's plan (R364). -/
def enabledChannels (s : State) : List Nat :=
  (planChannels (crvRadio s) (regF s (rfPage s) 0x040 10 8) (rfRate s)).filter (chEnabled s (rfPage s))

/-- h(c) for a PAN ID (R364). -/
def hopHash (pan c : Nat) : Nat := ((c + 1) * 40503 % 65536) ^^^ pan

/-- Puts a channel in the hopping order (R364). -/
def hopInsert (pan c : Nat) : List Nat → List Nat
  | [] => [c]
  | d :: l => if hopHash pan c < hopHash pan d ∨ (hopHash pan c = hopHash pan d ∧ c < d) then c :: d :: l else d :: hopInsert pan c l

/-- The hopping order of a network (R364). -/
def hopList (s : State) (pan : Nat) : List Nat := (enabledChannels s).foldl (fun l c => hopInsert pan c l) []

/-- The slot that TB0 is in (R362). -/
def crvSlot (s : State) : Nat := nowMs s % 1000 / 10

/-- ASN (R362). -/
def crvAsn (s : State) : Nat := 100 * s.tb.t0.sec + crvSlot s

/-- The channel of a transmission at an offset (R364). -/
def hopChannel (s : State) (pan offset : Nat) : Nat :=
  let c := hopList s pan
  c.getD ((crvAsn s + offset) % c.length) 0

/-- Entries per beacon and per corridor frame (R363). -/
def beaconLimit (s : State) : Nat := [2, 7, 13, 10].getD (rfRate s) 0
/-- Entries per corridor frame. -/
def corridorLimit (s : State) : Nat := [2, 8, 13, 10].getD (rfRate s) 0

/-- What a slot is for (R362). -/
inductive SlotUse where
  | coordBeacon | routerBeacon | corridor | data
deriving DecidableEq, Repr

/-- The use of slot n. -/
def slotUse (n : Nat) : SlotUse :=
  if n = 0 ∨ n = 50 then .coordBeacon
  else if [1, 13, 26, 38, 51, 63, 76, 88].contains n then .corridor
  else if n % 50 % 2 = 0 ∧ n % 50 ≤ 16 then .routerBeacon
  else .data

/-- A radio's state. -/
def rfOf (s : State) (r : Nat) : RfState := spGet (fun _ => {}) s.crv.radios r

/-- Changes Caravan's state. -/
def onCrv (f : Crv → Crv) (s : State) : State := { s with crv := f s.crv }

/-- Sets a radio's state. -/
def putRf (r : Nat) (x : RfState) (s : State) : State := onCrv (fun c => { c with radios := spPut (fun _ => {}) r x c.radios }) s

/-- The clear-channel threshold in dBm (R360). -/
def ccaThreshold (s : State) (r : Nat) : Rat :=
  let w := reg s (.rf (Fin.ofNat 2 r)) 0x04C
  if bit w 31 then (signed 8 (fld w 23 16) : Int)
  else
    let t := (rfOf s r).floor.getD 0 + (fld w 7 0 : Nat)
    if t < -110 then -110 else if -60 < t then -60 else t

/-- The floor moves by (r - F) / 16 whenever r < F + 6 dB (R360). -/
def rfSample (rssi : Int) (s : State) : State :=
  let r := crvRadio s
  let x := rfOf s r
  let f := x.floor.getD 0
  putRf r { x with floor := some (if (rssi : Rat) < f + 6 then f + ((rssi : Rat) - f) / 16 else f) } s

/-- ms that a radio sent in the last 3,600 s, in µs (R361). -/
def dutyUsed (s : State) (r : Nat) : Nat :=
  (((rfOf s r).sent.filter fun x => decide (tbNs s.tb.t0 / 1000 < x.1 + 3600000000)).map (·.2)).sum

/-- Budget in µs of the hour: tenths of a per mille of 3,600 s. -/
def dutyBudget (s : State) (r : Nat) : Nat := regF s (.rf (Fin.ofNat 2 r)) 0x050 10 0 * 360000

/-- How long a frame is on the air in µs: its header and security lengths are not all given (log 1); it fits its slot. -/
def airTime (s : State) : Nat := freeN s % 9200 + 1

/-- The margin a class of frame leaves for those that are refused later: 3 data, 2 corridor, 1 slot-50 beacon, 0 slot-0
beacon (R361); how wide the margins are is open. -/
def dutyMargin (s : State) (cls : Nat) : Nat := ((List.range cls).map fun k => freeN s / 9200 / 1000000 ^ k % 1000000).sum

/-- The budget admits a frame of a class (R361). -/
def dutyAdmits (s : State) (cls : Nat) : Bool :=
  let r := crvRadio s
  dutyBudget s r == 0 || decide (dutyUsed s r + airTime s + dutyMargin s cls ≤ dutyBudget s r)

/-- DUTY_HOLD follows the refusals (R361). -/
def dutyHold (b : Bool) (s : State) : State :=
  let p := rfPage s
  setRegB p 0x044 1 b (if b && !regB s p 0x044 1 then raiseIrq p 1 s else s)

/-- FC_TX: session 0's counter (R387). -/
def fcTx (s : State) : Nat := (spGet (fun _ => ({} : CrvSes)) s.crv.ses 0).fc

/-- EPOCH, NGEN and FC_TX are mirrored (R388, R469). -/
def caravanTell (s : State) : State := jrnTell (.caravan s.crv.epoch (regF s .crv 0x04C 7 0) (fcTx s)) s

/-- Sets FC_TX, which ends at its last value (R376), and mirrors it every 2^16 frames (R469); reaching 0xF000_0000 starts a key roll
(R386). -/
def putFcTx (fc : Nat) (s : State) : State :=
  let z := spGet (fun _ => ({} : CrvSes)) s.crv.ses 0
  let s0 := onCrv (fun c => { c with ses := spPut (fun _ => {}) 0 { z with fc := min fc (2 ^ 32 - 1) } c.ses }) s
  let s1 := if z.fc / 65536 = fc / 65536 then s0 else caravanTell s0
  if z.fc < 0xF0000000 ∧ 0xF0000000 ≤ fc ∧ s.crv.roll = 0 then onCrv (fun c => { c with roll := 1 }) s1 else s1

/-- NGEN (R386). -/
def crvNgen (s : State) : Nat := regF s .crv 0x04C 7 0

/-- The next key generation: 254 wraps to 1. -/
def nextGen (g : Nat) : Nat := if 254 ≤ g then 1 else g + 1

/-! ### Keys (R385) -/

/-- The first 16 bytes of HMAC-SHA-256 under a key slot, which mixes in MA0-MA3 where its attributes say so (R385, R506). -/
def crvDerive (s : State) (slot : Nat) (m : List Byte) : List Byte :=
  let k := spGet (fun _ => ({} : KeySlot)) s.keys slot
  let ma := fun i => takePad 48 (spGet (fun _ => []) s.sec.ma i)
  takePad 16 (Config.hmacSha256 k.value (m ++ if bit k.attr 5 then takePad 48 (Config.sha384 (ma 0 ++ ma 1 ++ ma 2 ++ ma 3)) else []))

/-- "CRV-" and two letters. -/
def crvText (a b : Byte) : List Byte := [0x43, 0x52, 0x56, 0x2D, a, b]

/-- `SITE_SLOT` and `NET_SLOT`. -/
def siteSlot (s : State) : Nat := regF s .crv 0x04C 29 24
/-- `NET_SLOT`. -/
def netSlot (s : State) : Nat := regF s .crv 0x04C 21 16

/-- BK. -/
def crvBk (s : State) : List Byte := crvDerive s (siteSlot s) (crvText 0x42 0x4B ++ leBytes 2 (crvPan s))
/-- NK(g). -/
def crvNk (s : State) (g : Nat) : List Byte :=
  crvDerive s (netSlot s) (crvText 0x4E 0x4B ++ leBytes 2 (crvPan s) ++ leBytes 1 g ++ leBytes 8 s.crv.epoch)
/-- IK(e). -/
def crvIk (s : State) (eui : Nat) : List Byte := crvDerive s (siteSlot s) (crvText 0x49 0x4B ++ leBytes 8 eui)
/-- XK with the network of another PAN ID. -/
def crvXk (s : State) (pan : Nat) : List Byte :=
  crvDerive s (siteSlot s) (crvText 0x58 0x4B ++ leBytes 2 (min pan (crvPan s)) ++ leBytes 2 (max pan (crvPan s)))

/-- A payload under the key of an index: 0 none, 255 BK, 256 XK, else NK (R359, R385). -/
def crvSealed (s : State) (fc key pan : Nat) (payload : List Byte) : List Byte :=
  if key = 0 then payload
  else Config.ccmSeal (if key = 255 then crvBk s else if key = 256 then crvXk s pan else crvNk s key) fc payload

/-- A transmission's time counts in the duty budget, and RFA_PA_EN is high from 50 µs before its preamble until 10 µs after it; how
long the preamble with its delimiter lasts is open (R358, R361, R393). -/
def rfSpent (s : State) : State :=
  let r := crvRadio s
  let x := rfOf s r
  let now := tbNs s.tb.t0 / 1000
  let old := x.sent.filter fun y => decide (now < y.1 + 3600000000)
  let pa := if r = 0 && regB s (.rf 0) 0x048 8 then (now + freeN s % 750, now + 800 + airTime s + 10) else x.pa
  used (bumpReg (rfPage s) 0x070 (dutyHold false (putRf r { x with sent := old ++ [(now, airTime s)], pa := pa } s)))

/-- A frame goes on the air (R358, R361, R364, R393). -/
def rfSend (ch fc key dst pan : Nat) (payload : List Byte) (s : State) : State :=
  let r := crvRadio s
  send (.radio r ch fc key dst pan (regF s (rfPage s) 0x048 5 0) (r == 0 && regB s (.rf 0) 0x048 8) payload (crvSealed s fc key pan payload)) (rfSpent s)

/-- The key index of a frame (R385). -/
def frameKey (s : State) (f : RfFrame) : Nat := if f.kind = 3 then 0 else if f.pan.isSome then 256 else crvNgen s

/-- A frame goes on the air with a frame counter, on the channel of its slot. -/
def crvAir (fc : Nat) (f : RfFrame) (s : State) : State :=
  rfSend (hopChannel s (f.pan.getD (crvPan s)) f.offset) fc (frameKey s f) f.dst (f.pan.getD (crvPan s)) f.payload s

/-- An FC is left: none is used twice, so that at the end of the counter nothing more is sent (R376). -/
def fcLeft (s : State) : Bool := decide (fcTx s + 1 < 2 ^ 32)

/-- A secured frame of the coordinator takes the next FC (R376, R387). -/
def crvSend (f : RfFrame) (s : State) : State :=
  if fcLeft s then crvAir (fcTx s + 1) f (putFcTx (fcTx s + 1) s) else s

/-! ### Sessions and routes -/

/-- A session. -/
def sesOf (s : State) (n : Nat) : CrvSes := spGet (fun _ => {}) s.crv.ses n

/-- The largest magnitude. -/
def ratMaxAbs (l : List Rat) : Rat := l.foldl (fun m r => let a := if r < 0 then -r else r; if m < a then a else m) 0

/-- The eight words that show a session x of node n (R387); session 0 is the coordinator's own, which is always there. -/
def sesShown (s : State) (n : Nat) (x : CrvSes) : List Word :=
  let q := fun (r : Rat) => ratRound s r
  let d := clampInt (-32768) 32767 (q (x.drift * 100))
  [word (b01 (x.valid || n == 0) * 2 ^ 31 + b01 x.router * 2 ^ 30 + b01 x.sleepy * 2 ^ 29 + b01 x.lost * 2 ^ 28 + x.depth % 16 * 2 ^ 24 + x.ngen * 2 ^ 16 + x.parent),
   word (x.lqi * 2 ^ 28 + x.misses * 2 ^ 24 + x.dsn * 2 ^ 16 + x.point), word x.fc, word x.fcMs, word x.lease,
   word (unsigned 16 d * 2 ^ 16 + (clampInt 0 255 (q (x.guard / 100))).toNat * 2 ^ 8 + (clampInt 0 255 (q (ratMaxAbs x.res / 20))).toNat),
   word x.nominal, word (x.pollS * 2 ^ 16 + x.held.length * 2 ^ 8)]

/-- What the link carries of a session: the words of R387, its EUI-64 and its channel offset (R469; PRESUMED, log 91). -/
def sesLink (s : State) (n : Nat) (x : CrvSes) : List Word :=
  sesShown s n x ++ [word (x.eui % 2 ^ 32), word (x.eui / 2 ^ 32), word x.offset]

/-- A session that has changed is mirrored (R469). -/
def sesTell (n : Nat) (old new : CrvSes) (s : State) : State :=
  if linkTells s && sesLink s n old != sesLink s n new then linkSend (.session (Fin.ofNat 4096 n) (sesLink s n new)) s else s

/-- Sets a session. -/
def putSes (n : Nat) (x : CrvSes) (s : State) : State :=
  sesTell n (sesOf s n) x (onCrv (fun c => { c with ses := spPut (fun _ => {}) n x c.ses }) s)

/-- The nodes with a session. -/
def crvNodes (s : State) : List Nat := (s.crv.ses.filter fun x => x.1 != 0 && x.2.valid).map (·.1)

/-- The routers (R356). -/
def crvRouters (s : State) : List Nat := (crvNodes s).filter fun n => (sesOf s n).router

/-- The parents of a node from the coordinator's child down to the node itself (R374). -/
def routeTo (s : State) : Nat → Nat → List Nat
  | 0, n => [n]
  | k + 1, n => if (sesOf s n).parent = 0 then [n] else routeTo s k (sesOf s n).parent ++ [n]

/-- The route of a node, at most the largest depth long. -/
def crvRoute (s : State) (n : Nat) : List Nat := routeTo s 8 n

/-- The offset on which a member listens (R365): a router's own, an end device its parent's, the coordinator 0. -/
def listenOffset (s : State) (n : Nat) : Nat :=
  if (sesOf s n).router then (sesOf s n).offset else (sesOf s (sesOf s n).parent).offset

/-- The short address of a radio point that is served; one that is not is not addressed (R94, R97, R98). -/
def radioShort (s : State) (i : Nat) : Option Nat :=
  if cfgRadio (ptHalf s i) && ptServed s i then some (cfgShort (ptHalf s i)) else none

/-- The session of a point. -/
def pointSes (s : State) (i : Nat) : Option Nat := (radioShort s i).filter fun n => (sesOf s n).valid

/-- The served radio point of a short address. -/
def shortPoint (s : State) (n : Nat) : Option Nat :=
  let i := (sesOf s n).point
  if radioShort s i == some n then some i else (List.range ptCount).find? fun j => radioShort s j == some n

/-- A sleepy child of the coordinator itself. -/
def ownSleepy (s : State) (n : Nat) : Bool := (sesOf s n).sleepy && (sesOf s n).parent == 0

/-! ### Command blocks -/

/-- The eight bytes of a command block (R367). -/
def cmdBlock (op seq arg act : Nat) (group : Bool) : List Byte :=
  leBytes 8 (op % 16 * 2 ^ 60 + seq % 16 * 2 ^ 56 + arg % 65536 * 2 ^ 40 + b01 group * 2 ^ 39 + act % 2 ^ 32)

/-- A CMD down a route (R366, R374): addressed to the first member of the route, with the rest as addresses. -/
def cmdFrame (s : State) (n : Nat) (block : List Byte) : RfFrame :=
  let r := crvRoute s n
  let rest := r.drop 1
  { dst := r.getD 0 n, offset := listenOffset s (r.getD 0 n)
    payload := leBytes 1 (0x20 + rest.length % 16) ++ rest.flatMap (leBytes 2) ++ block }

/-! ### Queues -/

/-- A point's queue. -/
def rposOf (s : State) (i : Nat) : LPos := spGet (fun _ => {}) s.crv.pos i

/-- Sets a point's queue. -/
def putRpos (i : Nat) (x : LPos) (s : State) : State := onCrv (fun c => { c with pos := spPut (fun _ => {}) i x c.pos }) s

/-- Whether any queue is full: BACKLOG (DEDUCED, log 21). -/
def crvBacklog (s : State) : Bool := s.crv.pos.any fun x => decide (4 ≤ x.2.queue.length)

/-- The settings of a radio point (R377): those of R198, SET_GROUP, and SET_POLL of a sleepy node.  The hold time of a radio node stands
in no register: it is open (log 168). -/
def radioSettings (s : State) (i : Nat) : List (Nat × Nat) :=
  let c := ptHalf s i
  let win := fld (wordAt c 11) 31 20
  let x := match pointSes s i with | some n => sesOf s n | none => {}
  let poll := if x.sleepy then [(12, x.pollS)] else []
  if cfgKind c = kindSensor then poll
  else [(6, cfgFailsafe c), (7, 1 + Config.radioHold % 6000), (8, fld (wordAt c 6) 15 0), (9, fld (wordAt c 6) 31 16), (10, if win = 0 then 40 else win), (11, cfgGroup c)] ++ poll

/-- The setting command that a point's node is to receive next (R198, R377). -/
def radioSetting (s : State) (i : Nat) : Option Cmd :=
  let x := rposOf s i
  if !regB s .crv 0x040 5 || !enabled s .crv then none
  else match x.setting with
    | some c => some c
    | none => ((radioSettings s i).find? fun v => spGet (fun _ => none) x.copy v.1 != some v.2).map fun v =>
        { point := i, op := v.1, arg := v.2, act := nowMs s, src := 3, uid := s.dim.nextId }

/-- What a point has to send now (R377): nothing without a session or a known SEQ, or after a lasting failure; an urgent
command, a REVOKE, the head of the queue, else a setting; never one that is on its way. -/
def radioPick (s : State) (i : Nat) : Option Cmd :=
  let x := rposOf s i
  match pointSes s i with
  | none => none
  | some n =>
    if x.hist.isNone || x.failed || !ptServed s i then none
    else
      let fresh := fun (c : Cmd) => !c.sent && !(sesOf s n).held.any fun h => h.frame.uid == c.uid
      match (pickCmd { x with queue := x.queue.filter fresh, revokes := x.revokes.filter fresh } false) with
      | some c => some c
      | none => if x.queue.isEmpty && x.revokes.isEmpty then (radioSetting s i).filter fresh else none

/-- A REVOKE of a group command, which carries G and the group's SEQ (R367). -/
def groupRevoke (c : Cmd) : Bool := c.op == 4 && c.group.isSome

/-- The next SEQ of a group (R367, R378); the first one is open. -/
def groupSeq (g : Nat) (s : State) : Nat × State :=
  let q := match s.crv.gseq.find? fun x => x.1 == g with | some x => (x.2 + 1) % 16 | none => freeN s % 16
  (q, used (onCrv (fun r => { r with gseq := spIns g q r.gseq }) s))

/-- A command is given its SEQ when it goes on its way (R196, R377); a setting yields to it.  The REVOKE of a group command takes the
group's (R367). -/
def radioSeq (c : Cmd) (s : State) : Nat × State :=
  let x := rposOf s c.point
  match c.seq with
  | some q => (q, s)
  | none =>
    if groupRevoke c then
      let r := groupSeq (c.group.getD 0xFFFF) s
      (r.1, putRpos c.point { lposUpd (rposOf r.2 c.point) c.uid (fun o => { o with seq := some r.1 }) with setting := none } r.2)
    else
    let q := ((x.hist.getD 15) + 1) % 16
    let x0 := if c.src = 3 then { x with setting := some c } else { x with setting := none }
    let x1 := if levelKind c.op then { x0 with queue := x0.queue.filter fun o => !(levelKind o.op && o.seq.isSome && o.uid != c.uid) } else x0
    let x2 := { lposUpd x1 c.uid (fun o => { o with seq := some q }) with hist := some q }
    let s1 := if c.src = 3 && c.uid == s.dim.nextId then { s with dim := { s.dim with nextId := s.dim.nextId + 1 } } else s
    let s2 := onCrv (fun r => { r with groups := if levelKind c.op then r.groups.map (fun g => { g with left := g.left.filter (· != c.point) }) else r.groups }) (putRpos c.point x2 s1)
    (q, jrnTell (.seqGiven c.point 0 c.uid q) (seqReport c c.point q s2))

/-- Marks the command of a point that a frame carries as sent. -/
def radioSent (i uid : Nat) (s : State) : State := putRpos i (lposUpd (rposOf s i) uid fun c => { c with sent := true }) s

/-- Takes what a point has to send into a frame of its own (R378). -/
def radioBuild (i n : Nat) (c : Cmd) (s : State) : RfFrame × State :=
  let (q, s1) := radioSeq c s
  ({ cmdFrame s1 n (cmdBlock c.op q c.arg c.act (groupRevoke c)) with point := some i, uid := c.uid }, s1)

/-- Holds what a sleepy child of the coordinator has to receive: at most 8 frames (R382). -/
def radioHold (i : Nat) : Nat → State → State
  | 0, s => s
  | k + 1, s =>
    match pointSes s i, radioPick s i with
    | some n, some c =>
      if !ownSleepy s n || decide (8 ≤ (sesOf s n).held.length) then s
      else
        let (f, s1) := radioBuild i n c s
        radioHold i k (putSes n { sesOf s1 n with held := (sesOf s1 n).held ++ [{ frame := f, since := nowMs s }] } s1)
    | _, _ => s

/-- A point's node must be asked for a report before its SEQ is known (R377). -/
def radioAsk (i : Nat) (s : State) : State :=
  let x := rposOf s i
  if x.hist.isNone && !(x.queue.isEmpty && x.revokes.isEmpty) && (pointSes s i).isSome && !s.crv.asks.contains i then
    onCrv (fun c => { c with asks := c.asks ++ [i] }) s
  else s

/-- A queue has changed: a report is asked for, or a sleepy child's frames are held. -/
def radioKick (i : Nat) (s : State) : State := radioHold i 8 (radioAsk i s)

/-! ### Failures and acknowledgements (R379, R197) -/

/-- A lasting failure (R197, R379). -/
def radioFails (i : Nat) (c : Cmd) (s : State) : State :=
  let s1 := diagReport (.cmdFail i (c.op == 5)) (raiseIrq .crv 2 (bumpRegF .crv 0x068 31 16 s))
  if c.src = 3 then putRpos i { rposOf s1 i with setting := none } s1
  else
    let gone := (rposOf s1 i).queue ++ (rposOf s1 i).revokes
    let s2 := putRpos i { rposOf s1 i with queue := [], revokes := [], failed := true } s1
    let s3 := if isLantern (ptHalf s2 i) then dimFailed i s2 else s2
    forEach (fun o t => if o.src = 2 then nuCmdFailed o t else t) gone s3

/-- A frame of the point no longer waits for its sleepy child. -/
def radioUnhold (i uid : Nat) (s : State) : State :=
  let n := cfgShort (ptHalf s i)
  if cfgRadio (ptHalf s i) then putSes n { sesOf s n with held := (sesOf s n).held.filter fun h => h.frame.uid != uid || h.frame.point != some i } s
  else s

/-- The attempt of a command ends unacknowledged: its retry begins, or it fails (R379). -/
def radioAttempt (i uid : Nat) (s : State) : State :=
  match (allCmds (rposOf s i)).find? (·.uid == uid) with
  | none => s
  | some c =>
    let s1 := radioUnhold i uid s
    if c.retry then radioFails i c s1
    else radioKick i (bumpRegF .crv 0x068 15 0 (putRpos i (lposUpd (rposOf s1 i) uid fun o => { o with retry := true, sent := false }) s1))

/-- A point has room for the retry of a group command: a newer level-kind command takes its place, or the queue is not full (R195,
R377). -/
def groupRoom (s : State) (i : Nat) : Bool := (rposOf s i).queue.any (fun c => levelKind c.op) || decide ((rposOf s i).queue.length < 4)

/-- A group command's member did not acknowledge: its retry is a unicast LEVEL with its own next SEQ (R379), unless a newer one waits; a
point without a session keeps the LEVEL until it joins, and counts no attempt (R377). -/
def groupRetry (i : Nat) (g : CrvGroup) (s : State) : State :=
  let k := cmdCause g.cmd i
  let joined := (pointSes s i).isSome
  let c : Cmd := { g.cmd with point := i, op := 1, members := [], group := none, causes := [], cause := k.1, prio := k.2, seq := none, sent := false, retry := joined, uid := s.dim.nextId }
  let x := rposOf s i
  if x.queue.any fun o => levelKind o.op then s
  else radioKick i ((if joined then bumpRegF .crv 0x068 15 0 else id) (putRpos i { x with queue := c :: x.queue } (idTaken s)))

/-- The attempt of a group command ends for one member. -/
def groupMiss (i uid : Nat) (s : State) : State :=
  match s.crv.groups.find? fun g => g.cmd.uid == uid && g.left.contains i with
  | none => s
  | some g =>
    if !groupRoom s i then s
    else groupRetry i g (onCrv (fun c => { c with groups := (c.groups.map fun h =>
      if h.cmd.uid = uid then { h with left := h.left.filter (· != i) } else h).filter fun h => !h.left.isEmpty }) s)

/-- The list without the first entry that a test names. -/
def dropFirst {α : Type} (p : α → Bool) : List α → List α
  | [] => []
  | x :: l => if p x then l else x :: dropFirst p l

/-- Copies that wait move up while fewer than 8 frames are held for the child (R382). -/
def heldFill (n : Nat) (s : State) : State :=
  let x := sesOf s n
  let k := 8 - x.held.length
  if x.wait.isEmpty then s
  else putSes n { x with held := x.held ++ (x.wait.take k).map fun f => { frame := f, since := nowMs s }, wait := x.wait.drop k } s

/-- A frame leaves the list of the sleepy child it was held for (R381, R382). -/
def frameTaken (f : RfFrame) (s : State) : State :=
  if ownSleepy s f.dst then heldFill f.dst (putSes f.dst { sesOf s f.dst with held := dropFirst (fun h => h.frame == f) (sesOf s f.dst).held } s) else s

/-- A frame that failed on its hop, or was dropped (R375, R382): a command's attempt ends, a group command's for the member; an ERG
segment's message fails for want of its ACK (R447). -/
def frameLost (f : RfFrame) (s0 : State) : State :=
  let s := frameTaken f s0
  match f.kind, f.point with
  | 0, some i => radioAttempt i f.uid s
  | 5, _ => match shortPoint s f.dst with
    | some i => groupMiss i f.uid s
    | none => s
  | _, _ => s

/-! ### Transmission -/

/-- The report request for a point: a NOP with its data selector (R380, R405); its identity is the engine that asks, 0 for CRV. -/
def reportFrame (s : State) (i n dsel : Nat) : RfFrame :=
  { cmdFrame s n (cmdBlock 0 0 dsel (nowMs s) false) with
    point := some i, kind := 1, uid := if dsel = 4 then 2 else if s.diag.asks.contains i then 1 else 0 }

/-- The report requests that wait, as (point, selector). -/
def reportsDue (s : State) : List (Nat × Nat) :=
  s.diag.asks.map (fun i => (i, 0)) ++ s.nupd.asks.map (fun i => (i, 4)) ++ s.crv.asks.map fun i => (i, 0)

/-- The report requests that CRV takes up: while it quiesces only its own (R38, R389). -/
def reportsTaken (s : State) : List (Nat × Nat) := if accepting s .crv then reportsDue s else s.crv.asks.map fun i => (i, 0)

/-- A report request is on its way. -/
def reportTake (i dsel : Nat) (s : State) : State :=
  if dsel = 4 then { s with nupd := { s.nupd with asks := s.nupd.asks.filter (· != i) } }
  else onCrv (fun c => { c with asks := c.asks.filter (· != i) }) { s with diag := { s.diag with asks := s.diag.asks.filter (· != i) } }

/-- Bytes of a FRAG (R401). -/
def fragLen (s : State) : Nat := [16, 64, 128, 64].getD (rfRate s) 64

/-- The payload of a FRAG: fragment f of a chunk (R401). -/
def fragPayload (s : State) (chunk f : Nat) : List Byte :=
  leBytes 1 (0xE0 + (crvDepth s - 1)) ++ leBytes 1 1 ++ leBytes 1 (nuCamp s) ++ leBytes 2 (chunk % 4096) ++ leBytes 1 f
    ++ memRead s (regN s .nupd 0x048 + 512 * chunk + fragLen s * f) (fragLen s)

/-- FRAGs sent in the present second (R401). -/
def fragsNow (s : State) : Nat := if s.crv.frags.1 = s.tb.t0.sec then s.crv.frags.2 else 0

/-- What could be sent in a data slot (R377, R378, R381, R401, R450), each with the state that taking it leaves; the manual
gives no order among them. -/
inductive RfJob where
  | held (n : Nat)
  | cmd (i : Nat)
  | report (i dsel : Nat)
  | answer
  | erg
  | frag
  | nackReq
deriving DecidableEq, Repr

/-- The longest acknowledged PSDU (R363). -/
def psduLimit (s : State) : Nat := [33, 88, 136, 127].getD (rfRate s) 0

/-- A CMD down a node's route fits its PSDU (R363): 21 bytes of the standard's around the payload, which gives R363's 34 bytes to
depth 3 (DEDUCED, log 169). -/
def cmdFits (s : State) (n : Nat) : Bool := decide (21 + 1 + 2 * ((crvRoute s n).length - 1) + 8 ≤ psduLimit s)

/-- A command that is not urgent, nor for a sleepy child of the coordinator's, travels as CMD (R378). -/
def cmdByData (s : State) (i : Nat) : Bool :=
  match radioPick s i, pointSes s i with
  | some c, some n => !c.urgent && !ownSleepy s n && cmdFits s n
  | _, _ => false

/-- A frame that is held may be sent: of a point that is no longer served none is (R98). -/
def heldServed (s : State) (h : RfHeld) : Bool := h.frame.point.all (ptServed s)

/-- A double slot can begin in the present data slot (R362). -/
def doubleSlot (s : State) : Bool := decide (crvSlot s + 1 < 100) && slotUse (crvSlot s + 1) == .data

/-- The jobs for a data slot. -/
def rfJobs (s : State) : List RfJob :=
  (((crvNodes s).filter fun n => decide (0 < (sesOf s n).listen) && (sesOf s n).held.any (heldServed s)).map RfJob.held)
    ++ (((s.crv.pos.map (·.1)).filter (cmdByData s)).map RfJob.cmd)
    ++ (((reportsTaken s).filter fun x => match pointSes s x.1 with | some n => (!(sesOf s n).sleepy || !ownSleepy s n) && cmdFits s n | none => false).map fun x => RfJob.report x.1 x.2)
    ++ (if s.crv.answers.isEmpty || !doubleSlot s then [] else [.answer])
    ++ (if s.crv.erg.isEmpty then [] else [.erg])
    ++ (if accepting s .crv && nuRuns s && nuSends s && nuState s == 3 && !(spGet (fun _ => []) s.nupd.queue 64).isEmpty && decide (fragsNow s < regF s .nupd 0x040 31 24) then [.frag] else [])
    ++ (if accepting s .crv && nuRuns s && nuSends s && s.crv.nackDue then [.nackReq] else [])

/-- The broadcast frame of a FRAG, and the queue that is left; after the last FRAG of a pass a NACK_REQ is due (R402). -/
def takeFrag (s : State) : Option (RfFrame × State) :=
  match spGet (fun _ => []) s.nupd.queue 64 with
  | [] => none
  | x :: rest =>
    let s1 := { s with nupd := { s.nupd with queue := spPut (fun _ => []) 64 rest s.nupd.queue } }
    let s2 := bumpRegF .nupd 0x06C 31 16 (onCrv (fun c => { c with nackDue := rest.isEmpty }) s1)
    some ({ dst := 0xFFFF, payload := fragPayload s (x / 64) (x % 64), acked := false, kind := 6, uid := x }, s2)

/-- Takes a job's frame. -/
def takeJob (s : State) : RfJob → Option (RfFrame × State)
  | .held n => ((sesOf s n).held.find? (heldServed s)).map fun h => (h.frame, s)
  | .cmd i =>
    match radioPick s i, pointSes s i with
    | some c, some n => some (radioBuild i n c s)
    | _, _ => none
  | .report i d => (pointSes s i).map fun n => (reportFrame s i n d, reportTake i d s)
  | .answer => (s.crv.answers.head?).map fun f => (f, onCrv (fun c => { c with answers := c.answers.drop 1, dbl := some (crvAsn s + 1) }) s)
  | .erg => (s.crv.erg.head?).map fun f => (f, onCrv (fun c => { c with erg := c.erg.drop 1 }) s)
  | .frag => takeFrag s
  | .nackReq =>
    some ({ dst := 0xFFFF, acked := false, kind := 4
            payload := leBytes 1 (0xE0 + (crvDepth s - 1)) ++ leBytes 1 2 ++ leBytes 1 (nuCamp s) ++ leBytes 2 (regF s .nupd 0x060 15 0) },
          onCrv (fun c => { c with nackDue := false }) s)

/-- A failed hop attempt: one retry, then the frame is dropped (R375). -/
def hopMissed (t : RfTx) (s : State) : State :=
  if t.second then frameLost t.frame (onCrv (fun c => { c with tx := none }) s)
  else onCrv (fun c => { c with tx := some { t with second := true, busy := 0, defer := 0, onAir := false } }) s

/-- What a frame was asked for as: requester, point or fragment (R42). -/
def frameAsk (f : RfFrame) : Option (Nat × Nat) :=
  if f.kind = 6 then some (3, f.uid)
  else if f.kind = 1 && f.uid != 0 then f.point.map fun i => (f.uid, i)
  else none

/-- The POLL_RSP of a sleepy child, made as it is sent (R366, R381). -/
def pollRsp (s : State) (n : Nat) : List Byte :=
  leBytes 1 0x70 ++ leBytes 4 (nowMs s) ++ leBytes 2 (s.tb.t0.ns / 1000 % 1000) ++ leBytes 1 (sesOf s n).held.length

/-- The frame of an attempt goes on the air with its FC; one that no one acknowledges is done (R375).  FRAGs count in the second they
are sent in (R401). -/
def airGo (t : RfTx) (fc : Nat) (s : State) : State :=
  let f := if t.frame.kind = 7 then { t.frame with payload := pollRsp s t.frame.dst } else t.frame
  let s1 := crvAir fc f s
  let s2 := match f.kind, f.point with
    | 0, some i => radioSent i f.uid s1
    | _, _ => s1
  let s3 := if f.kind != 7 && ownSleepy s2 f.dst then putSes f.dst { sesOf s2 f.dst with listen := 4 } s2 else s2
  let s4 := if f.kind = 6 then onCrv (fun c => { c with frags := (s.tb.t0.sec, fragsNow s + 1) }) s3 else s3
  onCrv (fun c => { c with tx := if f.acked then some { t with onAir := true, busy := 0, fc := some fc } else none
                           again := c.again.filter fun x => frameAsk f != some x }) s4

/-- The attempt's FC: a repeat's own (R376), of a JOIN_RSP or KEY_RSP a draw of the TRNG (R372), else the next one, while there is
one. -/
def airFrame (t : RfTx) (s : State) : State :=
  match t.fc with
  | some q => airGo t q s
  | none =>
    if t.frame.kind = 3 then airGo t (freeN s % 2 ^ 32) (used s)
    else if fcLeft s then airGo t (fcTx s + 1) (putFcTx (fcTx s + 1) s)
    else onCrv (fun c => { c with tx := some t }) s

/-- An attempt in a data slot (R360, R361, R375): a busy channel defers the frame, three in a row count as an attempt; the
duty budget may refuse it, and RF_SHARE a FRAG. -/
def dataAttempt (rssi : Int) (t : RfTx) (s : State) : State :=
  if ccaThreshold s (crvRadio s) ≤ (rssi : Rat) then
    let s1 := used (bumpReg (rfPage s) 0x07C s)
    rfSample rssi (if 2 ≤ t.busy then hopMissed t s1 else onCrv (fun c => { c with tx := some { t with busy := t.busy + 1, defer := freeN s % 4 } }) s1)
  else if !dutyAdmits s 3 then rfSample rssi (used (dutyHold true (onCrv (fun c => { c with tx := some t }) s)))
  else if t.frame.kind = 6 && decide (regF s .nupd 0x040 31 24 ≤ fragsNow s) then rfSample rssi (onCrv (fun c => { c with tx := some t }) s)
  else airFrame t s

/-- A data slot (R375): the frame under way, the second half of a double slot (R362), or what waits.  A slot in which the radio does not
send moves the floor (R360). -/
def dataSlot (rssi : Int) (s : State) : State :=
  match s.crv.tx with
  | some t =>
    if t.onAir then s
    else if 0 < t.defer then rfSample rssi (onCrv (fun c => { c with tx := some { t with defer := t.defer - 1 } }) s)
    else dataAttempt rssi t s
  | none => match s.crv.soon with
    | f :: rest => dataAttempt rssi { frame := f } (onCrv (fun c => { c with soon := rest }) s)
    | [] =>
      if s.crv.dbl = some (crvAsn s) then s
      else match rfJobs s with
      | [] => rfSample rssi s
      | js =>
        match takeJob s (js.getD (freeN s % js.length) .answer) with
        | none => s
        | some (f, s1) => dataAttempt rssi { frame := f } (used s1)

/-- An entry of a beacon or a corridor frame (R366). -/
def rfEntry (tgt : Nat) (block : List Byte) : List Byte := leBytes 2 tgt ++ block

/-- Copies of a group entry for every sleepy child of the coordinator's (R378); a ninth frame waits (R382). -/
def holdGroup (uid : Nat) (block : List Byte) (s : State) : State :=
  forEach (fun n t =>
    if ownSleepy t n then
      heldFill n (putSes n { sesOf t n with wait := (sesOf t n).wait ++ [{ dst := n, payload := leBytes 1 0x20 ++ block, kind := 5, uid := uid }] } t)
    else t) (crvNodes s) s

/-- Takes up to `left` group commands that are urgent or not into entries (R378). -/
def groupEntries (urgent : Bool) : Nat → List CrvGroup → State → List Byte × State
  | _, [], s => ([], s)
  | 0, _ :: _, s => ([], s)
  | k + 1, g :: gs, s =>
    if g.sent || g.cmd.jrn || g.cmd.urgent != urgent then groupEntries urgent (k + 1) gs s
    else
      let block := cmdBlock g.cmd.op g.seq g.cmd.arg g.cmd.act true
      let s1 := holdGroup g.cmd.uid block (onCrv (fun c => { c with groups := c.groups.map fun h => if h.cmd.uid = g.cmd.uid then { h with sent := true } else h }) s)
      let (rest, s2) := groupEntries urgent k gs s1
      (rfEntry (g.cmd.group.getD 0xFFFF) block ++ rest, s2)

/-- Takes up to `left` urgent commands of points into entries (R378). -/
def urgentEntries : Nat → List Nat → State → List Byte × State
  | _, [], s => ([], s)
  | 0, _ :: _, s => ([], s)
  | k + 1, i :: is, s =>
    match radioPick s i, pointSes s i with
    | some c, some n =>
      if !c.urgent || ownSleepy s n then urgentEntries (k + 1) is s
      else
        let (q, s1) := radioSeq c s
        let (rest, s2) := urgentEntries k is (radioSent i c.uid s1)
        (rfEntry n (cmdBlock c.op q c.arg c.act (groupRevoke c)) ++ rest, s2)
    | _, _ => urgentEntries (k + 1) is s

/-- The coordinator's beacon flags (R370). -/
def beaconFlags (s : State) : Nat :=
  8 * b01 (regB s .crv 0x040 4) + 4 * b01 (decide (0 < crvDepth s))
    + 2 * b01 (decide (((crvNodes s).filter (ownSleepy s)).length < 32)) + b01 (s.crv.roll == 1)

/-- The coordinator's beacon in slot 0 or 50 (R370, R376): none whose FC does not exceed the last one sent. -/
def beaconSlot (h : Nat) (s : State) : State :=
  let fc := 2 * (s.tb.t0.sec % 2 ^ 31) + h
  if (match s.crv.beaconFc with | some last => decide (fc ≤ last) | none => false) then setRegB .crv 0x044 0 false s
  else if !dutyAdmits s h then used (dutyHold true s)
  else
    let (entries, s1) := groupEntries false (beaconLimit s) s.crv.groups s
    let p := leBytes 1 0x10 ++ leBytes 4 (nowMs s) ++ leBytes 1 (beaconFlags s) ++ leBytes 1 (crvNgen s) ++ entries
    rfSend (hopChannel s (crvPan s) 0) fc 0xFF 0xFFFF (crvPan s) p (setRegB .crv 0x044 0 true (onCrv (fun c => { c with beaconFc := some fc }) s1))

/-- A corridor slot: urgent entries, with TTL = MAX_DEPTH - 1 (R374, R378). -/
def corridorSlot (s : State) : State :=
  let (g, s1) := groupEntries true (corridorLimit s) s.crv.groups s
  let (u, s2) := urgentEntries (corridorLimit s - g.length / 10) (s.crv.pos.map (·.1)) s1
  if (g ++ u).isEmpty then s
  else if !fcLeft s then s
  else if !dutyAdmits s 2 then used (dutyHold true s)
  else crvSend { dst := 0xFFFF, acked := false, kind := 4, payload := leBytes 1 (0x40 + (crvDepth s - 1)) ++ g ++ u } s2

/-- One data slot passes for each child that listens without a frame (R381). -/
def listenDown (s : State) : State :=
  forEach (fun n t => let x := sesOf t n; if 0 < x.listen then putSes n { x with listen := x.listen - 1 } t else t) (crvNodes s) s

/-- Queued commands and frames under way are CRV's work (R389). -/
def crvBusy (s : State) : Bool :=
  s.crv.tx.isSome || !s.crv.groups.isEmpty || s.crv.pos.any fun x => !x.2.queue.isEmpty || !x.2.revokes.isEmpty

/-- The selected radio's synthesiser is locked (R393, R553). -/
def rfLocked (s : State) : Bool := !(rfOf s (crvRadio s)).unlocked && !(rfOf s (crvRadio s)).off

/-- CRV runs: the selected radio works, and CRV is enabled or has accepted work to complete (R388, R631). -/
def crvRuns (s : State) : Bool :=
  running s .crv && (enabled s .crv || crvBusy s) && working s (rfPage s) && rfLocked s && crvMode s != 0

/-- A load shed stops the radios' transmissions, and CRV holds its frames (R551). -/
def rfShed (s : State) : Bool := regB s .pwr 0x044 30

/-- A slot starts (R362). -/
def caravanSlot (rssi : Int) (s : State) : State :=
  if !crvRuns s || !enabled s (.tb 0) || nowMs s % 10 != 0 || (rfShed s && crvMode s != 2) then s
  else if crvMode s = 2 then (if slotUse (crvSlot s) = .data then rfSample rssi s else s)
  else match slotUse (crvSlot s) with
    | .coordBeacon => beaconSlot (crvSlot s / 50) s
    | .routerBeacon => s
    | .corridor => if ptReady s then corridorSlot s else s
    | .data => if ptReady s then listenDown (dataSlot rssi s) else s

/-- `CARAVAN_SLOT`, with the RSSI the radio sees in it. -/
def execCaravanSlot (rssi : Int) (s : State) : Out := done s (caravanSlot rssi s)

/-- `HOP_ACK` (R375): on the second attempt a transient fault (R16). -/
def hopAck (s : State) : State :=
  match s.crv.tx with
  | some t =>
    if t.onAir then frameTaken t.frame (onCrv (fun c => { c with tx := none }) (if t.second then noteTransient .crv s else s)) else s
  | none => s

/-- `HOP_ACK`. -/
def execHopAck (s : State) : Out := done s (hopAck s)

/-- `HOP_ACK_MISS` (R375). -/
def hopAckMiss (s : State) : State :=
  match s.crv.tx with
  | some t => if t.onAir then hopMissed t s else s
  | none => s

/-- `HOP_ACK_MISS`. -/
def execHopAckMiss (s : State) : Out := done s (hopAckMiss s)

end Sys2Proof.Machine
end

