-- ==== Sys2Proof/Machine/Crv.lean ====
section
/-! DEFINITION. Caravan: received frames, joining, polls, keys, commands handed over, modes (R366-R393). -/
namespace Sys2Proof.Machine

/-! ### Received frames -/

/-- A key index that the coordinator accepts (R386): its generation, and the old one while a roll overlaps. -/
def keyAccepted (s : State) (key : Nat) : Bool :=
  key == crvNgen s || (s.crv.roll == 2 && nextGen key == crvNgen s)

/-- Sends an acknowledgement within the duty budget; a SHADOW unit never transmits (R361, R375, R388). -/
def rfAck (dst : Nat) (s : State) : State :=
  if crvMode s ≠ 1 ∨ rfShed s then s
  else if dutyAdmits s 3 then send (.radioAck dst (freeN s)) (rfSpent s)
  else used (dutyHold true s)

/-- A secured frame of a member: discarded where its FCS fails, where R359 does not name its kind, or where it does not verify, else new, a repeat or a replay by FC and DSN
(R376).  While PTAB serves no lookups the frame is taken all the same, and what it writes to its point waits (R118, R120). -/
def crvRx (f : RadioRx) (fx : State → State) (s : State) : State :=
  if !crvRuns s then s
  else
    let s0 := bumpReg (rfPage s) (if f.fcs then 0x074 else 0x078) s
    let x := sesOf s f.src.val
    if !f.fcs || !f.kindOk || !f.good || !keyAccepted s f.key || !x.valid || f.src.val == 0 then s0
    else if x.fc < f.fc then
      fx (rfAck f.src.val (putSes f.src.val { x with fc := f.fc % 2 ^ 32, dsn := f.dsn % 256, fcMs := nowMs s } s0))
    else if f.fc = x.fc ∧ f.dsn % 256 = x.dsn ∧ actDiff (nowMs s) x.fcMs ≤ 8000 then rfAck f.src.val (bumpReg .crv 0x060 s0)
    else raiseIrq .crv 0 (bumpReg .crv 0x064 s0)

/-- The origin of an upward frame (R366). -/
def rxOrigin (f : RadioRx) (origin : Option (Fin 4096)) : Nat := match origin with | some o => o.val | none => f.src.val

/-- A node was heard: its lease runs anew (R373). -/
def crvContact (n : Nat) (s : State) : State :=
  let x := sesOf s n
  if x.valid then putSes n { x with lease := (nowSec s + regN s .crv 0x050) % 2 ^ 32 } s else s

/-! ### STATUS -/

/-- Takes the acknowledgements of a STATUS (R379). -/
def radioAck (i st : Nat) (s : State) : State :=
  let hit := (allCmds (rposOf s i)).filter fun c => stAckValid st && !groupRevoke c && c.seq == some (stAckSeq st)
  forEach (fun c t => jrnTell (.acked i 0 c.uid) (cmdAcked c 0 (stRevLate st) (radioUnhold i c.uid (putRpos i (ackRemove (rposOf t i) c) t)))) hit s

/-- Takes a member's acknowledgement of a group command, or of the REVOKE of one (R367, R379). -/
def groupAck (i gack : Nat) (s0 : State) : State :=
  let revs := (rposOf s0 i).revokes.filter fun c => groupRevoke c && gack.testBit 3 && c.seq == some (nfld gack 7 4)
  let s := forEach (fun c t => cmdAcked c 0 false (radioUnhold i c.uid (putRpos i { rposOf t i with revokes := (rposOf t i).revokes.filter (·.uid != c.uid) } t))) revs s0
  let hit := s.crv.groups.filter fun g => g.sent && gack.testBit 3 && g.seq == nfld gack 7 4 && g.left.contains i
  let s1 := forEach (fun g t => dimAck { g.cmd with point := i } false i t) hit s
  onCrv (fun c => { c with groups := (c.groups.map fun g =>
    if hit.any (fun h => h.cmd.uid == g.cmd.uid) then { g with left := g.left.filter (· != i) } else g).filter fun g => !g.left.isEmpty }) s1

/-- The first STATUS of a node gives its SEQ history (R377, R196). -/
def radioSeqStart (i st : Nat) (s : State) : State :=
  let x := rposOf s i
  let s1 := if x.hist.isSome then s else putRpos i { x with hist := some (if stAckValid st then stAckSeq st else 15) } s
  onCrv (fun c => { c with asks := c.asks.filter (· != i) }) s1

/-- After a lasting failure the node's next STATUS signals DIM (R197, R379). -/
def radioRecover (i : Nat) (s : State) : State :=
  if (rposOf s i).failed then dimRecover i (putRpos i { rposOf s i with failed := false } s) else s

/-- RESTARTED: the copy of the settings is cleared (R198). -/
def radioRestart (i st : Nat) (s : State) : State :=
  if stRestarted st then nuRestarted i 0 (dimRestarted i (putRpos i { rposOf s i with copy := [], setting := none } s)) else s

/-- A STATUS of a node (R368): the point's words, acknowledgements, settings, DIAG and NUPD. -/
def radioStatus (n st data gack : Nat) (s : State) : State :=
  let x := sesOf s n
  if !x.valid then s
  else
    let s1 := crvContact n (putSes n { x with lqi := nfld st 31 28 } s)
    match shortPoint s1 n with
    | none => s1
    | some i =>
      let st1 := st / 256 % 2 ^ 24 * 256 + x.depth % 16 * 16
      let s2 := groupAck i gack (radioAck i st (radioSeqStart i st s1))
      radioKick i (slotToPoint .crv 0 i st1 data (radioRestart i st (radioRecover i s2)))

/-- `STATUS`. -/
def execStatus (f : RadioRx) (origin : Option (Fin 4096)) (st data gack : Nat) (s : State) : Out :=
  done s (crvRx f (radioStatus (rxOrigin f origin) st data gack) s)

/-- A SENSOR frame (R369): a repeat within 8 s is discarded, another goes to DET; DIR 3, which the rule does not give, is no direction
(DESIGN CHOICE, log 172). -/
def radioSensor (n evseq stamp dirUs speed : Nat) (s : State) : State :=
  let x := sesOf s n
  let dup := match x.evSeq with
    | some (q, at') => q == evseq % 256 && decide (actDiff (nowMs s) at' ≤ 8000)
    | none => false
  if !x.valid then s
  else if dup then crvContact n s
  else
    let s1 := crvContact n (putSes n { x with evSeq := some (evseq % 256, nowMs s) } s)
    match shortPoint s1 n with
    | some i =>
      if cfgKind (ptHalf s1 i) = kindSensor then
        detSensor i (stamp % 2 ^ 32) (nfld dirUs 9 0) (nfld dirUs 15 14 % 3) (nfld speed 11 0) s1
      else s1
    | none => s1

/-- `SENSOR`. -/
def execSensor (f : RadioRx) (origin : Option (Fin 4096)) (evseq stamp dirUs speed : Nat) (s : State) : Out :=
  done s (crvRx f (radioSensor (rxOrigin f origin) evseq stamp dirUs speed) s)

/-! ### Sleepy children -/

/-- Half the window in µs in which a poll is heard: g, then the wider windows after one and two misses (R383, R384). -/
def pollWindow (x : CrvSes) : Rat :=
  let lim := fun (k : Rat) => if 32000 < k * x.guard then (32000 : Rat) else k * x.guard
  if x.misses = 0 then x.guard else if x.misses = 1 then lim 2 else lim 4

/-- Seconds since the previous poll's nominal instant (R383). -/
def pollSpan (x : CrvSes) : Rat := ((actDiff (x.nominal + 1000 * x.misses) x.before : Int) : Rat) / 1000

/-- The shift of the expected arrival in µs (R383). -/
def pollShift (x : CrvSes) : Rat := x.drift * pollSpan x

/-- A received poll teaches drift and guard (R383, R384); e is its offset from the TX offset in ns. -/
def pollLearn (e : Int) (x : CrvSes) : CrvSes :=
  let us := ((e : Int) : Rat) / 1000
  let t := pollSpan x
  let m := if t = 0 then 0 else us / t
  let res := ((us - pollShift x) :: x.res).take 8
  let g3 := 3 * ratMaxAbs res
  { x with drift := x.drift + (m - x.drift) / 4, res := res, misses := 0
           guard := if 8000 < g3 then 8000 else if g3 < 500 then 500 else g3 }

/-- A poll of a sleepy child (R381-R384): it is answered in its double slot with the time and the number of frames held,
and reports that DIAG or NUPD asked for are held too, as long as fewer than 8 are. -/
def crvPoll (n : Nat) (e : Int) (s : State) : State :=
  let x := sesOf s n
  let r := ((e : Int) : Rat) / 1000 - pollShift x
  let w := pollWindow x
  if !ownSleepy s n || x.lost || !(decide (-w ≤ r) && decide (r ≤ w)) then s
  else
    let s1 := if 0 < x.misses then bumpRegF .crv 0x06C 15 0 s else s
    let x1 := { pollLearn e x with before := (x.nominal + 1000 * x.misses) % 2 ^ 32, nominal := (nowMs s + 1000 * x.pollS) % 2 ^ 32, listen := 3 }
    let s2 := crvContact n (putSes n x1 s1)
    let asks := match shortPoint s2 n with
      | some i => (reportsTaken s2).filter fun a => a.1 == i
      | none => []
    let s3 := forEach (fun a t =>
      if 8 ≤ (sesOf t n).held.length then t
      else putSes n { sesOf t n with held := (sesOf t n).held ++ [{ frame := reportFrame t a.1 n a.2, since := nowMs t }] } (reportTake a.1 a.2 t)) asks s2
    if crvMode s3 = 1 then onCrv (fun c => { c with soon := c.soon ++ [{ dst := n, payload := [], acked := false, kind := 7 }] }) s3 else s3

/-- `POLL`. -/
def execPoll (f : RadioRx) (e : Int) (s : State) : Out := done s (crvRx f (crvPoll f.src.val e) s)

/-- A poll window passes without a poll (R384): a miss, and the third marks the child LOST. -/
def crvLost (n : Nat) (s : State) : State :=
  let x := sesOf s n
  if !crvRuns s || !ownSleepy s n || !x.valid || x.lost then s
  else if x.misses < 2 then putSes n { x with misses := x.misses + 1 } s
  else
    let s1 := raiseIrq .crv 4 (bumpRegF .crv 0x06C 31 16 (putSes n { x with misses := 3, lost := true } s))
    match shortPoint s1 n with
    | some i => diagReport (.lost i) s1
    | none => s1

/-- `LOST`. -/
def execLost (n : Fin 4096) (s : State) : Out := done s (crvLost n.val s)

/-- A frame held for 64 s is dropped, and ends the attempt of its command (R382). -/
def heldExpire (n : Nat) (s : State) : State :=
  match (sesOf s n).held with
  | [] => s
  | h :: _ => if crvRuns s && decide (64000 ≤ actDiff (nowMs s) h.since) then frameLost h.frame s else s

/-- `HELD_FRAME_EXPIRE`. -/
def execHeldFrameExpire (n : Fin 4096) (s : State) : Out := done s (heldExpire n.val s)

/-! ### Joining and keys -/

/-- The enabled radio point with an EUI-64 (R372). -/
def euiPoint (s : State) (eui : Nat) : Option Nat :=
  (List.range ptCount).find? fun i =>
    let c := ptHalf s i
    ptServed s i && (cfgKind c == kindRadio || cfgKind c == kindSensor) && cfgRadio c && cfgEui c == eui

/-- The lowest short address that no radio point names and no lease holds (R372). -/
def freeShort (s : State) : Option Nat :=
  let named := (List.range ptCount).filterMap fun i => if cfgRadio (ptHalf s i) && cfgKind (ptHalf s i) != 0 then some (cfgShort (ptHalf s i)) else none
  ((List.range 4095).map (1 + ·)).find? fun a => !named.contains a && !(sesOf s a).valid

/-- The address a node would take, and its point (R372). -/
def joinAddr (s : State) (eui : Nat) : Option (Nat × Option Nat) :=
  match euiPoint s eui with
  | some i => some (cfgShort (ptHalf s i), some i)
  | none =>
    if !regB s .crv 0x040 4 then none
    else match (s.crv.ses.find? fun x => x.2.valid && x.2.eui == eui && x.1 != 0) with
      | some x => some (x.1, none)
      | none => (freeShort s).map fun a => (a, none)

/-- MIC and JCTR of a request hold (R372). -/
def joinFresh (s : State) (q : JoinReq) : Bool :=
  q.mic && (match s.crv.jctr.find? fun x => x.1 == q.eui with | some x => decide (x.2 < q.jctr) | none => true)

/-- JCTR of an accepted request is kept. -/
def joinKeep (q : JoinReq) (s : State) : State := onCrv (fun c => { c with jctr := spIns q.eui q.jctr c.jctr }) s

/-- The sleepy children of the coordinator but for one node (R382). -/
def otherSleepy (s : State) (n : Nat) : Nat := ((crvNodes s).filter fun k => ownSleepy s k && k != n).length

/-- A JOIN_RSP or a KEY_RSP (R372, R386), with NK encrypted under IK and a MIC, whose counter is a draw of the TRNG; while a roll is
announced it delivers the next generation.  To a child of the coordinator it goes in the double slot of the request (R362). -/
def joinRsp (ty : Nat) (q : JoinReq) (status n : Nat) (s : State) : State :=
  if crvMode s != 1 then s
  else
    let g := if s.crv.roll = 1 then nextGen (crvNgen s) else crvNgen s
    let x := sesOf s n
    let body := leBytes 8 q.eui ++ leBytes 1 status ++ leBytes 2 n ++ leBytes 1 (if x.router then x.offset else 0xFF) ++ leBytes 1 g
      ++ takePad 20 (Config.ccmSeal (crvIk s q.eui) (freeN s % 2 ^ 32) (crvNk s g))
    let route := if q.via.val = 0 then [] else crvRoute s q.via.val
    let addrs := route.drop 1 ++ (if q.via.val = 0 then [] else [n])
    let f : RfFrame := { dst := route.getD 0 n, offset := if q.via.val = 0 then 0 else listenOffset s (route.getD 0 n), kind := 3
                         payload := leBytes 1 (16 * ty + addrs.length % 16) ++ addrs.flatMap (leBytes 2) ++ body }
    used (onCrv (fun c => if q.via.val = 0 then { c with soon := c.soon ++ [f] } else { c with answers := c.answers ++ [f] }) s)

/-- Depth of a node below a parent. -/
def depthUnder (s : State) (parent : Nat) : Nat := if parent = 0 then 1 else (sesOf s parent).depth + 1

/-- Admits a node at an address (R372, R373): a session of the same EUI-64 is kept with its drift and counters; a new one
starts.  A router's offset is RT1 firmware's choice: open (log 1). -/
def admitNode (q : JoinReq) (n : Nat) (pt : Option Nat) (s : State) : State :=
  let old := sesOf s n
  let fresh : CrvSes := { guard := 100 * (regF s .crv 0x058 7 0 : Nat), before := nowMs s }
  let x := if old.valid ∧ old.eui = q.eui then old else fresh
  let sleepy := q.flags.testBit 1
  let d := depthUnder s q.via.val
  let router := q.flags.testBit 0 && !sleepy && decide (((crvRouters s).filter (· != n)).length < 2048) && decide (d < crvDepth s)
  let x1 := { x with valid := true, eui := q.eui, router := router, sleepy := sleepy, lost := false, misses := 0, depth := d
                     parent := q.via.val, pollS := clampNat 1 3600 q.pollS, ngen := crvNgen s
                     lease := (nowSec s + regN s .crv 0x050) % 2 ^ 32, nominal := (nowMs s + 1000 * clampNat 1 3600 q.pollS) % 2 ^ 32
                     before := nowMs s, point := pt.getD 0, offset := if router then 1 + freeN s % 15 else 0 }
  let s1 := raiseIrq .crv 3 (used (putSes n x1 (joinKeep q s)))
  match pt with
  | some i => radioKick i (if old.valid ∧ old.eui = q.eui then s1 else putRpos i { rposOf s1 i with hist := none, copy := [], setting := none } s1)
  | none => s1

/-- A JOIN_REQ (R372); its look-up waits while PTAB does not serve (R118, R120). -/
def joinReq (q : JoinReq) (s : State) : State :=
  if !crvRuns s || !enabled s .crv then s
  else if !ptReady s then onCrv (fun c => { c with joins := c.joins ++ [q] }) s
  else
    let s0 := bumpReg (rfPage s) 0x074 s
    if crvMode s = 2 then s0
    else
      match joinAddr s q.eui with
      | none => joinRsp 9 q 1 0 s0
      | some (n, pt) =>
        if !joinFresh s q || ((sesOf s n).valid && (sesOf s n).eui != q.eui) || (q.via.val == 0 && q.flags.testBit 1 && decide (32 ≤ otherSleepy s n)) then joinRsp 9 q 1 0 s0
        else joinRsp 9 q 0 n (admitNode q n pt s0)

/-- PTAB serves again: the join requests that waited, in their order. -/
def crvUnhold (s : State) : State :=
  if ptReady s then forEach joinReq s.crv.joins (onCrv (fun c => { c with joins := [] }) s) else s

/-- `JOIN_REQ`. -/
def execJoinReq (q : JoinReq) (s : State) : Out := done s (joinReq q s)

/-- A KEY_REQ (R386). -/
def keyReq (q : JoinReq) (s : State) : State :=
  if !crvRuns s then s
  else
    let s0 := bumpReg (rfPage s) 0x074 s
    if crvMode s = 2 then s0
    else match s.crv.ses.find? fun x => x.2.valid && x.2.eui == q.eui && x.1 != 0 with
      | none => joinRsp 11 q 1 0 s0
      | some (n, x) =>
        if !joinFresh s q then joinRsp 11 q 1 0 s0
        else
          let g := if s.crv.roll = 1 then nextGen (crvNgen s) else crvNgen s
          joinRsp 11 q 0 n (crvContact n (putSes n { x with ngen := g } (joinKeep q s0)))

/-- `KEY_REQ`. -/
def execKeyReq (q : JoinReq) (s : State) : Out := done s (keyReq q s)

/-- The depths of a node's descendants follow their parents (R374). -/
def redepth : Nat → State → State
  | 0, s => s
  | k + 1, s => redepth k (forEach (fun n t =>
      let d := depthUnder t (sesOf t n).parent
      if (sesOf t n).depth = d then t else putSes n { sesOf t n with depth := d } t) (crvNodes s) s)

/-- A REPARENT (R374); the coordinator takes no 33rd sleepy child (R382). -/
def reparent (n parent : Nat) (s : State) : State :=
  if (sesOf s n).valid && !(parent == 0 && (sesOf s n).sleepy && decide (32 ≤ otherSleepy s n)) then redepth 9 (crvContact n (putSes n { sesOf s n with parent := parent } s)) else s

/-- `REPARENT`. -/
def execReparent (f : RadioRx) (origin : Option (Fin 4096)) (parent : Fin 4096) (s : State) : Out :=
  done s (crvRx f (reparent (rxOrigin f origin) parent.val) s)

/-- A session is freed (R373). -/
def freeSes (n : Nat) (s : State) : State := putSes n {} s

/-- A lease ends (R373). -/
def leaseEnd (n : Nat) (s : State) : State :=
  let x := sesOf s n
  if n != 0 && x.valid && decide (0 ≤ signed 32 (nowSec s + 2 ^ 32 - x.lease % 2 ^ 32)) then freeSes n s else s

/-- `LEASE_END`. -/
def execLeaseEnd (n : Fin 4096) (s : State) : Out := done s (leaseEnd n.val s)

/-- A write of `EVICT` (R373, R392). -/
def evict (v : Word) (s : State) : State :=
  let n := fld v 11 0
  if fld v 31 24 != 0xE9 || n == 0 || !(sesOf s n).valid then recErr .crv 0x105 s else freeSes n s

/-- `EVICT`. -/
def execEvict (ini : Ini) (v : Word) (s : State) : Out := done s (admitWrite ini .crv 0x070 v (evict v) s)

/-- A write of `ROLL` (R386, R392). -/
def rollWrite (v : Word) (s : State) : State :=
  if fld v 31 24 != 0x6E then recErr .crv 0x105 s
  else if bit v 0 && s.crv.roll == 0 then onCrv (fun c => { c with roll := 1 }) s else s

/-- `ROLL`. -/
def execRoll (ini : Ini) (v : Word) (s : State) : Out := done s (admitWrite ini .crv 0x074 v (rollWrite v) s)

/-- `ROLL_SWITCH`: after 600 s CRV changes to the next generation (R386). -/
def execRollSwitch (s : State) : Out :=
  done s (if s.crv.roll = 1 then onCrv (fun c => { c with roll := 2 }) (caravanTell (setRegF .crv 0x04C 7 0 (nextGen (crvNgen s)) s)) else s)

/-- `ROLL_DONE`: 60 s later the old key is no longer accepted (R386). -/
def execRollDone (s : State) : Out :=
  done s (if s.crv.roll = 2 then raiseIrq .crv 1 (onCrv (fun c => { c with roll := 0 }) s) else s)

/-! ### Commands -/

/-- A group command of DIM (R229, R378): it takes the group's next SEQ, which is reported to every member. -/
def groupTake (c : Cmd) (s : State) : State :=
  let g := c.group.getD 0xFFFF
  let (q, s0) := groupSeq g s
  let c1 := { c with seq := some q, uid := s.dim.nextId, jrn := jrnWaits s }
  let s2 := onCrv (fun r => { r with groups := r.groups ++ [{ cmd := c1, seq := q, left := c.members }] }) (idTaken s0)
  forEach (fun i t => dimSeq i (cmdCause c i).1 q t) c.members (jrnTell (jrnHanded 0 c1) (dimHanded c1 s2))

/-- An engine hands over its k-th offer for a radio point, or a full queue refuses it (R377); a point without a session
keeps its newest level-kind command, and of one that is no longer served the offer falls (R98). -/
def crvHandover (src k : Nat) (s : State) : State :=
  match offerAt s src k with
  | none => s
  | some c =>
    let gone := setOffers src (dropAt (offersOf s src) k) s
    if !accepting s .crv || !ptReady s || !cfgRadio (ptHalf s c.point) || !inControl s || (src == 2 && !nuSends s) then s
    else if !c.members.isEmpty then
      let ms := c.members.filter (ptServed s)
      if ms.isEmpty then gone else groupTake { c with members := ms } gone
    else if src < 2 ∧ ptServed s c.point = false then gone
    else if c.op = 4 then
      radioKick c.point (putRpos c.point { rposOf gone c.point with revokes := (rposOf gone c.point).revokes ++ [{ c with src := src, uid := s.dim.nextId }] }
        { gone with dim := { gone.dim with nextId := s.dim.nextId + 1 } })
    else
      let c1 := { c with src := src, since := tbNs s.tb.t0 / 1000, uid := s.dim.nextId, jrn := jrnWaits s }
      match enqueue c1 (rposOf s c.point).queue with
      | none => raiseIrq .crv 5 s
      | some q =>
        let s1 := putRpos c.point { rposOf s c.point with queue := q } (setOffers src (dropAt (offersOf s src) k) { s with dim := { s.dim with nextId := s.dim.nextId + 1 } })
        radioKick c.point (jrnTell (jrnHanded 0 c1) (if src = 0 then dimHanded c1 s1 else s1))

/-- Queues a REVOKE of a SEQ at a radio point (R196, R377), in the group form where the command arrived by group (R367). -/
def radioRevoke (nupd : Bool) (i cause seq : Nat) (urgent : Bool) (group : Option Nat) (s : State) : State :=
  let c : Cmd := { point := i, op := 4, arg := seq, urgent := urgent, group := group, src := if nupd then 2 else 0, cause := cause, since := tbNs s.tb.t0 / 1000, uid := s.dim.nextId }
  let s1 := putRpos i { rposOf s i with revokes := (rposOf s i).revokes ++ [c] } { s with dim := { s.dim with nextId := s.dim.nextId + 1 } }
  radioKick i (if nupd then s1 else bumpRegF .dim 0x050 15 0 s1)

/-- CRV takes a revocation of a radio point's command (R196, R377): an unsent one is removed; a group command that is not on the air
yet falls as a whole, and DIM evaluates its members again (R230). -/
def crvRevoke (nupd : Bool) (k : Nat) (s : State) : State :=
  match (revsOf s nupd)[k]? with
  | none => s
  | some (i, cause) =>
    if !accepting s .crv || !ptReady s || !cfgRadio (ptHalf s i) || (nupd && !nuSends s) then s
    else
      let s1 := dropRev nupd k s
      let x := rposOf s1 i
      match s1.crv.groups.find? fun g => !nupd && !g.sent && g.left.contains i && (cmdCause g.cmd i).1 == cause with
      | some g => forEach (fun j t => dimDropped (cmdCause g.cmd j).1 g.cmd.act j t) g.left (onCrv (fun r => { r with groups := r.groups.filter fun h => h.cmd.uid != g.cmd.uid }) s1)
      | none => match x.queue.find? (revoked nupd i cause) with
      | some c => match c.seq with
        | none =>
          let s2 := jrnTell (.revoked i 0 c.uid) (putRpos i { x with queue := x.queue.filter fun o => o.uid != c.uid } s1)
          if nupd then nuUnact i 0 false s2 else dimDropped c.cause c.act i s2
        | some q => radioRevoke nupd i cause q c.urgent none s1
      | none =>
        if nupd then match nuActSeq s1 i 0 with
          | some q => radioRevoke nupd i cause q false none s1
          | none => nuUnact i 0 false s1
        else match (dimPt s1 i).pend.filter fun d => d.cause == cause with
          | some d => match d.seq with
            | some q => radioRevoke nupd i cause q d.urgent d.group s1
            | none => s1
          | none => s1

/-- `CRV_HANDOVER`: an offer of an engine (0 DIM, 1 DIAG, 2 NUPD), or a revocation of DIM or NUPD. -/
def execCrvHandover (src : Fin 3) (k : Nat) (rev : Bool) (s : State) : Out :=
  done s (if rev then crvRevoke (src == 2) k s else crvHandover src.val k s)

/-- An attempt of a point ends unacknowledged (R379). -/
def ackTmo (i : Nat) (s : State) : State :=
  if !crvRuns s then s
  else
    let groups := s.crv.groups.filter fun g => g.sent && g.left.contains i
    let s2 := forEach (fun g t => groupMiss i g.cmd.uid t) groups s
    let open' := (allCmds (rposOf s i)).filter (·.sent)
    radioAsk i (match open'.find? (·.retry) with
      | some c => radioAttempt i c.uid s2
      | none => forEach (fun c t => radioAttempt i c.uid t) open' s2)

/-- `ACK_TMO`. -/
def execAckTmo (i : Fin 12288) (s : State) : Out := done s (ackTmo i.val s)

/-- A NACK of a node (R402, R398): its missing chunks and the chunks it holds. -/
def crvNack (n camp miss held : Nat) (s : State) : State :=
  let s1 := crvContact n s
  match (shortPoint s1 n).bind fun i => nuTarget s1 i with
  | none => s1
  | some t =>
    if !nuRuns s1 || !nuOpen t || camp != nuCamp s1 then s1
    else
      nuPut (nuJudged s1 (nuOn 0 (fun x => { x with nstate := some 1, held := held % 4096, missing := nuMissing miss }) t)) s1

/-- `NACK`. -/
def execNack (f : RadioRx) (origin : Option (Fin 4096)) (camp miss held : Nat) (s : State) : Out :=
  done s (crvRx f (crvNack (rxOrigin f origin) camp miss held) s)

/-! ### Registers -/

/-- The eight words of a session (R387). -/
def sesWords (s : State) (n : Nat) : List Word := sesShown s n (sesOf s n)

/-- A write of `SES_IDX` takes a snapshot (R387). -/
def sesIdx (ini : Ini) (v : Word) (s : State) : State :=
  let ws := sesWords s (fld v 11 0)
  used (setRegI .crv 0x084 ini.id 2 (forEach (fun k t => setRegI .crv (0x0C0 + 4 * k) ini.id (wordAt ws k) t) (List.range 8) s))

/-- `SES_IDX`. -/
def execSesIdx (ini : Ini) (v : Word) (s : State) : Out := done s (admitWrite ini .crv 0x080 v (sesIdx ini v) s)

/-- A key slot serves the derivation that CRV needs (R385, R506). -/
def slotDerives (s : State) (n : Nat) (bind : Bool) : Bool :=
  let k := spGet (fun _ => ({} : KeySlot)) s.keys n
  !k.bad && fld k.attr 31 28 == 1 && bit k.attr 4 && bit k.attr 5 == bind

/-- Why MODE may not leave OFF, or become ACTIVE: the page that records it, and the code (R356, R385, R391, R393). -/
def modeRefusal (s : State) (m : Nat) : Option (Page × Nat) :=
  if m = 0 || m == crvMode s then none
  else if crvRadio s == 1 && !Config.variantS2 then some (.crv, 0x103)
  else if crvPan s = 0xFFFF then some (.crv, 0x100)
  else if crvMode s == 0 && (enabledChannels s).isEmpty then some (rfPage s, 0x102)
  else if m == 1 && !(slotDerives s (regF s .crv 0x04C 29 24) false && slotDerives s (regF s .crv 0x04C 21 16) true) then some (.crv, 0x102)
  else none

/-- A change of MODE (R385, R388): EPOCH is drawn and the generation moves on where CRV enters ACTIVE from OFF (DEDUCED,
log 22); every change to ACTIVE raises FC_TX by 2^20.  ERG sees whether its radio path is usable (R442). -/
def crvModeSet (m : Nat) (s : State) : State := radioSee (go (crvMode s))
where
  /-- The change from a MODE. -/
  go (was : Nat) : State :=
    let s1 := setRegF .crv 0x040 1 0 m s
    if m = 1 ∧ was ≠ 1 then
      let s2 := putFcTx (fcTx s1 + 2 ^ 20) (onCrv (fun c => { c with beaconFc := none }) s1)
      if was = 0 then used (caravanTell (onCrv (fun c => { c with epoch := freeN s % 2 ^ 64 }) (setRegF .crv 0x04C 7 0 (nextGen (crvNgen s2)) s2))) else s2
    else if m = 0 then setRegB .crv 0x044 0 false (onCrv (fun c => { c with tx := none, answers := [], soon := [] }) s1)
    else if m = was then s1
    else setRegB .crv 0x044 0 false s1

/-- The twin link controller sets MODE, under the same conditions as firmware (R385, R472). -/
def crvModeTwin (m : Nat) (s : State) : State :=
  match modeRefusal s m with
  | some (p, c) => recErr p c s
  | none => crvModeSet m s

/-- A write of `CRV_CTRL` (R356, R363, R391, R632): the other fields first, then MODE; a refused change leaves the register
unchanged.  MODE 3 keeps MODE (DESIGN CHOICE, log 16). -/
def crvCtrlWrite (ini : Ini) (v : Word) (s : State) : State :=
  let m := if fld v 1 0 = 3 then crvMode s else fld v 1 0
  let radio := fld v 8 8
  let w := setFld v 15 12 (clampNat 1 8 (fld v 15 12))
  let changed := !locked s .crv 0 && ((w ^^^ reg s .crv 0x040) &&& 0xFFFFF100) != 0
  let deep := radio == 0 && regF s (.rf 0) 0x040 5 4 == 0 && decide (2 < fld w 15 12) && (fld w 15 12 != crvDepth s || crvRadio s != 0)
  if radio = 1 ∧ Config.variantS2 = false then recErr .crv 0x103 s
  else if deep then recErr .crv 0x104 s
  else if crvMode s != 0 && m != 0 && changed then recErr .crv 0x101 s
  else
    let s1 := plainWrite ini .crv 0x040 (setFld v 1 0 (crvMode s)) s
    match modeRefusal s1 m with
    | some (p, c) => recErr p c s
    | none => crvModeSet m s1

/-- A write of `CRV_CTRL` that changes MODE alone. -/
def crvModeWrite (ini : Ini) (m : Nat) (s : State) : State :=
  admitWrite ini .crv 0x040 (setFld (reg s .crv 0x040) 1 0 m) (crvCtrlWrite ini (setFld (reg s .crv 0x040) 1 0 m)) s

/-- `CRV_MODE_OFF`. -/
def execCrvModeOff (ini : Ini) (s : State) : Out := done s (crvModeWrite ini 0 s)
/-- `CRV_MODE_SHADOW`. -/
def execCrvModeShadow (ini : Ini) (s : State) : Out := done s (crvModeWrite ini 2 s)
/-- `CRV_MODE_ACTIVE`. -/
def execCrvModeActive (ini : Ini) (s : State) : Out := done s (crvModeWrite ini 1 s)

/-- A write of `WORK_BASE` (R390, R392). -/
def crvWorkWrite (ini : Ini) (v : Word) (s : State) : State :=
  if enabled s .crv || v.toNat % 0x100000 != 0 || !inDram v.toNat 0x100000 then recErr .crv 0x106 s else plainWrite ini .crv 0x048 v s

/-- A radio's plan can change: CRV's MODE is OFF, or the radio is not the one selected (R393). -/
def rfFree (s : State) (r : Fin 2) : Bool := crvMode s == 0 || crvRadio s != r.val

/-- A write of `RF_CTRL` (R358, R363, R393): at 50 kbit/s MAX_DEPTH is held at 2. -/
def rfCtrlWrite (ini : Ini) (r : Fin 2) (v : Word) (s : State) : State :=
  let band := fld v 10 8
  if !rfFree s r then recErr (.rf r) 0x101 s
  else if r = 0 ∧ (3 < band ∨ fld v 5 4 = 3) then s
  else if r = 0 ∧ band ≠ 0 ∧ (optByte s 11).testBit (band - 1) = false then recErr (.rf r) 0x100 s
  else
    let s1 := plainWrite ini (.rf r) 0x040 v s
    if r = 0 ∧ regF s1 (.rf 0) 0x040 5 4 = 0 ∧ crvRadio s1 = 0 ∧ 2 < crvDepth s1 then setRegF .crv 0x040 15 12 2 s1 else s1

/-- A write of a channel mask (R393). -/
def chMaskWrite (ini : Ini) (r : Fin 2) (off : Nat) (v : Word) (s : State) : State :=
  if rfFree s r then plainWrite ini (.rf r) off v s else recErr (.rf r) 0x101 s

/-- The registers of CRV whose reads are computed. -/
def crvView (s : State) (off : Nat) : Option Word :=
  if off = 0x044 then
    some (word (min 4095 (crvNodes s).length * 2 ^ 20 + min 4095 (crvRouters s).length * 2 ^ 8 + 8 * b01 (s.crv.roll != 0)
      + 4 * b01 (regB s (rfPage s) 0x044 1) + 2 * b01 (crvBacklog s) + b01 (regB s .crv 0x044 0)))
  else if off = 0x05C then some (word (fcTx s))
  else none

/-- The registers of a radio whose reads are computed (R393): F and the threshold to the nearest dB. -/
def rfView (s : State) (r : Fin 2) (off : Nat) : Option Word :=
  if off = 0x044 then
    let w := reg s (.rf r) 0x044 &&& 2
    let x := rfOf s r.val
    let now := tbNs s.tb.t0 / 1000
    let low := b01 (crvMode s != 0 && crvRadio s == r.val && working s (.rf r) && !x.unlocked && !x.off)
      + 4 * b01 (decide (x.pa.1 ≤ now) && decide (now < x.pa.2))
    let thr := if x.floor.isSome || regB s (.rf r) 0x04C 31 then unsigned 8 (ratRound s (ccaThreshold s r.val)) else 0
    some (w ||| word (low + thr * 2 ^ 16 + (match x.floor with | none => 0 | some f => unsigned 8 (ratRound s f) * 2 ^ 24)))
  else if off = 0x054 then some (word (dutyUsed s r.val / 1000))
  else none

/-- A request of DIAG or NUPD that a block reset of CRV ended: BLOCK_RESET at the requester, which asks once more (R16, R42). -/
def askAgain (x : Nat × Nat) (s : State) : State :=
  let s1 := recErr (if x.1 = 1 then .diag else .nupd) errBlockReset s
  if s.crv.again.contains x then onCrv (fun c => { c with again := c.again.filter (· != x) }) s1
  else
    let s2 := onCrv (fun c => { c with again := c.again ++ [x] }) s1
    match x.1 with
    | 1 => { s2 with diag := { s2.diag with asks := s2.diag.asks ++ [x.2] } }
    | 2 => { s2 with nupd := { s2.nupd with asks := s2.nupd.asks ++ [x.2] } }
    | _ => { s2 with nupd := { s2.nupd with queue := spPut (fun _ => []) 64 (x.2 :: spGet (fun _ => []) s2.nupd.queue 64) s2.nupd.queue } }

/-- A block reset of CRV (R389): queued commands, report requests, FRAGs and ERG segments complete with BLOCK_RESET and are made once
more (R42), held frames are dropped; sessions, keys and EPOCH are kept, but for a FULL reset. -/
def crvDatapath (full : Bool) (s : State) : State :=
  let cmds := s.crv.pos.flatMap (fun x => (x.2.queue ++ x.2.revokes).map fun c => (0, c)) ++ s.crv.groups.map fun g => (0, g.cmd)
  let asked := ((s.crv.tx.map (·.frame)).toList ++ (crvNodes s).flatMap fun n => (sesOf s n).held.map (·.frame)).filterMap frameAsk
  let segs := s.crv.erg ++ ((s.crv.tx.map (·.frame)).toList.filter fun f => f.kind == 2)
  let pos := s.crv.pos.foldl (fun m x => spPut (fun _ => ({} : LPos)) x.1 { x.2 with queue := [], revokes := [], setting := none } m) ([] : Sparse LPos)
  let s1 := onCrv (fun c => { c with
    pos := if full then [] else pos, groups := [], tx := none, answers := [], asks := [], ergRx := [], joins := [], soon := [], dbl := none
    erg := (segs.filter fun f => !f.again).map fun f => { f with again := true } }) s
  let s2 := forEach (fun n t => putSes n { sesOf t n with held := [], wait := [], listen := 0 } t) (crvNodes s) s1
  let s3 := if full then onCrv (fun c => { c with ses := [], epoch := 0, roll := 0 }) s2 else s2
  let s4 := if segs.isEmpty then s3 else recErr .erg errBlockReset s3
  forEach giveBack cmds (forEach askAgain asked s4)

end Sys2Proof.Machine
end

