-- ==== Sys2Proof/Machine/DmaCore.lean ====
section
/-! DEFINITION. The registers of the DMA engine and of CMDQ (R559-R574): what their writes and block resets do.  How
descriptors and entries run stands in Transfers. -/
namespace Sys2Proof.Machine

/-! ### DMA (R559-R569) -/

/-- A register of channel c. -/
def chOff (c off : Nat) : Nat := 0x100 + 0x20 * c + off

/-- `CH_STAT` bits: 0 BUSY, 1 DONE, 2 HALTED, 3 INVALID, 4 PAUSED (R569). -/
def chBit (s : State) (c n : Nat) : Bool := regB s .dma (chOff c 8) n

/-- Sets `CH_STAT`; BUSY shows in `DMA_STAT` too. -/
def setChStat (c v : Nat) (s : State) : State := setRegB .dma 0x040 c (v.testBit 0) (setReg .dma (chOff c 8) (word v) s)

/-- DMA_HALT (R564). -/
def dmaHalted (s : State) : Bool := regB s .dma 0x040 31

/-- A write of `CH_GO`: refused while halted or BUSY; else the channel starts at `CH_DESC` (R559, R565, R566). -/
def chGo (c : Nat) (v : Word) (s : State) : State :=
  if v != 1 then s
  else workRequest .dma (fun s =>
    if dmaHalted s then recErr .dma 0x101 s
    else if chBit s c 0 then recErr .dma 0x102 s
    else setChStat c 1 (setReg .dma (chOff c 0xC) (reg s .dma (chOff c 0)) s)) s

/-- CLEAR_HALT: DMA_HALT and every HALTED bit clear; the channels are idle (R565). -/
def dmaClearHalt (s : State) : State :=
  if dmaHalted s then
    forEach (fun c t => setChStat c (regN t .dma (chOff c 8) &&& 0xA) t) (List.range 16)
      (setRegB .dma 0x040 31 false { s with dmaNext := [] })
  else s

/-- A write of `DMA_CMD` (R565). -/
def dmaCmdWrite (v : Word) (s : State) : State := keyed .dma 0xD4 v (fun s => if bit v 0 then dmaClearHalt s else s) s

/-- A block reset abandons every chain (R568). -/
def dmaDatapath (s : State) : State :=
  forEach (fun c t => setChStat c 0 t) (List.range 16) (setRegB .dma 0x040 31 false { s with dmaNext := [] })

/-- Channels that run: BUSY, not held and not halted. -/
def chRuns (s : State) (c : Nat) : Bool := chBit s c 0 && !chBit s c 4 && !chBit s c 2

/-- Descriptors in progress are DMA's accepted work; chains held at a quiesce are not (R568). -/
def dmaBusy (s : State) : Bool := (List.range 16).any (chRuns s)

/-- NEXT of a held chain. -/
def heldNext (s : State) (c : Nat) : Nat := spGet (fun _ => 0) s.dmaNext c

/-- QUIESCE_REQ clears: held chains resume at NEXT (R568). -/
def dmaResume (s : State) : State :=
  forEach (fun c t =>
    if chBit t c 4 && !dmaHalted t then setChStat c 1 (setReg .dma (chOff c 0xC) (word (heldNext s c - 1)) t) else t)
    (List.range 16) { s with dmaNext := if dmaHalted s then s.dmaNext else [] }

/-! ### CMDQ (R570-R574) -/

/-- Changes CMDQ's own state. -/
def onCq (f : Cmdq → Cmdq) (s : State) : State := { s with cmdq := f s.cmdq }

/-- HALTED (R572). -/
def cqHalted (s : State) : Bool := regB s .cmdq 0x044 31

/-- Sets WAITING and HELD. -/
def cqFlags (waiting held : Bool) (s : State) : State := setRegB .cmdq 0x044 30 waiting (setRegB .cmdq 0x044 29 held s)

/-- An entry joins the chain; LEVEL rises when COUNT rises from LEVEL - 1 to LEVEL (R574). -/
def cqJoin (e : CqEntry) (s : State) : State :=
  let s1 := onCq (fun q => { q with entries := q.entries ++ [e] }) s
  if s.cmdq.entries.length + 1 = regF s .cmdq 0x040 5 0 then raiseIrq .cmdq 2 s1 else s1

/-- Entries have left: pushes that stall enter in their order, and complete (R573). -/
def cqAdmit : Nat → State → State
  | 0, s => s
  | n + 1, s =>
    match s.cmdq.stalled with
    | [] => s
    | e :: rest =>
      if s.cmdq.entries.length < 32 then cqAdmit n (answer .ok (cqJoin e (onCq (fun q => { q with stalled := rest }) s))) else s

/-- Pushes that stall complete with CMDQ_HALT and are not queued (R573). -/
def cqRefuseStalled (s : State) : State :=
  if s.cmdq.stalled.isEmpty then s else answer (.err .cmdqHalt) (onCq (fun q => { q with stalled := [] }) s)

/-- A push may be queued (R570): no reserved KIND, an address in a page of R24, and not in CMDQ's. -/
def cqGood (v : Word) : Bool :=
  fld v 1 0 != 3 && (match pageAt (v.toNat / 4 * 4) with | some p => p != .cmdq | none => false)

/-- A write of `CQ_ADDR` (R570, R573). -/
def cqPush (ini : Ini) (v : Word) (s : State) : State :=
  workRequest .cmdq (fun s =>
    let e : CqEntry := { addr := v.toNat / 4 * 4, kind := fld v 1 0, data := regI s .cmdq 0x048 ini.id, ini := ini }
    if !cqGood v then recErr .cmdq 0x100 s
    else if s.cmdq.entries.length < 32 then cqJoin e s
    else answer .stalled (onCq (fun q => { q with stalled := q.stalled ++ [e] }) s)) s

/-- FLUSH discards every entry, the halted head included (R572). -/
def cqFlush (s : State) : State :=
  let s1 := cqAdmit 32 (cqFlags false false (onCq (fun q => { q with entries := [] }) s))
  if !s.cmdq.entries.isEmpty && s1.cmdq.entries.isEmpty then raiseIrq .cmdq 0 s1 else s1

/-- RESUME clears HALTED; the head runs again as a fresh entry (R572). -/
def cqResume (s : State) : State :=
  if cqHalted s then
    setRegB .cmdq 0x044 31 false (cqFlags false false (onCq (fun q => match q.entries with
      | e :: rest => { q with entries := { e with tries := 0 } :: rest }
      | [] => q) s))
  else s

/-- A write of `CQ_CMD` (R572). -/
def cqCmdWrite (v : Word) (s : State) : State :=
  keyed .cmdq 0x43 v (fun s =>
    let s1 := if bit v 1 then cqFlush s else s
    if bit v 0 then cqResume s1 else s1) s

/-- CMDQ halts with the entry at the head (R572). -/
def cqHalt (code : Nat) (s : State) : State :=
  cqRefuseStalled (recErr .cmdq code (raiseIrq .cmdq 1 (setRegB .cmdq 0x044 31 true (cqFlags false false s))))

/-- The head is done (R574). -/
def cqDone (s : State) : State :=
  let s1 := cqFlags false false (onCq (fun q => { q with entries := q.entries.drop 1 }) (bumpReg .cmdq 0x060 s))
  let s2 := cqAdmit 32 s1
  if s2.cmdq.entries.isEmpty then raiseIrq .cmdq 0 s2 else s2

/-- A block reset discards every entry; pushes that stall end (R573). -/
def cmdqDatapath (s : State) : State :=
  setReg .cmdq 0x044 0 (onCq (fun q => { q with entries := [] }) (cqRefuseStalled s))

/-- CMDQ reaches QUIESCED when it is empty or halted (R573). -/
def cmdqBusy (s : State) : Bool := !s.cmdq.entries.isEmpty && !cqHalted s

/-- The registers of CMDQ whose reads are computed: COUNT and the head (R574). -/
def cmdqView (s : State) (off : Nat) : Option Word :=
  let head := s.cmdq.entries.head?
  match off with
  | 0x044 => some (setFld (reg s .cmdq 0x044) 5 0 s.cmdq.entries.length)
  | 0x050 => some (word (match head with | some e => e.addr + e.kind | none => 0))
  | 0x054 => some (match head with | some e => e.data | none => 0)
  | 0x058 => some (word (match head with | some e => e.ini.id.val | none => 0))
  | _ => none

end Sys2Proof.Machine
end

