-- ==== Sys2Proof/Machine/EthCore.lean ====
section
/-! DEFINITION. An Ethernet port's frames, queues and PAUSE: what ERG and the port's own commands share (R412-R427). -/
namespace Sys2Proof.Machine

/-- The page of a port. -/
abbrev ethPage (n : Nat) : Page := .eth (Fin.ofNat 2 n)

/-- A port. -/
def ethOf (s : State) (n : Nat) : Eth := spGet (fun _ => {}) s.eth n

/-- Sets a port. -/
def putEth (n : Nat) (e : Eth) (s : State) : State := { s with eth := spPut (fun _ => {}) n e s.eth }

/-- `PHY_STAT.LINK`. -/
def ethLink (s : State) (n : Nat) : Bool := regB s (ethPage n) 0x04C 31

/-- A 48-bit address in a pair of registers (R424): byte b at bits [8b + 7:8b]. -/
def macRegs (s : State) (p : Page) (lo : Nat) : List Byte := leBytes 4 (regN s p lo) ++ leBytes 2 (regF s p (lo + 4) 15 0)

/-- The station address of a port. -/
def macOf (s : State) (n : Nat) : List Byte := macRegs s (ethPage n) 0x050

/-- A frame as it goes on the wire (R414): padded to 60 bytes, with its FCS. -/
def ethWire (body : List Byte) : List Byte :=
  let b := body ++ List.replicate (60 - body.length) 0#8
  b ++ leBytes 4 (crc32 b)

/-- The 802.1Q tag of a TCI (R412). -/
def vlanTag (tci : Nat) : List Byte := beBytes 2 0x8100 ++ beBytes 2 tci

/-- The sum of the 16-bit words of a byte string. -/
def sum16 : List Byte → Nat
  | a :: b :: r => a.toNat * 256 + b.toNat + sum16 r
  | [a] => a.toNat * 256
  | [] => 0

/-- A sum folded to 16 bits in one's complement; four folds reach the end for any frame. -/
def fold16 (n : Nat) : Nat := times (fun x => x % 65536 + x / 65536) 4 n

/-- The UDP checksum over a pseudo header of addresses, protocol 17 and length, and a datagram whose own field is 0. -/
def udpSum (addrs datagram : List Byte) : Nat :=
  let c := 65535 - fold16 (sum16 addrs + 17 + datagram.length + sum16 datagram)
  if c = 0 then 65535 else c

/-- Replaces bytes from an offset; those beyond the end stay as they are. -/
def patch (at' : Nat) (new old : List Byte) : List Byte :=
  if old.length < at' + new.length then old else old.take at' ++ new ++ old.drop (at' + new.length)

/-- A slice of a byte string. -/
def slice (from' len : Nat) (b : List Byte) : List Byte := (b.drop from').take len

/-- A frame carries one 802.1Q tag: with a second tag, of either TPID, it counts as untagged (R412). -/
def oneTag (b : List Byte) : Bool :=
  beNat (slice 12 2 b) == 0x8100 && beNat (slice 16 2 b) != 0x8100 && beNat (slice 16 2 b) != 0x88A8

/-- Where a frame's payload begins, and its EtherType, after at most one tag (R412). -/
def etherType (b : List Byte) : Nat × Nat :=
  if oneTag b then (18, beNat (slice 16 2 b)) else (14, beNat (slice 12 2 b))

/-- The TCI of a tagged frame (R412). -/
def tciOf (b : List Byte) : Option Nat := if oneTag b then some (beNat (slice 14 2 b)) else none

/-! ### PAUSE -/

/-- Clock cycles of 4 ns in a quantum of 512 bit times (R426). -/
def quantumCycles (s : State) (n : Nat) : Nat :=
  match regF s (ethPage n) 0x04C 29 28 with
  | 0 => 12800
  | 1 => 1280
  | _ => 128

/-- Remaining quanta of a received pause (R426). -/
def pauseLeft (s : State) (n : Nat) : Nat :=
  match (ethOf s n).pause with
  | some (q, some c) => q - (s.tb.cycles - c) / quantumCycles s n
  | some (q, none) => q
  | none => 0

/-- Neither queue starts a frame: a pause whose time runs (R426). -/
def ethPaused (s : State) (n : Nat) : Bool := (ethOf s n).pause.isSome

/-- A PAUSE frame of the port (R426, R427). -/
def pauseFrame (s : State) (n q : Nat) : List Byte :=
  ethWire ([0x01, 0x80, 0xC2, 0x00, 0x00, 0x01] ++ macOf s n ++ beBytes 2 0x8808 ++ beBytes 2 1 ++ beBytes 2 q)

/-- A PAUSE waits only for the frame in transmission (R427), and for a link. -/
def sendPause (n q : Nat) (s : State) : State :=
  if (ethOf s n).air.isSome || !ethLink s n then putEth n { ethOf s n with pauseOut := (ethOf s n).pauseOut ++ [q] } s
  else bumpReg (ethPage n) 0x0DC (send (.eth n (pauseFrame s n q)) s)

/-- PAUSE frames that waited are sent. -/
def flushPause (n : Nat) (s : State) : State :=
  if (ethOf s n).air.isSome || !ethLink s n then s
  else forEach (sendPause n) (ethOf s n).pauseOut (putEth n { ethOf s n with pauseOut := [] } s)

/-- Descriptors given: between HEAD and TAIL (R416). -/
def ringGiven (s : State) (p : Page) (sizeOff tailOff headOff : Nat) : Nat :=
  let z := regN s p sizeOff
  (regN s p tailOff % z + z - regN s p headOff) % z

/-- Receive descriptors given. -/
def rxGiven (s : State) (n : Nat) : Nat := ringGiven s (ethPage n) 0x084 0x088 0x08C

/-- The condition for XOFF: FIFO above XOFF KiB, or fewer than DESC_WM descriptors given (R427). -/
def xoffDue (s : State) (n : Nat) : Bool :=
  decide (regF s (ethPage n) 0x064 31 24 * 1024 < (ethOf s n).rxFifo) || decide (rxGiven s n < regF s (ethPage n) 0x064 11 0)

/-- The condition for XON (R427). -/
def xonDue (s : State) (n : Nat) : Bool :=
  decide ((ethOf s n).rxFifo < regF s (ethPage n) 0x064 23 16 * 1024) && decide (regF s (ethPage n) 0x064 11 0 ≤ rxGiven s n)

/-- XOFF or XON follows the FIFO and the descriptors (R427); `again` repeats an XOFF whose condition lasts. -/
def pauseEval (again : Bool) (n : Nat) (s : State) : State :=
  if !working s (ethPage n) || !regB s (ethPage n) 0x060 1 then s
  else
    let sent := regB s (ethPage n) 0x044 1
    if xoffDue s n then
      if sent && !again then s else sendPause n (regF s (ethPage n) 0x060 31 16) (setRegB (ethPage n) 0x044 1 true s)
    else if sent && xonDue s n then sendPause n 0 (setRegB (ethPage n) 0x044 1 false s)
    else s

/-! ### The queue of ERG -/

/-- ERG puts a frame into a port's Erg queue (R422, R449). -/
def ergQueue (n : Nat) (body : List Byte) (s : State) : State :=
  putEth n { ethOf s n with erg := (ethOf s n).erg ++ [ethWire body] } s

/-! ### Registers -/

/-- The registers of a port whose reads are computed (R432). -/
def ethView (s : State) (n off : Nat) : Option Word :=
  if off = 0x044 then
    some (setBit (setBit (setBit (reg s (ethPage n) 0x044) 0 (ethLink s n)) 2 (ethPaused s n)) 3 (asleep s (ethPage n) && regB s (ethPage n) 0x300 31))
  else if off = 0x068 then some (word (pauseLeft s n))
  else none

/-- A ring base must lie, with its ring, in system SRAM or DRAM (R416, R432). -/
def ethBaseWrite (ini : Ini) (n off : Nat) (v : Word) (s : State) : State :=
  let p := ethPage n
  if v.toNat % 32 != 0 || !inRam v.toNat (32 * regN s p (off + 4)) then
    (if regB s p 0x040 (if off = 0x080 then 0 else 1) then recErr p 0x100 s else recErr p 0x101 s)
  else plainWrite ini p off v s

end Sys2Proof.Machine
end

