-- ==== Sys2Proof/Machine/Mir.lean ====
section
/-! DEFINITION. Mirage: strips, tracks, corridor requests, handover (R247-R282). -/
namespace Sys2Proof.Machine

/-! ### Strips -/

/-- DIRS. -/
def stripDirs (s : State) (k : Nat) : Nat := fld (stripW s k 0) 29 28
/-- LEVEL, as the word of a request. -/
def stripLevel (s : State) (k : Nat) : Word := word (fld (stripW s k 0) 15 0)
/-- TAIL_T in ms. -/
def stripTail (s : State) (k : Nat) : Nat := 1000 * fld (stripW s k 1) 31 24
/-- ASSOC_D in dm. -/
def stripAssoc (s : State) (k : Nat) : Nat := 10 * fld (stripW s k 2) 7 0
/-- CONF_TMO. -/
def stripConf (s : State) (k : Nat) : Nat := fld (stripW s k 4) 31 16
/-- FLOOD_T in ms. -/
def stripFloodT (s : State) (k : Nat) : Nat := 1000 * fld (stripW s k 4) 15 8
/-- The link word of an end: W5 UP, W6 DOWN. -/
def stripLink (s : State) (k : Nat) (up : Bool) : Word := stripW s k (if up then 5 else 6)
/-- UP_GAP or DOWN_GAP. -/
def stripGap (s : State) (k : Nat) (up : Bool) : Nat := if up then fld (stripW s k 7) 31 16 else fld (stripW s k 7) 15 0
/-- The module's fabric address (R436). -/
def fabAddr (s : State) : Nat := regF s .erg 0x048 11 0

/-- A link word is admitted (R250). -/
def linkOk (s : State) (w : Word) : Bool :=
  !bit w 31 || ((fld w 21 20 == 1 || fld w 21 20 == 2) && fld w 11 0 != 0 && fld w 11 0 != fabAddr s)

/-- A strip may be put in service with a W0 (R250). -/
def stripGood (s : State) (k : Nat) (w0 : Word) : Bool :=
  stripEnd s k != 0 && fld w0 29 28 != 0 && stripVmin s k != 0 && decide (stripVmin s k ≤ stripVdef s k)
    && decide (stripVdef s k ≤ stripVmax s k) && decide (100 ≤ stripConf s k)
    && linkOk s (stripLink s k true) && linkOk s (stripLink s k false)

/-- `WORK_BASE` of MIR (R282). -/
def mirWork (s : State) : Nat := regN s .mir 0x048

/-- A strip's map: its members as (POS_DM, point) by slot (R248). -/
def mapOfStrip (s : State) (k : Nat) : List (Nat × Nat) := spGet (fun _ => []) s.mir.maps k

/-- The slot of a point in a strip's map. -/
def slotOf (s : State) (k i : Nat) : Option Nat := (mapOfStrip s k).findIdx? fun x => x.2 == i

/-! ### Tracks -/

/-- A track context. -/
def trackOf (s : State) (c : Nat) : MirTrack := spGet (fun _ => {}) s.mir.tracks c

/-- Sets a track context. -/
def putTrack (c : Nat) (t : MirTrack) (s : State) : State := { s with mir := { s.mir with tracks := spPut (fun _ => {}) c t s.mir.tracks } }

/-- A live track: TENTATIVE or CONFIRMED (R257). -/
def trackLive (t : MirTrack) : Bool := t.st == 1 || t.st == 2

/-- The contexts of the live tracks, in order. -/
def liveTracks (s : State) : List Nat := (s.mir.tracks.filter fun x => trackLive x.2).map (·.1)

/-- The lowest free context. -/
def freeContext (s : State) : Option Nat := (List.range 256).find? fun c => (trackOf s c).st == 0

/-- The directions in which a track is predicted: an unknown one both ways (R261). -/
def trackDirs (t : MirTrack) : List Nat := if t.dir = 3 then [1, 2] else [t.dir]

/-- The distance from the anchor to a position in a direction of travel. -/
def ahead (t : MirTrack) (x : Int) (d : Nat) : Int := if d = 1 then x - (t.x : Nat) else (t.x : Nat) - x

/-- P(x), rounded down or up, as an offset from the anchor stamp (R261). -/
def passOffset (t : MirTrack) (x : Int) (d : Nat) (up : Bool) : Int :=
  let v : Int := (max 1 t.v : Nat)
  let n := 1000 * ahead t x d
  if up then -((-n) / v) else n / v

/-- P(x) as `ACT_MS`. -/
def passAt (t : MirTrack) (x : Int) (d : Nat) (up : Bool) : Nat := unsigned 32 ((t.t : Nat) + passOffset t x d up)

/-- The predicted way from the anchor at an instant, in thousandths of a dm. -/
def travelled (t : MirTrack) (now : Nat) : Int := (t.v : Nat) * actDiff now t.t

/-- The lead distance (R265). -/
def leadOf (s : State) (t : MirTrack) : Nat :=
  let w := stripW s t.strip 2
  max (fld w 31 16) (fld w 15 8 * t.v / 10)

/-- The earlier of two action times. -/
def earlier (a b : Nat) : Nat := if actDiff a b ≤ 0 then a else b
/-- The later of two action times. -/
def later (a b : Nat) : Nat := if actDiff a b ≤ 0 then b else a

/-! ### Windows -/

/-- The key of a strip's point. -/
def winKey (k i : Nat) : Nat := k * 16384 + i

/-- The window of a strip's point. -/
def winOf (s : State) (k i : Nat) : Option MirWin := spGet (fun _ => none) s.mir.wins (winKey k i)

/-- The bytes of a window in the work area (R282). -/
def winBytes : Option MirWin → List Byte
  | none => leBytes 16 0
  | some w => leBytes 4 w.on ++ leBytes 4 w.off ++ leBytes 4 (b01 w.posted.isSome * 2 ^ 31 + w.cov.length) ++ leBytes 4 0

/-- Sets the window of a strip's point, in its slot of the work area too (R266, R282). -/
def putWin (k i : Nat) (w : Option MirWin) (s : State) : State :=
  let s1 := { s with mir := { s.mir with wins := spPut (fun _ => none) (winKey k i) w s.mir.wins } }
  match slotOf s1 k i with
  | none => s1
  | some j => memWrite (mirWork s1 + 0x20000 + 4096 * k + 16 * j) (winBytes w) s1

/-- What still covers a window (R266). -/
def liveCov (now : Nat) (w : MirWin) : List (Nat × Nat × Nat) := w.cov.filter fun x => !isDue x.2.2 now

/-- A window merged with a coverage: while coverage lives, A_on only moves earlier and A_off only later (R266). -/
def winMerge (now c on off : Nat) (w : Option MirWin) : MirWin :=
  match w with
  | none => { on := on, off := off, cov := [(c, on, off)] }
  | some w =>
    let live := liveCov now w
    if live.isEmpty then { on := on, off := off, cov := [(c, on, off)] }
    else
      let mine := match live.find? fun x => x.1 == c with
        | some x => (c, earlier x.2.1 on, later x.2.2 off)
        | none => (c, on, off)
      { w with on := earlier w.on on, off := later w.off off, cov := (live.filter fun x => x.1 != c) ++ [mine] }

/-- MIR posts again: never posted, A_on earlier by 100 ms, or A_off later by 1,000 ms (R266). -/
def winDue (w : MirWin) : Bool :=
  match w.posted with
  | none => true
  | some (on, off) => decide (100 ≤ actDiff on w.on) || decide (1000 ≤ actDiff w.off off)

/-- Posts a window as it stands; in SHADOW nothing leaves (R266, R277). -/
def winPost (k i : Nat) (s : State) : State :=
  match winOf s k i with
  | none => s
  | some w =>
    let s1 := putWin k i (some { w with posted := some (w.on, w.off) }) s
    if mirMode s = 1 then dimMirPost i (stripLevel s k) (word w.on) (word w.off) s1 else s1

/-- Revokes CORRIDOR at a point (R268). -/
def mirRevoke (i : Nat) (s : State) : State :=
  if mirMode s = 1 then dimInternal { src := 2, op := 3, tgt := word i, lvl := word (4 * 2 ^ 24), act := 0, aux := 0 } s else s

/-- The latest release posted of a track. -/
def noteRel (c off : Nat) (s : State) : State :=
  let t := trackOf s c
  putTrack c { t with lastRel := some (match t.lastRel with | none => off | some a => later a off) } s

/-- Inserts by a key, before those with a greater one. -/
def insKey {α : Type} (x : Int × α) : List (Int × α) → List (Int × α)
  | [] => [x]
  | y :: l => if x.1 < y.1 then x :: y :: l else y :: insKey x l

/-- Sorts by a key, keeping the order of equal ones. -/
def sortKey {α : Type} (l : List (Int × α)) : List (Int × α) := l.foldl (fun acc x => insKey x acc) []

/-- The windows of points to be posted: first those due at once in order of travel, then the others by A_on (R267). -/
def postOrder (s : State) (k dir : Nat) (pts : List (Nat × Nat)) : List Nat :=
  let now := nowMs s
  let on := fun i => match winOf s k i with | some w => actDiff w.on now | none => 0
  let a := sortKey ((pts.filter fun p => decide (on p.2 ≤ 0)).map fun p => (if dir = 2 then -(p.1 : Int) else (p.1 : Int), p.2))
  let b := sortKey ((pts.filter fun p => decide (0 < on p.2)).map fun p => (on p.2, p.2))
  (a ++ b).map (·.2)

/-- The switch-on and release of a track at a position ahead of its anchor, that at birth too, within the horizon (R265). -/
def coverAt (s : State) (t : MirTrack) (x : Nat) : Option (Nat × Nat) :=
  let now := nowMs s
  let lead : Int := (leadOf s t : Nat)
  ((trackDirs t).filterMap fun d =>
    if ahead t x d < 0 || ahead { t with x := t.x0 } x d < 0 then none
    else
      let on := passAt t (if d = 1 then (x : Int) - lead else (x : Int) + lead) d false
      if (regF s .mir 0x040 31 16 : Nat) < actDiff on now then none
      else some (later on now, (passAt t x d true + stripTail s t.strip) % 2 ^ 32)).foldl
    (fun b y => match b with | none => some y | some z => some (earlier z.1 y.1, later z.2 y.2)) none

/-- A track covers one more slot. -/
def noteSlot (c j : Nat) (s : State) : State :=
  let t := trackOf s c
  putTrack c { t with cover := some (match t.cover with | none => (j, j) | some (a, b) => (min a j, max b j)) } s

/-- A track has covered a slot. -/
def noted (t : MirTrack) (j : Option Nat) : Bool :=
  match t.cover, j with
  | some (a, b), some j => decide (a ≤ j) && decide (j ≤ b)
  | _, _ => false

/-- A coverage of a point by a track joins its window (R266); one that has ended does so once, with the first post (R265). -/
def coverPoint (c : Nat) (p : Nat × Nat) (s : State) : State :=
  let t := trackOf s c
  match coverAt s t p.1 with
  | none => s
  | some (on, off) =>
    if isDue off (nowMs s) && noted t (slotOf s t.strip p.2) then s
    else
      let s1 := putWin t.strip p.2 (some (winMerge (nowMs s) c on off (winOf s t.strip p.2))) s
      match slotOf s t.strip p.2 with
      | some j => noteSlot c j s1
      | none => s1

/-- A live track is advanced: its points within the horizon are covered and posted (R262, R265-R267). -/
def trackAdvance (c : Nat) (s : State) : State :=
  let t := trackOf s c
  if !trackLive t then s
  else
    let k := t.strip
    let s1 := forEach (coverPoint c) (mapOfStrip s k) s
    let due := (mapOfStrip s1 k).filter fun p =>
      match winOf s1 k p.2 with
      | some w => winDue w && w.cov.any fun x => x.1 == c
      | none => false
    forEach (fun i u => noteRel c (match winOf u k i with | some w => w.off | none => 0) (winPost k i u)) (postOrder s1 k t.dir due) s1

/-- Removes a context's coverage of every window; `cancel` withdraws it from the lamps of the strip's map: the point is revoked,
and what remains is posted (R263, R268).  A point that has left the strip keeps its request (R248). -/
def uncoverPoint (c k : Nat) (cancel : Bool) (i : Nat) (s : State) : State :=
  match winOf s k i with
  | none => s
  | some w =>
    if !w.cov.any (fun x => x.1 == c) then s
    else
      let revoke := cancel && (slotOf s k i).isSome
      let gone := w.cov.any fun x => x.1 == c && !isDue x.2.2 (nowMs s)
      let rest := (liveCov (nowMs s) w).filter fun x => x.1 != c
      let s1 := if revoke && gone then mirRevoke i s else s
      match rest with
      | [] => putWin k i none s1
      | x :: l =>
        if revoke && gone then
          winPost k i (putWin k i (some { on := l.foldl (fun a y => earlier a y.2.1) x.2.1, off := l.foldl (fun a y => later a y.2.2) x.2.2, cov := x :: l }) s1)
        else putWin k i (some { w with cov := x :: l }) s1

/-- The points with a window on a strip, in slot order where they still have one. -/
def winPoints (s : State) (k : Nat) : List Nat :=
  let have' := (s.mir.wins.filter fun x => x.1 / 16384 == k).map fun x => x.1 % 16384
  let inMap := ((mapOfStrip s k).map (·.2)).filter have'.contains
  inMap ++ have'.filter fun i => !inMap.contains i

/-- The context returns to FREE; its generation stays. -/
def trackFree (c : Nat) (s : State) : State :=
  let t := trackOf s c
  putTrack c { gen := t.gen } (forEach (uncoverPoint c t.strip false) (winPoints s t.strip) s)

/-- A message is offered to ERG; a MIR in SHADOW sends nothing (R271, R277). -/
def mirSend (m : MirMsg) (s : State) : State :=
  if mirMode s = 1 then
    bumpRegF .mir 0x054 (if m.cancel then 15 else 31) (if m.cancel then 0 else 16) { s with mir := { s.mir with out := s.mir.out ++ [m] } }
  else s

/-- A cancelled identity is kept for 60 s (R273). -/
def keepCancelled (id : Nat) (s : State) : State :=
  { s with mir := { s.mir with cancelled := ((s.mir.cancelled.filter fun x => x.1 != id) ++ [(id, nowMs s)]).reverse.take 4096 |>.reverse } }

/-- Cancels a live track for a reason: 1 UNCONFIRMED, 2 HOST, 3 SENDER (R268, R271). -/
def trackCancel (c reason : Nat) (s : State) : State :=
  let t := trackOf s c
  let s1 := forEach (uncoverPoint c t.strip true) (winPoints s t.strip) s
  let s2 := forEach (fun n u => mirSend { cancel := true, dst := n, words := [t.id, reason] } u) t.rcv.reverse s1
  let s3 := if t.from'.isSome then keepCancelled t.id s2 else s2
  trackFree c (bumpRegF .mir 0x050 31 16 s3)

/-- A track ends by the normal death: it posts and revokes nothing more (R263). -/
def trackExit (c : Nat) (s : State) : State :=
  let t := trackOf s c
  if trackLive t then putTrack c { t with st := 3 } s else s

/-- Every live track ends by the normal death (R263, R275, R277). -/
def tracksEnd (s : State) : State := forEach trackExit (liveTracks s) s

/-! ### Handing over -/

/-- The payload of TRACK_HANDOVER (R271). -/
def handoverWords (s : State) (t : MirTrack) (at' : Nat) : List Nat :=
  let up := t.dir == 1
  let w := stripLink s t.strip up
  let x : Int := if up then (stripEnd s t.strip + stripGap s t.strip true : Nat) else -(stripGap s t.strip false : Nat)
  [t.id, t.rev * 2 ^ 24 + t.st * 2 ^ 20 + fld w 21 20 * 2 ^ 18 + fld w 29 24 * 2 ^ 8, passAt t x t.dir false, t.v, at', 0]

/-- Handovers leave: ACTIVE, with HO_EN (R270, R277). -/
def mirSends (s : State) : Bool := mirMode s == 1 && regB s .mir 0x040 8

/-- Sends a track, at a revision, to the neighbour of its end (R270, R271). -/
def handoverSend (c rev at' : Nat) (s : State) : State :=
  let t := { trackOf s c with rev := rev }
  let n := fld (stripLink s t.strip (t.dir == 1)) 11 0
  if mirSends s then
    putTrack c { t with rcv := n :: t.rcv.filter (· != n), sentConf := t.st == 2, sentV := t.v }
      (mirSend { cancel := false, dst := n, words := handoverWords s t at' } s)
  else s

/-- The predicted position lies within the lead distance of a linked end (R270). -/
def nearEnd (s : State) (t : MirTrack) : Bool :=
  let lead : Int := 1000 * (leadOf s t : Nat)
  let way := travelled t (nowMs s)
  if t.dir = 1 then bit (stripLink s t.strip true) 31 && decide (1000 * (stripEnd s t.strip : Int) ≤ 1000 * (t.x : Int) + way + lead)
  else if t.dir = 2 then bit (stripLink s t.strip false) 31 && decide (1000 * (t.x : Int) - way - lead ≤ 0)
  else false

/-- The speed has changed by 10 % or more since the last message (R271). -/
def speedMoved (t : MirTrack) : Bool := decide (t.sentV ≤ 10 * (if t.v ≤ t.sentV then t.sentV - t.v else t.v - t.sentV)) && t.v != t.sentV

/-- The handover decision, and a further message with REV + 1 when the track is confirmed or its speed changes; REV counts the
messages sent (R270, R271). -/
def handoverCheck (c : Nat) (s : State) : State :=
  let t := trackOf s c
  if !trackLive t then s
  else match t.decided with
    | none => if nearEnd s t then handoverSend c t.rev (nowMs s) (putTrack c { t with decided := some (nowMs s) } s) else s
    | some d =>
      if !t.rcv.isEmpty && ((t.st == 2 && !t.sentConf) || speedMoved t) then handoverSend c ((t.rev + 1) % 256) d s else s

/-- The predicted position has passed the strip's end in the direction of travel, or 600 s of life have passed (R263). -/
def pastEnd (s : State) (t : MirTrack) : Bool :=
  let way := travelled t (nowMs s)
  let out := fun d => if d = 1 then decide (1000 * (stripEnd s t.strip : Int) < 1000 * (t.x : Int) + way) else decide (1000 * (t.x : Int) - way < 0)
  (trackDirs t).all out || decide (600000 ≤ actDiff (nowMs s) t.birth)

/-- What a tick or an event does for a live track (R262, R263, R270). -/
def trackRun (c : Nat) (s : State) : State :=
  let s1 := handoverCheck c (trackAdvance c s)
  if trackLive (trackOf s1 c) && pastEnd s1 (trackOf s1 c) then trackExit c s1 else s1

/-! ### Events -/

/-- The flood of a strip is live. -/
def floodLive (s : State) (k : Nat) : Bool :=
  match spGet (fun _ => none) s.mir.floods k with
  | some r => !isDue r (nowMs s)
  | none => false

/-- No context is free: the strip is flooded, or its flood extended, in the order of travel (R264, R267). -/
def mirFlood (k dir : Nat) (s : State) : State :=
  let now := nowMs s
  let off := (now + stripFloodT s k) % 2 ^ 32
  let s1 := raiseIrq .mir 2 s
  let s2 := if floodLive s k then s1 else raiseIrq .mir 3 (bumpReg .mir 0x064 s1)
  let s3 := { s2 with mir := { s2.mir with floods := spPut (fun _ => none) k (some off) s2.mir.floods } }
  forEach (fun p t =>
    let w := winMerge now 256 now off (winOf t k p.2)
    let t1 := putWin k p.2 (some w) t
    if winDue w then winPost k p.2 t1 else t1) (if dir = 2 then (mapOfStrip s3 k).reverse else mapOfStrip s3 k) s3

/-- The distance of an event from a track's prediction at the event's stamp, in thousandths of a dm. -/
def eventDistance (t : MirTrack) (e : MirEv) : Int :=
  let way := travelled t e.ms
  let d := fun dir => (Int.natAbs (if dir = 1 then 1000 * (t.x : Int) + way - 1000 * (e.pos : Int) else 1000 * (t.x : Int) - way - 1000 * (e.pos : Int)) : Int)
  ((trackDirs t).map d).foldl min (d ((trackDirs t).headD 1))

/-- A track may take the event (R258, R260). -/
def eventFits (s : State) (t : MirTrack) (e : MirEv) : Bool :=
  trackLive t && t.strip == e.strip && (t.dir == e.dir || t.dir == 3 || e.dir == 3)
    && decide (eventDistance t e ≤ 1000 * (stripAssoc s e.strip : Nat))
    && !(t.tent && decide ((stripConf s t.strip : Int) < actDiff (nowMs s) t.birth))

/-- The nearest track that takes an event, the lower context among equals (R258). -/
def eventTrack (s : State) (e : MirEv) : Option Nat :=
  ((s.mir.tracks.filter fun x => eventFits s x.2 e).foldl
    (fun (b : Option (Nat × Int)) x =>
      match b with
      | none => some (x.1, eventDistance x.2 e)
      | some y => if eventDistance x.2 e < y.2 then some (x.1, eventDistance x.2 e) else b) none).map (·.1)

/-- The speed after an associated event (R258): a stamp before the anchor's gives a quotient below V_MIN; a way of 100 dm in no time
gives no quotient: a free speed of the limits. -/
def eventSpeed (s : State) (t : MirTrack) (e : MirEv) : Nat :=
  let k := t.strip
  let way := Int.natAbs ((e.pos : Int) - (t.x : Int))
  let ms := actDiff e.ms t.t
  if !e.assumed then e.speed
  else if 100 ≤ way then clampNat (stripVmin s k) (stripVmax s k) (if 0 < ms then 1000 * way / ms.toNat else if ms < 0 then 0 else freeN s)
  else t.v

/-- An event associates with a track (R258). -/
def eventTake (c : Nat) (e : MirEv) (s : State) : State :=
  let t := trackOf s c
  let d : Int := (e.pos : Int) - (t.x : Int)
  let dir := if t.dir = 3 && decide (100 ≤ Int.natAbs d) then (if 0 < d then 1 else 2) else t.dir
  used (putTrack c { t with
    st := 2, tent := false, dir := dir, v := eventSpeed s t e, x := e.pos, t := e.ms, events := satInc 255 t.events } s)

/-- A birth in a context: the generation steps, and the birth is counted (R257, R259, R278). -/
def trackBirth (c : Nat) (t : MirTrack) (s : State) : State :=
  let g := ((trackOf s c).gen + 1) % 4096
  bumpRegF .mir 0x050 15 0 (putTrack c { t with gen := g, x0 := t.x, id := fabAddr s * 2 ^ 20 + c * 2 ^ 12 + g } s)

/-- A track handed in takes a context, whose generation stays (R257, R272). -/
def trackReceipt (c : Nat) (t : MirTrack) (s : State) : State := putTrack c { t with gen := (trackOf s c).gen, x0 := t.x } s

/-- An event that associates with no track (R259, R264). -/
def eventBirth (e : MirEv) (s : State) : State :=
  if e.noBirth then mirDrop s
  else match freeContext s with
    | none => mirFlood e.strip e.dir s
    | some c =>
      trackRun c (trackBirth c { st := if e.birthConf then 2 else 1, tent := !e.birthConf, dir := e.dir, strip := e.strip
                                 x := e.pos, t := e.ms, v := e.speed, birth := nowMs s } s)

/-- One event of the queue (R258, R259). -/
def eventRun (e : MirEv) (s : State) : State :=
  if !stripEn s e.strip then s
  else match eventTrack s e with
    | some c => trackRun c (eventTake c e s)
    | none => eventBirth e s

/-- `LAT_MAX`: from an event's stamp to its last post, where it posted (R274, R278). -/
def mirLatency (e : MirEv) (before : Nat) (s : State) : State :=
  let us := actDiff (nowMs s) e.ms * 1000 + (s.tb.t0.ns / 1000 % 1000 : Nat) - (e.us : Nat)
  if s.dim.nextId = before || us ≤ (regN s .mir 0x05C : Nat) then s else setReg .mir 0x05C (word us.toNat) s

/-- MIR takes the first event whose strip is not being rebuilt (R248, R258). -/
def mirEvent (s : State) : State :=
  if !working s .mir || mirMode s = 0 then s
  else match s.mir.queue.find? fun e => !s.mir.rebuild.contains e.strip with
    | none => s
    | some e => mirLatency e s.dim.nextId (eventRun e { s with mir := { s.mir with queue := s.mir.queue.erase e } })

/-- `MIR_EVENT`. -/
def execMirEvent (s : State) : Out := done s (mirEvent s)

/-- The events that wait are processed, but for those of a strip whose map is being rebuilt. -/
def mirDrain (s : State) : State := forEach (fun _ t => mirEvent t) s.mir.queue s

/-- A tick: the events that have reached MIR are processed, then every live track is advanced (R262). -/
def mirTick (s : State) : State :=
  let s1 := mirDrain s
  forEach trackRun (liveTracks s1) s1

/-- `MIR_TICK`: at each `ACT_MS` that is a multiple of 10 (R262). -/
def execMirTick (s : State) : Out :=
  done s (if working s .mir && mirMode s != 0 && enabled s (.tb 0) && nowMs s % 10 == 0 then mirTick s else s)

/-- `CONF_TIMEOUT`: the events that wait are processed first; then a track that is TENTATIVE still is cancelled (R260). -/
def confTimeout (c : Nat) (s0 : State) : State :=
  let s := mirDrain s0
  let t := trackOf s c
  if working s .mir && t.st == 1 && t.tent && decide ((stripConf s t.strip : Int) ≤ actDiff (nowMs s) t.birth) then trackCancel c 1 s else s

/-- `CONF_TIMEOUT`. -/
def execConfTimeout (c : Fin 256) (s : State) : Out := done s (confTimeout c.val s)

/-- `TRACK_FREE`: an EXITED context whose releases and CONF_TMO have passed (R263). -/
def trackFreeDue (c : Nat) (s : State) : State :=
  let t := trackOf s c
  let rel := match t.lastRel with | none => true | some r => isDue r (nowMs s)
  let conf := !t.tent || decide ((stripConf s t.strip : Int) ≤ actDiff (nowMs s) t.birth)
  if t.st == 3 && rel && conf then trackFree c s else s

/-- `TRACK_FREE`. -/
def execTrackFree (c : Fin 256) (s : State) : Out := done s (trackFreeDue c.val s)

/-- A write of `TRK_KILL` (R268, R281). -/
def trkKill (v : Word) (s : State) : State :=
  if fld v 31 24 = 0xC4 && trackLive (trackOf s (fld v 7 0)) then trackCancel (fld v 7 0) 2 s else recErr .mir 0x103 s

/-- `TRK_KILL`. -/
def execTrkKill (ini : Ini) (v : Word) (s : State) : Out := done s (admitWrite ini .mir 0x088 v (trkKill v) s)

/-- A write of `INJ_CMD` (R256, R278, R281). -/
def injCmd (i : Fin 10) (v : Word) (s : State) : State :=
  let ws := defOf s (regI s .mir 0x090 i).toNat
  let aux := regI s .mir 0x098 i
  if v ≠ 1 then s
  else if ws = [] ∨ defKind ws ≠ 3 then recErr .mir 0x104 s
  else mirOffer (defEvent s ws (fld aux 31 30) (regI s .mir 0x094 i).toNat (fld aux 25 16) (if fld aux 11 0 = 0 then none else some (fld aux 11 0))) s

/-- `INJ_CMD`. -/
def execInjCmd (ini : Ini) (s : State) : Out := done s (admitWrite ini .mir 0x09C 1 (workRequest .mir (injCmd ini.id 1)) s)

/-- A write of `TRK_IDX` snapshots a context (R280). -/
def trkIdx (i : Fin 10) (v : Word) (s : State) : State :=
  let t := trackOf s (fld v 7 0)
  let nbr := match t.rcv with | n :: _ => n | [] => t.from'.getD 0
  let ws := [t.st * 2 ^ 28 + t.dir * 2 ^ 26 + b01 t.from'.isSome * 2 ^ 25 + b01 (!t.rcv.isEmpty) * 2 ^ 24 + t.strip * 2 ^ 16 + t.events,
    t.id, t.x, t.t, t.v, t.birth, (match t.cover with | some (a, b) => 2 ^ 31 + b * 2 ^ 16 + a | none => 0), t.lastRel.getD 0,
    (if t.rcv.isEmpty then t.revIn else t.rev) * 2 ^ 16 + nbr]
  let s1 := forEach (fun n u => setRegI .mir (0x0C0 + 4 * n) i (word (ws.getD n 0)) u) (List.range 16) s
  setRegI .mir 0x084 i 2 s1

/-- `TRK_IDX`. -/
def execTrkIdx (ini : Ini) (v : Word) (s : State) : Out := done s (admitWrite ini .mir 0x080 v (trkIdx ini.id v) s)

/-! ### Handovers received -/

/-- A reject (R272, R277, R278). -/
def hoReject (s : State) : State := bumpRegF .mir 0x058 31 24 s

/-- A handover taken. -/
def hoTaken (s : State) : State := raiseIrq .mir 0 (bumpRegF .mir 0x058 23 12 s)

/-- A handover of an unknown track (R264, R272); a SPEED of 0 gives no prediction: a free speed (log 1). -/
def hoStart (src : Nat) (w : Nat → Word) (s : State) : State :=
  let k := fld (w 1) 13 8
  let dir := fld (w 1) 19 18
  let st := fld (w 1) 23 20
  match freeContext s with
  | none => hoTaken (mirFlood k dir s)
  | some c =>
    let v := fld (w 3) 11 0
    let t : MirTrack := { st := st, tent := st == 1, dir := dir, strip := k, x := if dir = 1 then 0 else stripEnd s k, t := (w 2).toNat
                          v := if v = 0 then freeN s % 4095 + 1 else v, birth := nowMs s, from' := some src, revIn := fld (w 1) 31 24, id := (w 0).toNat }
    hoTaken (trackRun c (used (trackReceipt c t s)))

/-- A handover of a known track, live or EXITED: a higher REV re-anchors it and gives its state and speed (R272). -/
def hoUpdate (c : Nat) (w : Nat → Word) (s : State) : State :=
  let t := trackOf s c
  let dir := fld (w 1) 19 18
  let v := fld (w 3) 11 0
  if fld (w 1) 31 24 ≤ t.revIn then s
  else
    hoTaken (trackRun c (used (putTrack c { t with
      st := fld (w 1) 23 20, tent := t.tent && fld (w 1) 23 20 != 2, x := if dir = 1 then 0 else stripEnd s t.strip
      t := (w 2).toNat, v := if v = 0 then freeN s % 4095 + 1 else v, revIn := fld (w 1) 31 24 } s)))

/-- TRACK_HANDOVER (R272, R273, R277): rejected in OFF, without HO_EN, for a strip or direction not served, or a reserved
state. -/
def trackHandover (src : Nat) (ws : List Word) (s : State) : State :=
  let w := wordAt ws
  let k := fld (w 1) 13 8
  if !mirOn s then hoReject s
  else if s.mir.cancelled.any fun x => x.1 == (w 0).toNat then s
  else if !regB s .mir 0x040 8 || !stripEn s k || !((fld (w 1) 19 18 == 1 || fld (w 1) 19 18 == 2) && (stripDirs s k).testBit (fld (w 1) 19 18 - 1))
      || !(fld (w 1) 23 20 == 1 || fld (w 1) 23 20 == 2) then hoReject s
  else match s.mir.tracks.find? fun x => x.2.st != 0 && x.2.id == (w 0).toNat with
    | some x => hoUpdate x.1 w s
    | none => hoStart src w s

/-- TRACK_CANCEL (R268, R269, R273): a track that this module has associated with an event is kept, and nothing further is recorded,
whether it lives or has EXITED. -/
def trackCancelRx (src : Nat) (ws : List Word) (s : State) : State :=
  let id := (wordAt ws 0).toNat
  let s1 := bumpRegF .mir 0x058 11 0 s
  if !mirOn s then hoReject s
  else match s.mir.tracks.find? fun x => x.2.st != 0 && x.2.id == id && x.2.from' == some src with
    | some x => if x.2.events != 0 then s1 else keepCancelled id (if trackLive x.2 then trackCancel x.1 3 s1 else s1)
    | none => keepCancelled id s1

/-- A message of a neighbour reaches MIR; a quiescing MIR refuses it, and ERG offers it again (R38, R276). -/
def mirReceive (cancel : Bool) (src : Nat) (ws : List Word) (s : State) : State :=
  if mirOn s && (quiescing s .mir || inReset s .mir) then { s with mir := { s.mir with heldRx := s.mir.heldRx ++ [(cancel, src, ws)] } }
  else if cancel then trackCancelRx src ws s
  else trackHandover src ws s

/-- `TRACK_HANDOVER_RX`. -/
def execTrackHandoverRx (src : Fin 4096) (ws : List Word) (s : State) : Out := done s (mirReceive false src.val ws s)

/-- `TRACK_CANCEL_RX`. -/
def execTrackCancelRx (src : Fin 4096) (ws : List Word) (s : State) : Out := done s (mirReceive true src.val ws s)

/-- MIR takes work again: what was held back is offered again (R38). -/
def mirUnhold (s : State) : State :=
  if quiescing s .mir || inReset s .mir then s
  else
    let s1 := forEach mirOffer s.mir.held { s with mir := { s.mir with held := [], heldRx := [] } }
    forEach (fun m t => mirReceive m.1 m.2.1 m.2.2 t) s.mir.heldRx s1

/-- `CANCEL_RECORD_EXPIRE`: identities kept for 60 s are forgotten (R273). -/
def execCancelRecordExpire (s : State) : Out :=
  done s { s with mir := { s.mir with cancelled := s.mir.cancelled.filter fun x => decide (actDiff (nowMs s) x.2 < 60000) } }

/-- ERG reports a message that failed lastingly (R273). -/
def mirHoFail (id nbr : Nat) (s : State) : State :=
  evrOffer .mir 0x0302 (leBytes 4 id ++ leBytes 2 nbr) (raiseIrq .mir 5 (recErr .mir 0x105 s))

/-! ### Strip maps, strips, modes -/

/-- A point that a strip's map may hold, but for its position (R248). -/
def stripMember (s : State) (k i : Nat) : Bool :=
  let c := ptHalf s i
  cfgStrip c == k && ptServed s i && bit (wordAt c 0) 11 && isLantern c

/-- The bytes of a strip map (R282). -/
def mapBytes (m : List (Nat × Nat)) : List Byte :=
  takePad 2048 (m.flatMap fun p => leBytes 4 (2 ^ 31 + p.2) ++ leBytes 4 p.1)

/-- Writes a strip's map and its windows into the work area (R282). -/
def stripLay (k : Nat) (s : State) : State :=
  let s1 := memWrite (mirWork s + 2048 * k) (mapBytes (mapOfStrip s k)) s
  memWrite (mirWork s1 + 0x20000 + 4096 * k) ((mapOfStrip s1 k).flatMap fun p => winBytes (winOf s1 k p.2)) s1

/-- Rebuilds a strip's map (R248, R282). -/
def stripRebuild (k : Nat) (s : State) : State :=
  if !s.mir.rebuild.contains k || !ptReady s || inReset s .mir then s
  else
    let all := ((List.range ptCount).filter (stripMember s k)).map fun i => (cfgPosDm (ptHalf s i), i)
    let fit := all.filter fun p => decide (p.1 ≤ stripEnd s k)
    let m := ((sortKey (fit.map fun p => ((p.1 : Int), p))).map (·.2)).take 256
    let en := stripEn s k
    let s1 := { s with mir := { s.mir with maps := spPut (fun _ => []) k (if en then m else []) s.mir.maps, rebuild := s.mir.rebuild.filter (· != k) } }
    let s3 := stripLay k s1
    if en && m.length < all.length then raiseIrq .mir 4 (recErr .mir 0x106 s3) else s3

/-- `STRIP_REBUILD`. -/
def execStripRebuild (k : Fin 64) (s : State) : Out := done s (stripRebuild k.val s)

/-- A strip's map is to be rebuilt. -/
def needRebuild (k : Nat) (s : State) : State :=
  if k < 64 && stripEn s k && !s.mir.rebuild.contains k then { s with mir := { s.mir with rebuild := s.mir.rebuild ++ [k] } } else s

/-- A point's configuration half changed: the strips that hold it and the one it names are rebuilt (R248). -/
def mirPointChanged (i : Nat) (s : State) : State :=
  forEach needRebuild (((s.mir.maps.filter fun x => x.2.any fun p => p.2 == i).map (·.1)) ++ [cfgStrip (ptHalf s i)]) s

/-- A write of a strip word (R249, R250). -/
def stripWrite (ini : Ini) (off : Nat) (v : Word) (s : State) : State :=
  let k := (off - 0x800) / 0x20
  if off % 0x20 != 0 then (if stripEn s k then recErr .mir 0x102 s else plainWrite ini .mir off v s)
  else if bit v 31 && !stripGood s k v then recErr .mir 0x101 s
  else
    let s1 := plainWrite ini .mir off v s
    if !stripEn s k && stripEn s1 k then needRebuild k s1
    else if stripEn s k && !stripEn s1 k then
      let live := (liveTracks s1).filter fun c => (trackOf s1 c).strip == k
      defSilence k (forEach trackExit live { s1 with mir := { s1.mir with maps := spPut (fun _ => []) k [] s1.mir.maps, rebuild := s1.mir.rebuild.filter (· != k) } })
    else s1

/-- `STRIP_ENABLE`: a write of W0 with EN. -/
def execStripEnable (ini : Ini) (k : Fin 64) (v : Word) (s : State) : Out :=
  let off := 0x800 + 0x20 * k.val
  done s (admitWrite ini .mir off (setBit v 31 true) (stripWrite ini off (setBit v 31 true)) s)

/-- `STRIP_DISABLE`: a write of W0 without EN. -/
def execStripDisable (ini : Ini) (k : Fin 64) (v : Word) (s : State) : Out :=
  let off := 0x800 + 0x20 * k.val
  done s (admitWrite ini .mir off (setBit v 31 false) (stripWrite ini off (setBit v 31 false)) s)

/-- MIR stops: live tracks end, and events and messages that wait are dropped (R277, R631). -/
def mirStop (s : State) : State :=
  let s1 := tracksEnd s
  { s1 with mir := { s1.mir with queue := [], held := [], out := [] } }

/-- A live track of the strip covers a slot of its map. -/
def trackCovers (s : State) (k i : Nat) : Bool :=
  (slotOf s k i).isSome && match winOf s k i with
    | some w => (liveCov (nowMs s) w).any fun x => trackLive (trackOf s x.1)
    | none => false

/-- From SHADOW to ACTIVE: every slot that a live track covers is posted, and every decision that has passed is sent (R277). -/
def mirPromote (s : State) : State :=
  let s1 := forEach (fun x t => if trackCovers t (x / 16384) (x % 16384) then winPost (x / 16384) (x % 16384) t else t) (s.mir.wins.map (·.1)) s
  forEach (fun c t => match (trackOf t c).decided with | some d => handoverSend c (trackOf t c).rev d t | none => t) (liveTracks s1) s1

/-- A change of MODE (R277): what waits to be sent does not leave in SHADOW or OFF. -/
def mirModeSet (m : Nat) (s : State) : State :=
  let old := mirMode s
  let s1 := setRegF .mir 0x040 1 0 m s
  if m = old then s1
  else if m = 0 then mirStop s1
  else if old = 2 ∧ m = 1 then mirPromote s1
  else { s1 with mir := { s1.mir with out := [] } }

/-- A write of `MIR_CTRL`; the reserved MODE 3 leaves MODE as it is (DESIGN CHOICE, log 16). -/
def mirCtrlWrite (ini : Ini) (v : Word) (s : State) : State :=
  let m := if fld v 1 0 = 3 then mirMode s else fld v 1 0
  mirModeSet m (plainWrite ini .mir 0x040 (setFld v 1 0 (mirMode s)) s)

/-- A write of `MIR_CTRL` that changes MODE alone. -/
def mirModeWrite (ini : Ini) (m : Nat) (s : State) : State :=
  admitWrite ini .mir 0x040 (setFld (reg s .mir 0x040) 1 0 m) (mirCtrlWrite ini (setFld (reg s .mir 0x040) 1 0 m)) s

/-- `MIR_MODE_OFF`. -/
def execMirModeOff (ini : Ini) (s : State) : Out := done s (mirModeWrite ini 0 s)
/-- `MIR_MODE_SHADOW`. -/
def execMirModeShadow (ini : Ini) (s : State) : Out := done s (mirModeWrite ini 2 s)
/-- `MIR_MODE_ACTIVE`. -/
def execMirModeActive (ini : Ini) (s : State) : Out := done s (mirModeWrite ini 1 s)

/-- A write of `WORK_BASE` (R278, R281); a new work area holds the maps and windows that MIR keeps (R282). -/
def mirWorkWrite (ini : Ini) (v : Word) (s : State) : State :=
  if enabled s .mir || v.toNat % 0x80000 != 0 || !inDram v.toNat 0x80000 then recErr .mir 0x100 s
  else
    let s1 := plainWrite ini .mir 0x048 v s
    if mirWork s1 = mirWork s then s1 else forEach stripLay (s1.mir.maps.map (·.1)) s1

/-- The registers of MIR whose reads are computed: `MIR_STAT` (R278). -/
def mirView (s : State) (off : Nat) : Option Word :=
  if off = 0x044 then
    some (word ((liveTracks s).length * 2 ^ 16 + 8 * b01 ((List.range 64).any (floodLive s)) + 4 * b01 (freeContext s).isNone
      + 2 * b01 (!s.mir.queue.isEmpty) + b01 (!s.mir.rebuild.isEmpty)))
  else none

/-- Accepted work of MIR. -/
def mirBusy (s : State) : Bool := !s.mir.queue.isEmpty || !s.mir.out.isEmpty

/-- A block reset of MIR (R276): contexts free without revocation, windows and cancelled identities clear; FULL the strips
and generations too. -/
def mirDatapath (full : Bool) (s : State) : State :=
  let tracks := (s.mir.tracks.map fun x => (x.1, ({ gen := x.2.gen } : MirTrack))).filter fun x => x.2 != {}
  let clear := forEach (fun i t => forEach (fun n u => setRegI .mir (0x0C0 + 4 * n) (Fin.ofNat 10 i) 0 u) (List.range 16) (setRegI .mir 0x084 (Fin.ofNat 10 i) 0 t)) (List.range 10) s
  let s1 := { clear with mir := { s.mir with
    tracks := if full then [] else tracks, wins := [], floods := [], queue := [], cancelled := [], out := []
    maps := if full then [] else s.mir.maps, rebuild := if full then [] else s.mir.rebuild } }
  { s1 with mem := s1.mem.filter fun c => !(decide (mirWork s + 0x20000 ≤ c.1) && decide (c.1 < mirWork s + 0x70000)) }

end Sys2Proof.Machine
end

