-- ==== Sys2Proof/Machine/ErgCore.lean ====
section
/-! DEFINITION. Erg messages, neighbours, paths and sending (R436-R452). -/
namespace Sys2Proof.Machine

/-- `ERG_CTRL.MODE`. -/
def ergMode (s : State) : Nat := regF s .erg 0x040 1 0

/-- `ASTATE`: 0 OFF, 1 CLAIMING, 2 HELD, 3 CONFLICT. -/
def ergState (s : State) : Nat := regF s .erg 0x044 31 28

/-- ERG runs in a mode other than OFF. -/
def ergRuns (s : State) : Bool := working s .erg && ergMode s != 0

/-- ERG is ACTIVE and holds its address. -/
def ergHeld (s : State) : Bool := ergRuns s && ergMode s == 1 && ergState s == 2

/-- ERG takes messages other than HELLOs: not while it claims, and not in CONFLICT (R437, R438). -/
def ergHears (s : State) : Bool := ergState s != 1 && ergState s != 3

/-- ERG is ACTIVE and answers send requests: it sends them in HELD, and fails them in CONFLICT (R438). -/
def ergAnswers (s : State) : Bool := ergRuns s && ergMode s == 1 && (ergState s == 2 || ergState s == 3)

/-- ERG can finish the messages it has accepted, with EN set or not (R631). -/
def ergFinishes (s : State) : Bool := running s .erg && ergMode s == 1 && ergState s == 2

/-- Changes ERG's own state. -/
def onErg (f : Erg → Erg) (s : State) : State := { s with erg := f s.erg }

/-- A neighbour entry. -/
def nbrOf (s : State) (e : Nat) : ErgNbr := spGet (fun _ => {}) s.erg.nbrs e

/-- Sets a neighbour entry. -/
def putNbr (e : Nat) (x : ErgNbr) (s : State) : State := onErg (fun g => { g with nbrs := spPut (fun _ => {}) e x g.nbrs }) s

/-- ADDR of an entry (R441). -/
def nbrAddr (x : ErgNbr) : Nat := fld x.word0 11 0

/-- The valid entry of a fabric address. -/
def nbrFor (s : State) (addr : Nat) : Option Nat :=
  (s.erg.nbrs.find? fun x => x.2.valid && nbrAddr x.2 == addr).map (·.1)

/-- What is kept of a fabric address. -/
def peerOf (s : State) (addr : Nat) : ErgPeer := spGet (fun _ => {}) s.erg.peers addr

/-- Sets what is kept of a fabric address. -/
def putPeer (addr : Nat) (x : ErgPeer) (s : State) : State := onErg (fun g => { g with peers := spPut (fun _ => {}) addr x g.peers }) s

/-- A port path is UP: 0 A, 1 B. -/
def portUp (x : ErgNbr) (p : Nat) : Bool := if p = 0 then x.upA else x.upB

/-- Sets a port path; a change raises NBR_CHG (R442). -/
def setPath (e p : Nat) (up : Bool) (s : State) : State :=
  let x := nbrOf s e
  if portUp x p == up then s
  else raiseIrq .erg 4 (putNbr e (if p = 0 then { x with upA := up } else { x with upB := up }) s)

/-- The radio path is usable (R442). -/
def radioUsable (s : State) (x : ErgNbr) : Bool := radioUp s && nbrRadio x

/-- Bytes of a message in a radio segment at the rate in force (R450). -/
def segBytes (s : State) : Nat :=
  match rfRate s with
  | 0 => 8 | 1 => 60 | 2 => 104 | _ => 96

/-- The largest message by radio (R450). -/
def radioMax (s : State) : Nat := if rfRate s < 2 then 16 * segBytes s else 1024

/-- The path of a message of `len` bytes (R448): port PREF, the other port, the radio (2). -/
def pathOf (s : State) (x : ErgNbr) (len : Nat) : Option Nat :=
  let first := if fld x.word0 29 28 = 1 then 1 else 0
  if portUp x first then some first
  else if portUp x (1 - first) then some (1 - first)
  else if radioUsable s x && decide (len ≤ radioMax s) then some 2
  else none

/-! ### Messages -/

/-- A message's bytes, in network order (R439). -/
def ergBytes (m : ErgMsg) : List Byte :=
  beBytes 4 (0x10000000 + b01 m.ackReq * 2 ^ 27 + b01 m.flood.isSome * 2 ^ 26 + m.type * 65536 + m.payload.length)
    ++ beBytes 4 (m.src * 2 ^ 20 + m.dst * 256 + m.ttl) ++ beBytes 4 m.session ++ beBytes 4 m.seq
    ++ (match m.flood with | some (o, q) => beBytes 4 (o * 2 ^ 20 + q) | none => []) ++ m.payload

/-- A message read from its bytes; none where VER is not 1 or the length disagrees with LEN (R439, R449). -/
def ergParse (b : List Byte) : Option ErgMsg :=
  let w0 := beNat (slice 0 4 b)
  let w1 := beNat (slice 4 4 b)
  let fl := w0.testBit 26
  let hl := if fl then 20 else 16
  let w4 := beNat (slice 16 4 b)
  if nfld w0 31 28 != 1 || decide (1008 < nfld w0 10 0) || b.length != hl + nfld w0 10 0 then none
  else some { ackReq := w0.testBit 27, flood := if fl then some (nfld w4 31 20, nfld w4 19 0) else none, type := nfld w0 23 16
              src := nfld w1 31 20, dst := nfld w1 19 8, ttl := nfld w1 7 0, session := beNat (slice 8 4 b), seq := beNat (slice 12 4 b)
              payload := b.drop hl }

/-- A command's message with its TYPE. -/
def msgOf (m : ErgMessage) (type : Nat) : ErgMsg :=
  { ackReq := m.ackReq, flood := m.flood, type := type, src := m.src, dst := m.dst, ttl := m.ttl, session := m.session, seq := m.seq, payload := m.payload }

/-- The module serial (R600). -/
def serial64 (s : State) : Nat := regN s .ident 0x04C * 2 ^ 32 + regN s .ident 0x048

/-- The twin peer's serial, as the TWIN page reports it. -/
def peerSerial (s : State) : Nat := regN s .twin 0x064 * 2 ^ 32 + regN s .twin 0x060

/-! ### Sending -/

/-- One IPv6 packet with UDP ports 47414 (R449), on a port; traffic class and flow label are open. -/
def ergPacket (p : Nat) (mac ip hop : Nat) (tag : Option Nat) (msg : List Byte) (s : State) : State :=
  let src := takePad 16 (s.erg.local'.drop (16 * p))
  let len := 8 + msg.length
  let udp := fun c => beBytes 2 47414 ++ beBytes 2 47414 ++ beBytes 2 len ++ beBytes 2 c ++ msg
  let ip6 := beBytes 4 (6 * 2 ^ 28 + freeN s % 2 ^ 28) ++ beBytes 2 len ++ beBytes 1 17 ++ beBytes 1 hop ++ src ++ beBytes 16 ip
  used (ergQueue p (beBytes 6 mac ++ macOf s p ++ (match tag with | some t => vlanTag t | none => []) ++ beBytes 2 0x86DD ++ ip6
    ++ udp (udpSum (src ++ beBytes 16 ip) (udp 0))) s)

/-- A byte string cut into pieces; `fuel` pieces at most. -/
def chunks (size : Nat) : Nat → List Byte → List (List Byte)
  | 0, _ => []
  | fuel + 1, b => if b.isEmpty then [] else b.take size :: chunks size fuel (b.drop size)

/-- A message by radio (R450): Caravan ERG frames to coordinator 0x0000 of the neighbour's PAN. -/
def ergRadio (pan : Nat) (msg : List Byte) (s : State) : State :=
  let segs := chunks (segBytes s) 16 msg
  let frames : List RfFrame := segs.zipIdx.map fun x =>
    { dst := 0, pan := some pan, kind := 2, payload := beBytes 1 0xD0 ++ beBytes 1 (x.2 * 16 + (segs.length - 1)) ++ x.1 }
  let n := clampNat 0 0xFFFF (regF s .erg 0x094 15 0 + segs.length)
  onCrv (fun c => { c with erg := c.erg ++ frames }) (bumpRegF .erg 0x094 31 16 (setRegF .erg 0x094 15 0 n s))

/-- Sends a message to a neighbour by a path. -/
def ergVia (path : Nat) (x : ErgNbr) (m : ErgMsg) (s : State) : State :=
  match path with
  | 0 => ergPacket 0 x.macA x.ipA x.hop x.tag (ergBytes m) s
  | 1 => ergPacket 1 x.macB x.ipB x.hop x.tag (ergBytes m) s
  | _ => ergRadio x.rfPan (ergBytes m) s

/-- FLAGS and the rest of a HELLO's payload on a port (R440). -/
def helloPayload (s : State) (p : Nat) : List Byte :=
  beBytes 8 (serial64 s)
    ++ beBytes 1 (b01 (ergState s == 1) * 128 + b01 (ergState s == 3) * 64 + b01 (twinEn s) * 32 + b01 (regB s .erg 0x040 8 && crvMode s == 1) * 16 + p)
    ++ [0] ++ beBytes 2 (crvPan s)

/-- A HELLO of this module. -/
def helloMsg (s : State) (p dst : Nat) : ErgMsg :=
  { ackReq := false, flood := none, type := 1, src := fabAddr s, dst := dst, ttl := 0, session := regN s .erg 0x04C, seq := 0
    payload := helloPayload s p }

/-- The multicast HELLO on a port that has link, to ff02::e96 (R443); its hop limit is open. -/
def helloAll (p : Nat) (s : State) : State :=
  if ethLink s p then
    ergPacket p 0x333300000E96 (0xFF02 * 2 ^ 112 + 0xE96) (freeN s % 255 + 1) none (ergBytes (helloMsg s p 0)) s
  else s

/-- The unicast HELLO to an entry on a port, where it has link (R443). -/
def helloTo (p : Nat) (x : ErgNbr) (s : State) : State := if !ethLink s p then s else ergVia p x (helloMsg s p (nbrAddr x)) s

/-- The ACK of a message, by the path on which it arrived (R440, R446). -/
def ergAckTo (path : Nat) (x : ErgNbr) (m : ErgMsg) (s : State) : State :=
  ergVia path x { ackReq := false, flood := none, type := 2, src := fabAddr s, dst := m.src, ttl := 0, session := regN s .erg 0x04C
                  seq := m.seq, payload := beBytes 4 m.session } s

/-- The next SEQ towards an address (R444). -/
def nextSeq (q : Nat) : Nat := if q + 1 = 2 ^ 32 then 1 else q + 1

/-! ### Completion -/

/-- A host descriptor in the transmit ring. -/
def htxAt (s : State) (slot : Nat) : Nat := regN s .erg 0x070 + 32 * slot

/-- Writes a host descriptor back (R452). -/
def htxBack (slot status : Nat) (s : State) : State :=
  let a := htxAt s slot
  setMem32 (a + 12) (word (nowMs s)) (setMem32 (a + 4) (setFld (setBit (mem32 s (a + 4)) 31 false) 27 24 status) s)

/-- Finished descriptors are written back in ring order (R452). -/
def htxFlush : List ErgHost → State → State
  | [], s => onErg (fun g => { g with host := [] }) s
  | h :: r, s =>
    if h.left = 0 then
      htxFlush r (raiseIrq .erg 1 (setReg .erg 0x07C (word ((h.slot + 1) % regN s .erg 0x074)) (htxBack h.slot h.status s)))
    else onErg (fun g => { g with host := h :: r }) s

/-- One copy of a host message has ended; a failed copy's status stands (R452). -/
def hostDone (slot status : Nat) (s : State) : State :=
  let h := s.erg.host.map fun x =>
    if x.slot = slot then { x with left := x.left - 1, status := if 2 ≤ x.status then x.status else status } else x
  htxFlush h s

/-- A message has ended with a status of R452; MIR hears of a failure alone (R273, R447). -/
def ergEnd (o : ErgOut) (status : Nat) (s : State) : State :=
  match o.asker with
  | .mir id _ => if 2 ≤ status then mirHoFail id o.msg.dst s else s
  | .host slot => hostDone slot status s
  | .copy => s

/-- A lasting failure (R447, R448, R450). -/
def ergFail (o : ErgOut) (status : Nat) (s : State) : State :=
  let s1 := raiseIrq .erg 3 (bumpRegF .erg 0x084 31 16 s)
  ergEnd o status (if status = 5 then recErr .erg 0x105 s1 else if status = 6 then recErr .erg 0x106 s1 else s1)

/-- One attempt of a message (R447, R448). -/
def ergAttempt (o : ErgOut) (s : State) : State :=
  let x := nbrOf s o.nbr
  let len := (ergBytes o.msg).length
  if ergState s = 3 then ergFail o 6 s
  else
    match (if ergFinishes s && x.valid then pathOf s x len else none) with
    | some p =>
      let s1 := ergVia p x o.msg (if o.second then s else bumpReg .erg 0x080 s)
      if o.msg.ackReq then onErg (fun g => { g with out := g.out ++ [{ o with noPath := false }] }) s1 else ergEnd o 1 s1
    | none =>
      let big := ergFinishes s && x.valid && radioUsable s x
      if o.second then ergFail o (if big then 5 else 6) s
      else onErg (fun g => { g with out := g.out ++ [{ o with noPath := true, tooBig := big }] }) s

/-- Numbers a message towards its neighbour and sends it (R444). -/
def ergSendTo (e : Nat) (m : ErgMsg) (asker : ErgAsker) (s : State) : State :=
  let x := nbrOf s e
  let a := nbrAddr x
  let q := nextSeq (peerOf s a).seq
  let m1 := { m with src := fabAddr s, dst := a, session := regN s .erg 0x04C, seq := if m.ackReq then q else 0 }
  ergAttempt { nbr := e, msg := m1, asker := asker } (if m.ackReq then putPeer a { peerOf s a with seq := q } s else s)

/-- The UP entries with FLOOD_OK, but for two addresses (R451). -/
def floodTo (s : State) (not1 not2 : Nat) : List Nat :=
  (s.erg.nbrs.filter fun x => x.2.valid && bit x.2.word0 25 && (x.2.upA || x.2.upB) && nbrAddr x.2 != not1 && nbrAddr x.2 != not2).map (·.1)

/-- Records a flood's pair, and mirrors it; the oldest of 1,024 is dropped (R451, R469). -/
def floodKeep (o q : Nat) (s : State) : State :=
  jrnTell (.flood o q) (onErg (fun g => { g with floods := ((g.floods ++ [(o, q, nowMs s)]).reverse.take 1024).reverse }) s)

/-- The pair was seen within the last 60 s (R451). -/
def floodSeen (s : State) (o q : Nat) : Bool := s.erg.floods.any fun f => f.1 == o && f.2.1 == q && decide (actDiff (nowMs s) f.2.2 < 60000)

/-! ### Host transmit ring -/

/-- A descriptor that halts the ring (R452). -/
def htxBad (w0 w1 : Word) : Bool :=
  !bit w1 31 || decide (fld w1 23 16 < 0x40) || decide (0x7F < fld w1 23 16) || decide (1008 < fld w1 10 0) || (bit w1 30 && !bit w1 29)
    || !inRam w0.toNat (fld w1 10 0)

/-- Takes the descriptor at a slot (R452). -/
def htxTake (slot : Nat) (s : State) : State :=
  let a := htxAt s slot
  let w0 := mem32 s a
  let w1 := mem32 s (a + 4)
  let w2 := mem32 s (a + 8)
  if htxBad w0 w1 then recErr .erg 0x104 (onErg (fun g => { g with halted := true }) s)
  else
    let pay := memRead s w0.toNat (fld w1 10 0)
    let m : ErgMsg := { ackReq := bit w1 29, flood := none, type := fld w1 23 16, src := 0, dst := 0, ttl := 0, session := 0, seq := 0, payload := pay }
    let add := fun (left status : Nat) (t : State) => onErg (fun g => { g with host := g.host ++ [{ slot := slot, left := left, status := status }] }) t
    if bit w1 30 then
      let q := (s.erg.oseq + 1) % 2 ^ 20
      let dests := floodTo s (fabAddr s) (fabAddr s)
      let ttl := if fld w2 19 12 = 0 then regF s .erg 0x040 23 16 else fld w2 19 12
      let s1 := floodKeep (fabAddr s) q (onErg (fun g => { g with oseq := q }) s)
      if dests.isEmpty then htxFlush (add 0 6 s1).erg.host (add 0 6 s1)
      else forEach (fun e t => ergSendTo e { m with flood := some (fabAddr s, q), ttl := ttl } (.host slot) t) dests (add dests.length 0 s1)
    else match nbrFor s (fld w2 11 0) with
      | none => if ergState s = 3 then ergFail { nbr := 0, msg := m, asker := .host slot } 6 (add 1 0 s) else htxFlush (add 0 3 s).erg.host (add 0 3 s)
      | some e => ergSendTo e m (.host slot) (add 1 0 s)

/-- Whether ERG takes a further host descriptor (R452, R454). -/
def htxReady (s : State) : Bool :=
  ergAnswers s && !quiescing s .erg && !s.erg.halted && s.mir.out.isEmpty && decide ((s.erg.host.filter fun h => h.left != 0).length < 64)
    && decide (s.erg.host.length < ringGiven s .erg 0x074 0x078 0x07C)

/-- Takes host descriptors while ERG may (R452). -/
def htxPump : Nat → State → State
  | 0, s => s
  | fuel + 1, s =>
    if htxReady s then htxPump fuel (htxTake ((regN s .erg 0x07C + s.erg.host.length) % regN s .erg 0x074) s) else s

/-- ERG goes on with host messages; a ring has at most 256 descriptors. -/
def ergPump (s : State) : State := htxPump 256 s

end Sys2Proof.Machine
end

