-- ==== Sys2Proof/Machine/Erg.lean ====
section
/-! DEFINITION. Receiving Erg messages, claiming the address, neighbour tables and ERG's own commands (R437-R454). -/
namespace Sys2Proof.Machine

/-! ### Host receive ring -/

/-- The receive ring is full: no slot is given (R416, R452), or it has never been placed in memory (DESIGN CHOICE, log 188). -/
def hrxFull (s : State) : Bool := ringGiven s .erg 0x064 0x068 0x06C == 0 || !inRam (regN s .erg 0x060) (2048 * regN s .erg 0x064)

/-- A message refused for a full ring (R446). -/
def hrxDrop (s : State) : State := raiseIrq .erg 2 (setRegB .erg 0x044 1 true (bumpReg .erg 0x090 s))

/-- Writes a message into the next slot (R452). -/
def hrxPut (path : Nat) (m : ErgMsg) (s : State) : State :=
  let h := regN s .erg 0x06C
  let a := regN s .erg 0x060 + 2048 * h
  let hdr := (ergBytes m).take (if m.flood.isSome then 20 else 16)
  let s1 := memWrite (a + 64) m.payload (memWrite (a + 16) hdr (setMem32 (a + 4) (word (nowMs s)) s))
  raiseIrq .erg 0 (setReg .erg 0x06C (word ((h + 1) % regN s .erg 0x064)) (setMem32 a (word (2 ^ 31 + path * 2 ^ 28 + m.src)) s1))

/-! ### HELLO and conflicts -/

/-- ERG enters CONFLICT, and fails what the host asks it to send (R438). -/
def ergConflict (other : Nat) (s : State) : State :=
  ergPump <| evrOffer .erg 0x0303 (leBytes 8 (serial64 s) ++ leBytes 8 other) (raiseIrq .erg 5 (recErr .erg 0x100 (setRegF .erg 0x044 31 28 3 s)))

/-- A conflicting HELLO (R437): a claimant yields to a holder and to a lower serial; of two holders the higher yields.  A
HELLO with CONFLICT set claims and holds nothing (DEDUCED, log 24). -/
def helloConflict (serial flags : Nat) (s : State) : State :=
  let claim := flags.testBit 7
  if flags.testBit 6 || ergMode s != 1 then s
  else match ergState s with
    | 1 => if claim && decide (serial64 s < serial) then s else ergConflict serial s
    | 2 => if claim || decide (serial64 s < serial) then s else ergConflict serial s
    | _ => s

/-- The SESSION of a neighbour's HELLO (R445): an earlier one for three HELLOs in a row is taken. -/
def helloSession (src session : Nat) (s : State) : State :=
  let x := peerOf s src
  match x.session with
  | none => s
  | some k =>
    if actDiff session k < 0 then
      if 2 ≤ x.early then
        evrOffer .erg 0x0304 (leBytes 2 src ++ leBytes 4 session) (putPeer src { seq := x.seq, session := some session } s)
      else putPeer src { x with early := x.early + 1 } s
    else putPeer src { x with early := 0 } s

/-- What an entry learns of a HELLO (R442). -/
def nbrLearn (e p mac ip : Nat) (s : State) : State :=
  let x := nbrOf s e
  if bit x.word0 26 then putNbr e (if p = 0 then { x with macA := mac, ipA := ip, learned := true } else { x with macB := mac, ipB := ip, learned := true }) s
  else s

/-- A HELLO of an address that has no entry reaches the host once in 60 s (R443). -/
def helloUnknown (p : Nat) (m : ErgMsg) (s : State) : State :=
  let recent := s.erg.heard.any fun x => x.1 == m.src && decide (actDiff (nowMs s) x.2 < 60000)
  if recent then s else if hrxFull s then hrxDrop s
  else onErg (fun g => { g with heard := spIns m.src (nowMs s) g.heard }) (hrxPut p m s)

/-- A received HELLO (R437, R442, R443, R445). -/
def ergHello (p mac ip : Nat) (m : ErgMsg) (s : State) : State :=
  if m.payload.length != 12 then bumpReg .erg 0x098 s
  else
    let serial := beNat (slice 0 8 m.payload)
    if m.src = fabAddr s then
      if serial = serial64 s || (twinEn s && serial == peerSerial s) then s else helloConflict serial (beNat (slice 8 1 m.payload)) s
    else match nbrFor s m.src with
      | some e => helloSession m.src m.session (setPath e p true (nbrLearn e p mac ip s))
      | none => helloUnknown p m s

/-! ### ACK and messages -/

/-- A received ACK completes the matching message; later ones are ignored (R442, R447). -/
def ergAck (path : Nat) (m : ErgMsg) (s : State) : State :=
  let s1 := match nbrFor s m.src with
    | some e => if path < 2 then setPath e path true s else s
    | none => s
  let isIt := fun (o : ErgOut) => o.msg.dst == m.src && o.msg.seq == m.seq && o.msg.session == beNat (m.payload.take 4)
  match s1.erg.out.find? isIt with
  | none => s1
  | some o =>
    let s2 := onErg (fun g => { g with out := dropFirst isIt g.out }) s1
    ergPump (ergEnd o 0 (if o.second then bumpRegF .erg 0x084 15 0 s2 else s2))

/-- How a numbered message stands to what is kept of its sender (R445): 0 new, 1 stale, 2 a repeat. -/
def seqClass (x : ErgPeer) (m : ErgMsg) : Nat :=
  match x.session with
  | none => 0
  | some k =>
    let d := actDiff m.session k
    if 0 < d then 0
    else if d < 0 then 1
    else
      let e := actDiff m.seq x.high
      if 0 < e then 0
      else if e = 0 ∨ e < -32 then 2
      else if x.record.testBit ((-e).toNat - 1) then 2 else 0

/-- What is kept after a new message (R445): bit j of the record stands for H - 1 - j. -/
def seqAccept (x : ErgPeer) (m : ErgMsg) : ErgPeer :=
  if x.session == some m.session then
    let e := actDiff m.seq x.high
    if 0 < e then { x with high := m.seq, record := (x.record * 2 + 1) * 2 ^ (e.toNat - 1) % 2 ^ 32 }
    else { x with record := x.record ||| 2 ^ ((-e).toNat - 1) }
  else { x with session := some m.session, high := m.seq, record := 0, early := 0 }

/-- The payload as the words of R271. -/
def ergWords : List Byte → List Word
  | a :: b :: c :: d :: r => word (beNat [a, b, c, d]) :: ergWords r
  | _ => []

/-- A flood is forwarded while its TTL lasts (R451). -/
def floodForward (m : ErgMsg) (o : Nat) (s : State) : State :=
  if 1 < m.ttl && regB s .erg 0x040 3 then
    forEach (fun e t => ergSendTo e { m with ttl := m.ttl - 1 } .copy t) (floodTo s m.src o) s
  else s

/-- Delivers an accepted message to MIR or to the host ring (R440, R451). -/
def ergDeliver (path : Nat) (m : ErgMsg) (s : State) : State :=
  match m.flood with
  | some (o, q) => if floodSeen s o q then s else floodForward m o (hrxPut path m (floodKeep o q s))
  | none =>
    let ws := ergWords m.payload
    let src := Fin.ofNat 4096 m.src
    if m.type = 0x10 then jrnTell (.track src ws) (mirReceive false m.src ws s)
    else if m.type = 0x11 then jrnTell (.trackCancel src ws) (mirReceive true m.src ws s)
    else hrxPut path m s

/-- The message needs a slot of the host ring. -/
def needsSlot (s : State) (m : ErgMsg) : Bool :=
  match m.flood with
  | some (o, q) => !floodSeen s o q
  | none => 0x40 ≤ m.type

/-- A received message (R445, R446): accepted, repeated or stale; none is acknowledged that cannot be delivered. -/
def ergMsgRx (path : Nat) (m : ErgMsg) (s : State) : State :=
  if !ergHeld s || quiescing s .erg then s
  else match nbrFor s m.src with
    | none => s
    | some e =>
      let x := peerOf s m.src
      match (if m.ackReq then seqClass x m else 0) with
      | 1 => ergAckTo path (nbrOf s e) m (bumpReg .erg 0x08C s)
      | 2 => ergAckTo path (nbrOf s e) m (bumpReg .erg 0x088 s)
      | _ =>
        if needsSlot s m && hrxFull s then hrxDrop s
        else if m.ackReq then ergDeliver path m (ergAckTo path (nbrOf s e) m (putPeer m.src (seqAccept x m) s))
        else ergDeliver path m s

/-- A message addressed to this module, by its TYPE (R440, R449). Disabled, ERG still hears the ACKs of what it has accepted
(R631). -/
def ergTake (path mac ip : Nat) (m : ErgMsg) (s : State) : State :=
  if !ergRuns s then (if m.type == 2 && m.dst == fabAddr s && ergFinishes s then ergAck path m s else s)
  else if m.dst != fabAddr s && !(m.type == 1 && m.dst == 0) then bumpReg .erg 0x098 s
  else if m.type = 1 then (if path < 2 then ergHello path mac ip m s else s)
  else if m.type = 2 then (if ergHears s then ergAck path m s else s)
  else if m.type = 0x10 ∨ m.type = 0x11 ∨ (0x40 ≤ m.type ∧ m.type ≤ 0x7F) then ergMsgRx path m s
  else bumpReg .erg 0x098 s

/-- The bytes of a message that a port or the radio hands to ERG (R439, R449, R450). -/
def ergReceive (path mac ip : Nat) (b : List Byte) (s : State) : State :=
  match ergParse b with
  | some m => ergTake path mac ip m s
  | none => if ergRuns s then bumpReg .erg 0x098 s else s

/-- A datagram that fails its checksum or that ERG does not support (R449). -/
def ergBad (s : State) : State := if ergRuns s then bumpReg .erg 0x098 s else s

/-- `HELLO`: one arrives on a port, with its Ethernet and IPv6 source addresses. -/
def execHello (p : Fin 2) (mac ip : Nat) (m : ErgMessage) (s : State) : Out := done s (ergTake p.val mac ip (msgOf m 1) s)

/-- `ERG_ACK`. -/
def execErgAck (path : Fin 3) (m : ErgMessage) (s : State) : Out := done s (ergTake path.val 0 0 (msgOf m 2) s)

/-- `ERG_MSG`. -/
def execErgMsg (path : Fin 3) (type : Nat) (m : ErgMessage) (s : State) : Out := done s (ergTake path.val 0 0 (msgOf m type) s)

/-! ### Sending -/

/-- MIR hands ERG its next message (R448): one to an address without an entry fails lastingly. -/
def ergSend (s : State) : State :=
  match s.mir.out with
  | [] => s
  | m :: r =>
    if !ergAnswers s || quiescing s .erg then s
    else
      let id := m.words.headD 0
      let s1 := used (setReg .erg 0x09C (word (max (regN s .erg 0x09C) (freeN s % 2 ^ 32))) { s with mir := { s.mir with out := r } })
      let msg : ErgMsg := { ackReq := true, flood := none, type := if m.cancel then 0x11 else 0x10, src := 0, dst := m.dst, ttl := 0, session := 0
                            seq := 0, payload := m.words.flatMap (beBytes 4) }
      match nbrFor s m.dst with
      | some e => ergPump (ergSendTo e msg (.mir id m.again) s1)
      | none => ergPump (ergFail { nbr := 0, msg := msg, asker := .mir id m.again } 6 s1)

/-- `ERG_SEND`. -/
def execErgSend (s : State) : Out := done s (ergSend s)

/-- `HTX_TAIL`. -/
def execHtxTail (ini : Ini) (v : Word) (s : State) : Out :=
  done s (admitWrite ini .erg 0x078 v (fun t => ergPump (plainWrite ini .erg 0x078 v t)) s)

/-- A write of `HRX_TAIL` gives slots: the ring is not full any longer. -/
def hrxTailWrite (ini : Ini) (v : Word) (s : State) : State :=
  let s1 := plainWrite ini .erg 0x068 v s
  setRegB .erg 0x044 1 (regB s1 .erg 0x044 1 && hrxFull s1) s1

/-- `HRX_TAIL`. -/
def execHrxTail (ini : Ini) (v : Word) (s : State) : Out := done s (admitWrite ini .erg 0x068 v (hrxTailWrite ini v) s)

/-- `ERG_ACK_TMO`: the k-th unfinished message has no ACK in time: its retry, or its lasting failure (R447). -/
def ergAckTmo (k : Nat) (s : State) : State :=
  match s.erg.out[k]? with
  | none => s
  | some o =>
    let s1 := onErg (fun g => { g with out := g.out.eraseIdx k }) s
    if o.second then ergPump (ergFail o 2 s1) else ergPump (ergAttempt { o with second := true } s1)

/-- `ERG_ACK_TMO`. -/
def execErgAckTmo (k : Nat) (s : State) : Out := done s (if running s .erg then ergAckTmo k s else s)

/-! ### Claiming, HELLOs and paths -/

/-- HELLO on each port that has link. -/
def helloBoth (s : State) : State := helloAll 1 (helloAll 0 s)

/-- A change of MODE (R437, R438, R444, R453). -/
def ergModeSet (m : Nat) (s : State) : State :=
  let old := ergMode s
  if m = 3 ∨ m = old then s
  else
    let s1 := setRegF .erg 0x040 1 0 m s
    if m = 0 then setRegF .erg 0x044 31 28 0 s1
    else if m = 1 then
      let s2 := onErg (fun g => { g with peers := g.peers.foldl (fun l x => spPut (fun _ => ({} : ErgPeer)) x.1 { x.2 with seq := 0 } l) [] })
        (setReg .erg 0x04C (word (nowMs s1)) s1)
      if ergState s = 3 then s2
      else if old = 2 && twinEn s then helloBoth (setRegF .erg 0x044 31 28 2 s2)
      else helloBoth (setRegF .erg 0x044 31 28 1 s2)
    else if ergState s = 3 then s1 else setRegF .erg 0x044 31 28 0 s1

/-- A write of `ERG_CTRL`: a reserved MODE keeps MODE (log 16). -/
def ergCtrlWrite (ini : Ini) (v : Word) (s : State) : State :=
  radioSee (ergModeSet (fld v 1 0) (plainWrite ini .erg 0x040 (setFld v 1 0 (ergMode s)) s))

/-- A write of MODE that keeps the other fields. -/
def ergModeWrite (ini : Ini) (m : Nat) (s : State) : State :=
  let v := setFld (reg s .erg 0x040) 1 0 m
  admitWrite ini .erg 0x040 v (ergCtrlWrite ini v) s

/-- `ERG_MODE_OFF`. -/
def execErgModeOff (ini : Ini) (s : State) : Out := done s (ergModeWrite ini 0 s)
/-- `ERG_MODE_ACTIVE`. -/
def execErgModeActive (ini : Ini) (s : State) : Out := done s (ergModeWrite ini 1 s)
/-- `ERG_MODE_SHADOW`. -/
def execErgModeShadow (ini : Ini) (s : State) : Out := done s (ergModeWrite ini 2 s)

/-- `CLAIM_HELLO`: a claiming HELLO at 200 and 400 ms (R437). -/
def execClaimHello (s : State) : Out := done s (if ergRuns s && ergMode s == 1 && ergState s == 1 then helloBoth s else s)

/-- `CLAIM_END`: after 1,000 ms without a conflict the address is held; address 0x000 never is (R436, R437). -/
def execClaimEnd (s : State) : Out :=
  done s (if ergRuns s && ergMode s == 1 && ergState s == 1 && fabAddr s != 0 then ergPump (setRegF .erg 0x044 31 28 2 s) else s)

/-- `HELLO_INT` (R438, R443): in HELD and in CONFLICT. -/
def execHelloInt (s : State) : Out := done s (if ergRuns s && ergMode s == 1 && (ergState s == 2 || ergState s == 3) then helloBoth s else s)

/-- `ROAD_INT`: a unicast HELLO on each port to every ROAD entry, whatever the path state (R443). -/
def execRoadInt (s : State) : Out :=
  done s (if ergHeld s then
    forEach (fun x t => helloTo 1 x.2 (helloTo 0 x.2 t)) (s.erg.nbrs.filter fun x => x.2.valid && bit x.2.word0 30) s else s)

/-- `PATH_DOWN`: no HELLO of an entry on a port for three intervals (R442). -/
def execPathDown (e : Fin 64) (p : Fin 2) (s : State) : Out := done s (if ergRuns s then setPath e.val p.val false s else s)

/-- A port lost its link: its paths go DOWN at once (R442). -/
def ergLinkDown (p : Nat) (s : State) : State := forEach (fun x t => setPath x.1 p false t) s.erg.nbrs s

/-! ### The neighbour table -/

/-- An entry's address in memory. -/
def nbrAt (s : State) (e : Nat) : Nat := regN s .erg 0x058 + 256 * e

/-- An entry read from its bytes (R441). -/
def nbrRead (s : State) (e : Nat) : ErgNbr :=
  let a := nbrAt s e
  let w0 := mem32 s a
  let t := mem32 s (a + 8)
  let ip := beNat (memRead s (a + 0x10) 16)
  { valid := bit w0 31, word0 := w0, rfPan := fld (mem32 s (a + 4)) 31 16, tag := if bit t 31 then some (fld t 15 0) else none, ipA := ip, ipB := ip
    macA := beNat (memRead s (a + 0x20) 6), macB := beNat (memRead s (a + 0x28) 6), hop := memNat s (a + 0x30) 1 }

/-- A path of an entry is up or usable no longer, or the radio path of the same neighbour has become usable (R442). -/
def pathChanged (s : State) (old new : ErgNbr) (same : Bool) : Bool :=
  ((old.upA || old.upB) && !same) || (radioUsable s old && !(same && radioUsable s new)) || (same && !radioUsable s old && radioUsable s new)

/-- Reloads one entry, `old` before (R441): a second entry with the same ADDR, or one with this module's own, is left invalid. -/
def nbrLoad (e : Nat) (old : ErgNbr) (s : State) : State :=
  let x := nbrRead s e
  let twice := s.erg.nbrs.any fun y => y.1 != e && y.2.valid && nbrAddr y.2 == nbrAddr x
  if x.valid && (twice || nbrAddr x == fabAddr s) then
    (if pathChanged s old {} false then raiseIrq .erg 4 else id) (recErr .erg 0x103 (putNbr e {} s))
  else
    let same := old.valid && x.valid && nbrAddr old == nbrAddr x
    let y := if x.valid then { x with upA := same && old.upA, upB := same && old.upB } else {}
    (if pathChanged s old y same then raiseIrq .erg 4 else id) (putNbr e y s)

/-- A reload of an entry, or of all in index order; the local block is read with it (R441; DEDUCED, log 25). -/
def nbrReload (v : Word) (s : State) : State :=
  let s1 := onErg (fun g => { g with local' := memRead s (regN s .erg 0x058 + 16384) 32 }) s
  if bit v 6 then
    forEach (fun e t => nbrLoad e (nbrOf s e) t) (List.range 64) (onErg (fun g => { g with nbrs := [] }) s1)
  else nbrLoad (fld v 5 0) (nbrOf s (fld v 5 0)) s1

/-- `NBR_RELOAD`. -/
def execNbrReload (ini : Ini) (v : Word) (s : State) : Out := done s (admitWrite ini .erg 0x05C v (nbrReload v) s)

/-- A base must be aligned and lie, with what it holds, in its memory (R441, R452, R458). -/
def ergBaseWrite (ini : Ini) (off align len : Nat) (sramOnly : Bool) (v : Word) (s : State) : State :=
  if v.toNat % align != 0 || !(if sramOnly then inSram v.toNat len else inRam v.toNat len) then
    recErr .erg (if writeTaken .erg off v s then 0x102 else 0x101) s
  else plainWrite ini .erg off v s

/-! ### Radio and records -/

/-- `ERG_RF`: a Caravan ERG frame of another coordinator (R376, R450): a segment; a complete message goes to ERG. -/
def ergRf (pan fc dsn : Nat) (good : Bool) (payload : List Byte) (s : State) : State :=
  let s0 := bumpReg (rfPage s) 0x074 s
  if !crvRuns s then s
  else if !good then s0
  else
    let last := spGet (fun _ => (0, 0, 0)) s.crv.ergFc pan
    if last.1 < fc then
      let s1 := rfAck 0 (onCrv (fun c => { c with ergFc := spPut (fun _ => (0, 0, 0)) pan (fc % 2 ^ 32, dsn % 256, nowMs s) c.ergFc }) s0)
      let seg := beNat (payload.take 1)
      let got := (spGet (fun _ => []) s.crv.ergRx pan).filter (fun x => x.1 != seg / 16) ++ [(seg / 16, payload.drop 1)]
      let all := (List.range (seg % 16 + 1)).map fun i => got.find? fun x => x.1 == i
      if all.all (·.isSome) then
        ergReceive 2 0 0 (all.flatMap fun x => match x with | some y => y.2 | none => [])
          (onCrv (fun c => { c with ergRx := spPut (fun _ => []) pan [] c.ergRx }) s1)
      else onCrv (fun c => { c with ergRx := spPut (fun _ => []) pan got c.ergRx }) s1
    else if fc = last.1 ∧ dsn % 256 = last.2.1 ∧ actDiff (nowMs s) last.2.2 ≤ 8000 then rfAck 0 (bumpReg .crv 0x060 s0)
    else raiseIrq .crv 0 (bumpReg .crv 0x064 s0)

/-- `ERG_RF`. -/
def execErgRf (pan fc dsn : Nat) (good : Bool) (payload : List Byte) (s : State) : Out := done s (ergRf pan fc dsn good payload s)

/-- `REASSEMBLY_TIMEOUT`: an incomplete message of a PAN is discarded (R450). -/
def execReassemblyTimeout (pan : Nat) (s : State) : Out :=
  done s (onCrv (fun c => { c with ergRx := spPut (fun _ => []) pan [] c.ergRx }) s)

/-- `FLOOD_RECORD_EXPIRE`: pairs older than 60 s leave the record (R451). -/
def execFloodRecordExpire (s : State) : Out :=
  done s (onErg (fun g => { g with floods := g.floods.filter fun f => decide (actDiff (nowMs s) f.2.2 < 60000) }) s)

/-! ### Views, quiesce and reset -/

/-- The registers of ERG whose reads are computed (R456). -/
def ergView (s : State) (off : Nat) : Option Word :=
  if off = 0x044 then
    let up := (s.erg.nbrs.filter fun x => x.2.valid && (x.2.upA || x.2.upB)).length
    let back := !s.mir.out.isEmpty || decide (s.erg.host.length < ringGiven s .erg 0x074 0x078 0x07C)
    some (setBit (setFld (reg s .erg 0x044) 22 16 up) 0 (back && ergRuns s))
  else if 0x800 ≤ off ∧ off < 0x900 ∧ off % 4 = 0 then
    let x := nbrOf s ((off - 0x800) / 4)
    some (if x.valid then
      word (b01 x.upA * 2 ^ 31 + b01 x.upB * 2 ^ 30 + b01 (radioUsable s x) * 2 ^ 29 + b01 x.learned * 2 ^ 28 + b01 (bit x.word0 30) * 2 ^ 27 + 2 ^ 26 + nbrAddr x)
      else 0)
  else none

/-- Messages sent and not finished (R454). -/
def ergBusy (s : State) : Bool := !s.erg.out.isEmpty

/-- A message of MIR's is offered again after a block reset, once (R42). -/
def ergGiveBack (o : ErgOut) (s : State) : State :=
  match o.asker with
  | .mir id again =>
    let s1 := recErr .mir errBlockReset s
    if again then mirHoFail id o.msg.dst s1
    else { s1 with mir := { s1.mir with out := s1.mir.out ++ [{ cancel := o.msg.type == 0x11, dst := o.msg.dst, words := (ergWords o.msg.payload).map (·.toNat), again := true }] } }
  | _ => s

/-- A block reset of ERG (R454). -/
def ergDatapath (full : Bool) (s : State) : State :=
  let s1 := htxFlush (s.erg.host.map fun h => { h with left := 0, status := if h.left = 0 then h.status else 4 }) s
  let s2 := forEach ergGiveBack s.erg.out s1
  let s3 := setRegF .erg 0x044 31 28 0 (setRegB .erg 0x044 1 false (setRegF .erg 0x040 1 0 0 s2))
  onErg (fun g => if full then {} else { g with out := [], host := [], peers := [], floods := [], halted := false }) s3

end Sys2Proof.Machine
end

