-- ==== Sys2Proof/Machine/Eth.lean ====
section
/-! DEFINITION. The Ethernet ports: PHY, receive and transmit rings, filters, time-stamps, PAUSE and wake (R412-R434). -/
namespace Sys2Proof.Machine

/-! ### PHY -/

/-- The link is lost (R423, R426, R442): a received pause is cancelled; the paths of ERG go DOWN. -/
def ethUnlink (n : Nat) (s : State) : State :=
  if ethLink s n then
    ergLinkDown n (raiseIrq (ethPage n) 6 (setReg (ethPage n) 0x04C 0 (putEth n { ethOf s n with pause := none } s)))
  else setReg (ethPage n) 0x04C 0 s

/-- Negotiation starts with abilities, and with PAUSE_ADV and MS as they then stand (R413, R430). -/
def ethNegotiate (adv n : Nat) (s : State) : State :=
  let s1 := ethUnlink n s
  putEth n { ethOf s1 n with adv := adv, pauseAdv := regF s1 (ethPage n) 0x048 5 4, ms := regF s1 (ethPage n) 0x048 2 1 } s1

/-- A write of `PHY_CTRL` (R413, R434): PHY_RST keeps the PHY silent, its clearing and RESTART_AN negotiate with the
abilities as they then stand; RESTART_AN clears itself. -/
def phyWrite (ini : Ini) (n : Nat) (v : Word) (s : State) : State :=
  let was := regB s (ethPage n) 0x048 31
  let s1 := plainWrite ini (ethPage n) 0x048 (setBit v 0 false) s
  if bit v 31 then ethUnlink n s1
  else if was || bit v 0 then ethNegotiate (fld v 10 8) n s1
  else s1

/-- `PHY_RST_CLEAR`. -/
def execPhyRstClear (ini : Ini) (n : Fin 2) (s : State) : Out :=
  let v := setBit (reg s (ethPage n) 0x048) 31 false
  done s (admitWrite ini (ethPage n) 0x048 v (phyWrite ini n v) s)

/-- `RESTART_AN`. -/
def execRestartAn (ini : Ini) (n : Fin 2) (v : Word) (s : State) : Out :=
  done s (admitWrite ini (ethPage n) 0x048 (setBit v 0 true) (phyWrite ini n (setBit v 0 true)) s)

/-! ### Queue 0 of transmission -/

/-- A ring halts with a code (R417). -/
def ringHalt (n bitNo code : Nat) (s : State) : State :=
  raiseIrq (ethPage n) 2 (setRegB (ethPage n) 0x044 bitNo true (recErr (ethPage n) code s))

/-- Address of a descriptor of a ring whose base is at `off`. -/
def descAt (s : State) (n off idx : Nat) : Nat := regN s (ethPage n) off + 32 * idx

/-- What reading the next transmit frame comes to (R417, R421, R422). -/
inductive TxRead where
  | frame (f : EthTx)
  | tooLong (descs : Nat)
  | wait
  | bad (code : Nat)
deriving DecidableEq, Repr

/-- Reads descriptors from `idx` until LAST (R421, R422). -/
def txRead (s : State) (n : Nat) : Nat → Nat → Option EthTx → TxRead
  | 0, _, _ => .wait
  | fuel + 1, idx, acc =>
    let z := regN s (ethPage n) 0x094
    if idx = regN s (ethPage n) 0x098 % z then .wait
    else
      let a := descAt s n 0x090 idx
      let w1 := mem32 s (a + 4)
      let len := fld w1 13 0
      let buf := (mem32 s a).toNat
      if !inRam a 32 then .bad 0x103
      else if !bit w1 31 then .bad 0x102
      else if bit w1 30 == acc.isSome then .bad 0x104
      else if !inRam buf len then .bad 0x103
      else
        let w2 := mem32 s (a + 8)
        let f0 : EthTx := acc.getD { bytes := [], descs := 0, stamp := bit w1 28, oneStep := if bit w1 27 then some (fld w2 15 0) else none
                                     tag := if bit w1 26 then some (fld w2 31 16) else none }
        let f : EthTx := { f0 with bytes := if 9018 < f0.bytes.length then f0.bytes else f0.bytes ++ memRead s buf len, descs := f0.descs + 1 }
        if bit w1 29 then (if 9018 < f.bytes.length then .tooLong f.descs else .frame f)
        else txRead s n fuel ((idx + 1) % z) (some f)

/-- Writes transmit descriptors back from HEAD; the last carries the status and the stamp (R421). -/
def txBack (n count status : Nat) (stamp : Option (Nat × Nat)) (s : State) : State :=
  let p := ethPage n
  let z := regN s p 0x094
  let h := regN s p 0x09C
  let s1 := forEach (fun k t =>
    let a := descAt t n 0x090 ((h + k) % z)
    let w1 := setBit (mem32 t (a + 4)) 31 false
    if k + 1 = count then
      let t1 := setMem32 (a + 4) (setFld (setBit w1 24 stamp.isSome) 23 20 status) t
      match stamp with
      | some (sec, ns) => setMem32 (a + 24) (word (sec / 2 ^ 32)) (setMem32 (a + 20) (word (sec % 2 ^ 32)) (setMem32 (a + 16) (word ns) t1))
      | none => t1
    else setMem32 (a + 4) w1 t) (List.range count) s
  setReg p 0x09C (word ((h + count) % z)) s1

/-- Loads the next queue-0 frame into the FIFO; one that is too long is written back at once (R422). Without a link the
descriptors stay with the module (R423). -/
def txLoad (n : Nat) : Nat → State → State
  | 0, s => s
  | fuel + 1, s =>
    let p := ethPage n
    if !accepting s p || !ethLink s n || !regB s p 0x040 1 || regB s p 0x044 5 || (ethOf s n).fifo.isSome
        || (match (ethOf s n).air with | some (some _) => true | _ => false) then s
    else match txRead s n (regN s p 0x094) (regN s p 0x09C) none with
      | .frame f => putEth n { ethOf s n with fifo := some f } s
      | .tooLong d => txLoad n fuel (recErr p 0x105 (txBack n d 2 none s))
      | .wait => s
      | .bad c => ringHalt n 5 c s

/-- The port goes on with queue 0; a ring has at most 4,096 descriptors. -/
def ethPump (n : Nat) (s : State) : State := txLoad n 4096 s

/-! ### The link -/

/-- The port's PHY is powered, also while the port is asleep (R430). -/
def phyOn (s : State) (n : Nat) : Bool := enabled s (ethPage n) && !inReset s (ethPage n) && !regB s (ethPage n) 0x048 31

/-- The 1000BASE-T role of the port (R412, R434): MS as the negotiation took it, else the partner's resolution (DEDUCED,
log 185). -/
def ethMaster (e : Eth) (k : EthPartner) : Bool := k.speed.val == 2 && (e.ms == 1 || (e.ms != 2 && k.master))

/-- `PHY_STAT` of a link with a partner; MDIX_AUTO at 0 fixes MDI (R434). -/
def linkStat (s : State) (n : Nat) (k : EthPartner) : Word :=
  word (2 ^ 31 + k.speed.val * 2 ^ 28 + b01 (ethMaster (ethOf s n) k) * 2 ^ 27 + b01 (k.mdix && regB s (ethPage n) 0x048 3) * 2 ^ 26
    + b01 k.pause * 2 ^ 25 + b01 k.asm * 2 ^ 24)

/-- The partner resolves to a speed and duplex (R412, R413): half duplex gives no link, nor does a speed not advertised. -/
def ethLinkUp (n : Nat) (k : EthPartner) (s : State) : State :=
  if !phyOn s n then s
  else if !k.fullDuplex then setReg (ethPage n) 0x04C 0x10000 (ethUnlink n s)
  else if !(ethOf s n).adv.testBit k.speed then s
  else
    ethPump n (flushPause n (raiseIrq (ethPage n) 6 (setReg (ethPage n) 0x04C (linkStat s n k) s)))

/-- `LINK_UP`. -/
def execLinkUp (n : Fin 2) (k : EthPartner) (s : State) : Out := done s (ethLinkUp n k s)

/-- `LINK_DOWN`. -/
def execLinkDown (n : Fin 2) (s : State) : Out := done s (ethUnlink n s)

/-! ### Filters -/

/-- The hash index of a group address (R425; DEDUCED, log 26). -/
def hashIndex (dst : List Byte) : Nat := nfld (crc32 dst) 31 26

/-- The rule of R424 that takes a destination address, as its MATCH. -/
def ethMatch (s : State) (n : Nat) (dst : List Byte) : Option Nat :=
  let p := ethPage n
  let group := (beNat (dst.take 1)).testBit 0
  let entry := (List.range 32).find? fun e => regB s p (0x104 + 8 * e) 31 && macRegs s p (0x100 + 8 * e) == dst
  let h := hashIndex dst
  if regB s p 0x040 17 then some 0xFD
  else if dst == List.replicate 6 0xFF && regB s p 0x040 15 then some 0xFC
  else if dst == macOf s n then some 0xFB
  else if !group then none
  else match entry with
    | some e => some e
    | none =>
      if regB s p (if h < 32 then 0x200 else 0x204) (h % 32) then some 0xFE
      else if regB s p 0x040 16 then some 0xFF
      else none

/-- The VID filter passes a frame (R415). -/
def vidPass (s : State) (n : Nat) (b : List Byte) : Bool :=
  match tciOf b with
  | none => true
  | some t =>
    !regB s (ethPage n) 0x05C 1 || t % 4096 == 0
      || (List.range 16).any fun v => regB s (ethPage n) (0x240 + 4 * v) 31 && regF s (ethPage n) (0x240 + 4 * v) 11 0 == t % 4096

/-- The frame is a PAUSE (R426), as its time in quanta. -/
def pauseOf (s : State) (n : Nat) (b : List Byte) : Option Nat :=
  if beNat (slice 12 2 b) = 0x8808 && beNat (slice 14 2 b) = 1 && (beNat (b.take 6) = 0x0180C2000001 || b.take 6 == macOf s n) then some (beNat (slice 16 2 b))
  else none

/-- Skips the IPv6 extension headers of a packet: the protocol and the offset they lead to. -/
def ip6Skip (b : List Byte) : Nat → Nat → Nat → Nat × Nat
  | 0, t, o => (t, o)
  | k + 1, t, o =>
    if t = 0 ∨ t = 43 ∨ t = 60 then ip6Skip b k (beNat (slice o 1 b)) (o + 8 * (beNat (slice (o + 1) 1 b) + 1))
    else if t = 44 then ip6Skip b k (beNat (slice o 1 b)) (o + 8)
    else if t = 51 then ip6Skip b k (beNat (slice o 1 b)) (o + 4 * (beNat (slice (o + 1) 1 b) + 2))
    else (t, o)

/-- The UDP datagram of an IP packet: where it starts, with the packet's pseudo-header addresses; `none` for another
protocol. -/
def udpOf (b : List Byte) : Option (Nat × List Byte) :=
  let (o, t) := etherType b
  if t = 0x86DD then
    let (proto, u) := ip6Skip b 8 (beNat (slice (o + 6) 1 b)) (o + 40)
    (if proto = 17 then some (u, slice (o + 8) 32 b) else none)
  else if t = 0x0800 then
    (if beNat (slice (o + 9) 1 b) = 17 then some (o + 4 * (beNat (slice o 1 b) % 16), slice (o + 12) 8 b) else none)
  else none

/-- A PTP event message (R428). -/
def ptpEvent (b : List Byte) : Bool :=
  let (o, t) := etherType b
  let isEvent := fun at' => decide (beNat (slice at' 1 b) % 16 ≤ 3) && decide (at' < b.length)
  if t = 0x88F7 then isEvent o
  else match udpOf b with
    | some (u, _) => beNat (slice (u + 2) 2 b) = 319 && isEvent (u + 8)
    | none => false

/-- The Erg classifier (R433, R449): none where the frame is not an IPv6 UDP datagram to port 47414; the datagram's message
where it is sound; `some none` where extension headers, checksum or length make it bad. -/
def ergClass (b : List Byte) : Option (Option (Nat × Nat × List Byte)) :=
  let (o, t) := etherType b
  if t != 0x86DD then none
  else
    let (proto, u) := ip6Skip b 8 (beNat (slice (o + 6) 1 b)) (o + 40)
    if proto != 17 || beNat (slice (u + 2) 2 b) != 47414 then none
    else
      let len := beNat (slice (u + 4) 2 b)
      let d := slice u len b
      let ok := u == o + 40 && decide (8 ≤ len) && d.length == len && beNat (slice (o + 4) 2 b) == len
        && udpSum (slice (o + 8) 32 b) (patch 6 [0, 0] d) == beNat (slice 6 2 d)
      some (if ok then some (beNat (slice 6 6 b), beNat (slice (o + 8) 16 b), d.drop 8) else none)

/-! ### Receive -/

/-- What filling a frame into the receive ring comes to: the descriptors taken with their byte counts, and whether the frame
fitted, the ring ran out, or a descriptor was bad (its code). -/
inductive RxFill where
  | fits (taken : List (Nat × Nat))
  | short (taken : List (Nat × Nat))
  | bad (taken : List (Nat × Nat)) (code : Nat)
deriving DecidableEq, Repr

/-- Fills `left` bytes from descriptor `idx` (R417-R420); the ring bounds the descriptors. -/
def rxFill (s : State) (n : Nat) : Nat → Nat → Nat → List (Nat × Nat) → RxFill
  | 0, _, _, acc => .short acc
  | fuel + 1, idx, left, acc =>
    let z := regN s (ethPage n) 0x084
    if idx = regN s (ethPage n) 0x088 % z then .short acc
    else
      let a := descAt s n 0x080 idx
      let w1 := mem32 s (a + 4)
      let len := fld w1 13 0
      if !inRam a 32 then .bad acc 0x103
      else if !bit w1 31 then .bad acc 0x102
      else if len = 0 ∨ len % 64 ≠ 0 then .bad acc 0x104
      else if !inRam (mem32 s a).toNat len then .bad acc 0x103
      else if left ≤ len then .fits (acc ++ [(idx, left)])
      else rxFill s n fuel ((idx + 1) % z) (left - len) (acc ++ [(idx, len)])

/-- Stores a frame's bytes into the buffers taken. -/
def rxStore (n : Nat) (b : List Byte) : List (Nat × Nat) → State → State
  | [], s => s
  | x :: r, s => rxStore n (b.drop x.2) r (memWrite (mem32 s (descAt s n 0x080 x.1)).toNat (b.take x.2) s)

/-- What a write-back of a frame tells (R418): status, MATCH, stamp, TCI, and the frame's length. -/
structure RxInfo where
  status : Nat
  mtch : Nat
  stamp : Option (Nat × Nat)
  tci : Option Nat
  len : Nat
deriving DecidableEq, Repr

/-- Writes one receive descriptor back (R418). -/
def rxBackOne (n : Nat) (i : RxInfo) (first last : Bool) (x : Nat × Nat) (s : State) : State :=
  let a := descAt s n 0x080 x.1
  let ts := if last then i.stamp else none
  let tci := if last then i.tci else none
  let w1 := b01 first * 2 ^ 30 + b01 last * 2 ^ 29 + i.status * 2 ^ 25 + b01 ts.isSome * 2 ^ 24 + b01 tci.isSome * 2 ^ 23 + x.2
  let w2 := tci.getD 0 * 65536 + (if last && i.status == 0 then i.len else 0)
  let t := ts.getD (0, 0)
  forEach (fun p u => setMem32 (a + p.1) (word p.2) u)
    [(4, w1), (8, w2), (12, i.mtch), (16, t.2), (20, t.1 % 2 ^ 32), (24, t.1 / 2 ^ 32), (28, 0)] s

/-- Writes a frame's descriptors back, FIRST's last of all, and advances HEAD (R419). -/
def rxBack (n : Nat) (i : RxInfo) (taken : List (Nat × Nat)) (s : State) : State :=
  let k := taken.length
  let s1 := forEach (fun x t => rxBackOne n i (x.2 == 0) (x.2 + 1 == k) x.1 t) taken.zipIdx.reverse s
  match taken.getLast? with
  | none => s
  | some x => setReg (ethPage n) 0x08C (word ((x.1 + 1) % regN s (ethPage n) 0x084)) s1

/-- No buffer for a frame, or for its rest (R420). -/
def rxNoBuf (n : Nat) (s : State) : State := raiseIrq (ethPage n) 3 (bumpReg (ethPage n) 0x0CC s)

/-- A frame for queue 0, with the status its checks give (R415, R418-R420, R428). -/
def rxQueue0 (n mtch status : Nat) (b : List Byte) (s : State) : State :=
  let p := ethPage n
  if !regB s p 0x040 0 || regB s p 0x044 4 then bumpReg p 0x0CC s
  else
    let t0 := s.tb.t0
    let stamp := if regB s p 0x06C 0 && (regB s p 0x06C 1 || ptpEvent b) then some (t0.sec, t0.ns) else none
    let body := if regB s p 0x05C 0 && (tciOf b).isSome then b.take 12 ++ b.drop 16 else b
    let info : RxInfo := { status := status, mtch := mtch, stamp := stamp, tci := tciOf b, len := body.length }
    match rxFill s n (regN s p 0x084) (regN s p 0x08C) body.length [] with
    | .fits l =>
      let s1 := raiseIrq p 0 (rxBack n info l (rxStore n body l s))
      if status = 0 then bumpReg p 0x0C0 s1 else s1
    | .short [] => rxNoBuf n s
    | .short l => rxNoBuf n (raiseIrq p 0 (rxBack n { info with status := 1 } l (rxStore n body l s)))
    | .bad l code => ringHalt n 4 code (rxStore n body l s)

/-- A received PAUSE (R426). -/
def pauseRx (n q : Nat) (s : State) : State :=
  let s1 := bumpReg (ethPage n) 0x0D4 s
  if !regB s (ethPage n) 0x060 0 then s1
  else
    let e := ethOf s1 n
    let start := if e.air.isSome then none else some s.tb.cycles
    raiseIrq (ethPage n) 5 (putEth n { e with pause := if q = 0 then none else some (q, start) } s1)

/-- `PAUSE_RX`. -/
def execPauseRx (n : Fin 2) (q : Fin 65536) (s : State) : Out :=
  done s (if working s (ethPage n) && ethLink s n then pauseRx n q s else s)

/-- `PAUSE_EXPIRE`: the received pause time is over, and transmission resumes (R426). -/
def execPauseExpire (n : Fin 2) (s : State) : Out := done s (putEth n { ethOf s n with pause := none } s)

/-- `XOFF_REPEAT`: half of `PAUSE_TIME` has passed; `fifo` is what the receive FIFO holds (R427). -/
def execXoffRepeat (n : Fin 2) (fifo : Nat) (s : State) : Out :=
  done s (pauseEval true n (putEth n { ethOf s n with rxFifo := fifo } s))

/-! ### Wake -/

/-- A byte of the frame at a set mask bit equals the pattern's (R430). -/
def wakeByte (s : State) (n p : Nat) (b : List Byte) (k : Nat) : Bool :=
  !regB s (ethPage n) (0x600 + 0x10 * p + 4 * (k / 32)) (k % 32)
    || (b[k]?).map (·.toNat) == some (regF s (ethPage n) (0x400 + 0x80 * p + 4 * (k / 4)) (8 * (k % 4) + 7) (8 * (k % 4)))

/-- The 102-byte magic sequence stands at an offset (R430). -/
def magicIn (m b : List Byte) : Bool :=
  let want := List.replicate 6 0xFF#8 ++ (List.replicate 16 m).flatten
  (List.range (b.length + 1)).any fun o => slice o 102 b == want

/-- The wake conditions a frame meets, as `WAKE_STAT` bits (R430). -/
def wakeBits (s : State) (n : Nat) (b : List Byte) : Nat :=
  let c := reg s (ethPage n) 0x300
  b01 (bit c 0 && magicIn (macOf s n) b) + 2 * b01 (bit c 1 && b.take 6 == macOf s n)
    + ((List.range 4).map fun p => b01 (bit c (4 + p) && (List.range 128).all (wakeByte s n p b)) * 2 ^ (4 + p)).sum

/-- A frame at an asleep port is dropped; one that meets a condition wakes it (R430). -/
def ethWake (n : Nat) (b : List Byte) (good : Bool) (s : State) : State :=
  let p := ethPage n
  let w := wakeBits s n b
  if !asleep s p || !regB s p 0x300 31 || !good || w = 0 then s
  else if regB s p 0x304 31 then s
  else
    let f := wordsOf (takePad 128 b)
    raiseIrq p 7 (setReg p 0x304 (word (2 ^ 31 + w)) (forEach (fun x t => setReg p (0x380 + 4 * x.2) x.1 t) f.zipIdx s))

/-- The frame's FCS holds (R414). -/
def fcsGood (frame : List Byte) : Bool :=
  decide (4 ≤ frame.length) && frame.drop (frame.length - 4) == leBytes 4 (crc32 (frame.take (frame.length - 4)))

/-- `WAKE`: a frame, from destination address to FCS, reaches an asleep port. -/
def execWake (n : Fin 2) (frame : List Byte) (s : State) : Out :=
  done s (ethWake n (frame.take (frame.length - 4)) (fcsGood frame) s)

/-- A frame that fails its length or its FCS (R414, R419): it is counted, and where it had taken buffers they are returned
with its status; whether it had is open. -/
def rxFailed (n status : Nat) (b : List Byte) (s : State) : State :=
  let s1 := used (bumpReg (ethPage n) (if status = 3 then 0x0C8 else 0x0C4) s)
  match ethMatch s n (b.take 6) with
  | some k => if freeN s % 2 = 1 && regB s (ethPage n) 0x040 0 then rxQueue0 n k status (b.take (regF s (ethPage n) 0x058 13 0)) s1 else s1
  | none => s1

/-- A received frame, from destination address to FCS (R414, R415, R424, R426, R431, R449). -/
def ethRx (n : Nat) (frame : List Byte) (s : State) : State :=
  let p := ethPage n
  let b := frame.take (frame.length - 4)
  if asleep s p then ethWake n b (fcsGood frame) s
  else if !working s p || !ethLink s n then s
  else if quiescing s p then bumpReg p 0x0D0 s
  else if decide (frame.length < 64) || decide (regF s p 0x058 13 0 < frame.length) then rxFailed n 3 b s
  else if !fcsGood frame then rxFailed n 2 b s
  else match pauseOf s n b with
    | some q => pauseRx n q s
    | none =>
      match ethMatch s n (b.take 6) with
      | none => bumpReg p 0x0D0 s
      | some k =>
        if !vidPass s n b then bumpReg p 0x0D0 s
        else match (if regB s p 0x040 20 then ergClass b else none) with
          | some (some m) => ergReceive n m.1 m.2.1 m.2.2 s
          | some none => ergBad s
          | none => rxQueue0 n k 0 b s

/-- `RX_FRAME`; `fifo` is what the receive FIFO then holds (R427). -/
def execRxFrame (n : Fin 2) (frame : List Byte) (fifo : Nat) (s : State) : Out :=
  done s (pauseEval false n (ethRx n frame (putEth n { ethOf s n with rxFifo := fifo } s)))

/-! ### Transmit -/

/-- `TXR_TAIL`. -/
def execTxrTail (ini : Ini) (n : Fin 2) (v : Word) (s : State) : Out :=
  done s (admitWrite ini (ethPage n) 0x098 v (fun t => ethPump n (plainWrite ini (ethPage n) 0x098 v t)) s)

/-- `RXR_TAIL`. -/
def execRxrTail (ini : Ini) (n : Fin 2) (v : Word) (s : State) : Out :=
  done s (admitWrite ini (ethPage n) 0x088 v (fun t => pauseEval false n (plainWrite ini (ethPage n) 0x088 v t)) s)

/-- The UDP checksum of a frame made right again; an IPv4 datagram without one stays so (R429). -/
def fixUdp (b : List Byte) : List Byte :=
  match udpOf b with
  | none => b
  | some (u, addrs) =>
    if addrs.length = 8 ∧ beNat (slice (u + 6) 2 b) = 0 then b
    else
      let z := patch (u + 6) [0, 0] b
      patch (u + 6) (beBytes 2 (udpSum addrs (slice u (beNat (slice (u + 4) 2 b)) z))) z

/-- The one-step correction at a stamp (R429); none for a message of another type. -/
def oneStepFix (off sec ns : Nat) (b : List Byte) : Option (List Byte) :=
  match beNat (slice off 1 b) % 16 with
  | 0 => some (fixUdp (patch (off + 34) (beBytes 6 sec ++ beBytes 4 ns) b))
  | 3 =>
    let c := beNat (slice (off + 8) 8 b) + (sec * 1000000000 + ns) % 2 ^ 48 * 65536
    some (fixUdp (patch (off + 8) (beBytes 8 (c % 2 ^ 64)) b))
  | _ => none

/-- A queue-0 frame as it leaves, stamped (R415, R428, R429). -/
def txStart (n : Nat) (f : EthTx) (s : State) : State :=
  let t := s.tb.t0
  let fixed := match f.oneStep with
    | none => some f.bytes
    | some off => oneStepFix off t.sec t.ns f.bytes
  let s1 := if fixed.isSome then s else recErr (ethPage n) 0x106 s
  let b := fixed.getD f.bytes
  let b1 := match f.tag with | some c => b.take 12 ++ vlanTag c ++ b.drop 12 | none => b
  putEth n { ethOf s1 n with fifo := none, air := some (some (f, t.sec, t.ns)) } (send (.eth n (ethWire b1)) s1)

/-- A frame starts (R422, R423, R426): the Erg queue goes ahead of queue 0; nothing starts without a link, while paused or
while a frame is in transmission. -/
def txFrameStart (n : Nat) (s0 : State) : State :=
  let s := ethPump n s0
  let e := ethOf s n
  if !working s (ethPage n) || quiesced s (ethPage n) || !ethLink s n || ethPaused s n || e.air.isSome then s
  else match e.erg with
    | f :: r => if quiescing s (ethPage n) then s else putEth n { e with erg := r, air := some none } (send (.eth n f) s)
    | [] => match e.fifo with
      | some f => if quiescing s (ethPage n) then s else txStart n f s
      | none => s

/-- `TX_FRAME_START`. -/
def execTxFrameStart (n : Fin 2) (s : State) : Out := done s (txFrameStart n s)

/-- The last bit has left (R423, R426): descriptors and stamp are written back; a pause received meanwhile starts. -/
def txDone (n : Nat) (s : State) : State :=
  let p := ethPage n
  let e := ethOf s n
  match e.air with
  | none => s
  | some x =>
    let pz := match e.pause with | some (q, none) => some (q, some s.tb.cycles) | y => y
    let s1 := bumpReg p 0x0D8 (putEth n { e with air := none, pause := pz } s)
    let s2 := match x with
      | none => s1
      | some (f, sec, ns) =>
        let st := if f.stamp && regB s p 0x06C 0 then some (sec, ns) else none
        let s3 := raiseIrq p 1 (txBack n f.descs 0 st s1)
        if st.isSome then raiseIrq p 4 s3 else s3
    ethPump n (flushPause n s2)

/-- `TX_DONE`. -/
def execTxDone (n : Fin 2) (s : State) : Out := done s (txDone n s)

/-! ### Registers, sleep and reset -/

/-- A write of `ETH_CTRL`: TX_EN runs the ring. -/
def ethCtrlWrite (ini : Ini) (n : Nat) (v : Word) (s : State) : State := ethPump n (plainWrite ini (ethPage n) 0x040 v s)

/-- A write of `PAUSE_CTRL` or `PAUSE_WM` (R427). -/
def ethPauseWrite (ini : Ini) (n off : Nat) (v : Word) (s : State) : State := pauseEval false n (plainWrite ini (ethPage n) off v s)

/-- The port has gone to sleep (R430): with LP_100 it renegotiates with 100BASE-TX alone. -/
def ethSleep (n : Nat) (s : State) : State :=
  if regB s (ethPage n) 0x300 31 && regB s (ethPage n) 0x300 8 && !regB s (ethPage n) 0x048 31 then
    ethNegotiate 2 n (putEth n { ethOf s n with lowPower := true } s) else s

/-- The port is awake again (R430): after LP_100 it renegotiates with its full abilities. -/
def ethAwake (n : Nat) (s : State) : State :=
  if (ethOf s n).lowPower then
    let s1 := putEth n { ethOf s n with lowPower := false } s
    if regB s1 (ethPage n) 0x048 31 then s1 else ethNegotiate (regF s1 (ethPage n) 0x048 10 8) n s1
  else s

/-- A frame in transmission is accepted work (R431). -/
def ethBusy (s : State) (n : Nat) : Bool := (ethOf s n).air.isSome

/-- A block reset of a port (R413, R431): given transmit descriptors are written back with ABORTED, HEAD goes to TAIL on
both rings, halts clear, PHY_RST sets. -/
def ethDatapath (n : Nat) (s : State) : State :=
  let p := ethPage n
  let given := ringGiven s p 0x094 0x098 0x09C
  let h := regN s p 0x09C
  let s1 := forEach (fun k t =>
    let a := descAt t n 0x090 ((h + k) % regN s p 0x094) + 4
    setMem32 a (setFld (setBit (mem32 t a) 31 false) 23 20 1) t) (List.range given) s
  let s2 := setReg p 0x09C (word (regN s p 0x098 % regN s p 0x094)) (setReg p 0x08C (word (regN s p 0x088 % regN s p 0x084)) s1)
  let s3 := setRegB p 0x048 31 true (setReg p 0x044 0 s2)
  let s4 := ethUnlink n s3
  putEth n {} s4

end Sys2Proof.Machine
end

