-- ==== Sys2Proof/Machine/Pixb.lean ====
section
/-! DEFINITION. Pixel streaming and the end of every forward phase (R162, R172, R176, R205-R211, R400). -/
namespace Sys2Proof.Machine

/-! ### Groups -/

/-- A swap group. -/
def pixGroup (s : State) (g : Nat) : PixGroup := spGet (fun _ => {}) s.pix g

/-- Sets a swap group. -/
def putGroup (g : Nat) (x : PixGroup) (s : State) : State := { s with pix := spPut (fun _ => {}) g x s.pix }

/-- `SWAP_GRP` of a line (R188). -/
def swapGroup (s : State) (n : Nat) : Nat := regF s (linePage n) 0x080 10 8

/-- The running pixel lines of a group (R206). -/
def groupLines (s : State) (g : Nat) : List Nat := (List.range 64).filter fun n => lineRun s n && linePixel s n && swapGroup s n == g

/-- The time of a base, as the trigger units compare it. -/
def baseNow (s : State) (b : Nat) : Nat := trgTime (tbOf s.tb (Fin.ofNat 4 b))

/-- The armed trigger units that name a group and have an instant left (R81, R207). -/
def swapUnits (s : State) (g : Nat) : List Nat :=
  (List.range 16).filter fun u => trgEn s u && trgTarget s u == 0x80 + g && trgHas s u

/-- The next instant of a unit: its base and its time there. -/
def unitSwap (s : State) (u : Nat) : Nat × Nat := (regF s .ttrig (0x100 + 0x20 * u) 5 4, trgInstant s u (trgOf s u).next)

/-- How far ahead an instant is, ns. -/
def swapRest (s : State) (x : Nat × Nat) : Int := (x.2 : Int) - baseNow s x.1

/-- The lead of a line in µs: `GRP_LEAD_g`, raised to its largest stored driver delay plus 10 µs (R207). -/
def leadUs (s : State) (n : Nat) : Nat :=
  let d := max (lineOf s n).told (listMax ((lineOf s n).delays.map fun x => x.2.getD 0))
  max (regN s .pixb (0x100 + 0x20 * swapGroup s n)) (if d = 0 then 0 else (d + 999) / 1000 + 10)

/-- The bit times of a PDATA frame; with its return phase and turnaround (the figures of R181 and the bandwidth table). -/
def pdataBits (count : Nat) (ret : Bool) : Nat :=
  8 + 176 + 48 * count + 24 + (if ret then 2 * (count - 1) + 16 + 18 * count + 5 else 0)

/-- The start of a line's PDATA for an instant: S - L - F - 2 µs, in the time of the instant's base (R208). -/
def pdataStart (s : State) (n inst : Nat) (ret : Bool) : Int :=
  (inst : Int) - 1000 * leadUs s n - 80 * pdataBits (pixCount s n) ret - 2000

/-- No start falls before the last instant served (R208). -/
def startFits (s : State) (n : Nat) (x : Nat × Nat) (ret : Bool) : Bool :=
  match (pixGroup s (swapGroup s n)).served with
  | none => true
  | some a => decide ((a.2 : Int) + baseNow s x.1 - baseNow s a.1 ≤ pdataStart s n x.2 ret)

/-- The number of a line's swap period for an instant. -/
def periodOf (s : State) (n : Nat) (x : Nat × Nat) : Nat :=
  if (lineOf s n).counted = some x then (lineOf s n).periods else (lineOf s n).periods + 1

/-- A return is requested in the period of an instant: every `PIX_RET_N`-th (R210). -/
def retWanted (s : State) (n : Nat) (x : Nat × Nat) : Bool :=
  let rn := regF s (linePage n) 0x080 23 16
  rn != 0 && periodOf s n x % rn == 0

/-- The PDATA for an instant carries RET: requested, and it fits (R210). -/
def retGoes (s : State) (n : Nat) (x : Nat × Nat) : Bool := retWanted s n x && startFits s n x true

/-- The instant is skipped for the whole group (R209). -/
def swapSkipped (s : State) (g : Nat) (x : Nat × Nat) : Bool := (groupLines s g).any fun n => !startFits s n x false

/-- The first time of a base at which an instant is far enough from the last one that the group served, for all its lines (R209). -/
def swapFloor (s : State) (g b : Nat) : Int :=
  match (pixGroup s g).served with
  | none => 0
  | some a => ((a.2 : Int) + baseNow s b - baseNow s a.1)
      + listMax ((groupLines s g).map fun n => 1000 * leadUs s n + 80 * pdataBits (pixCount s n) false + 2000)

/-- The next instant of a unit that its group serves: the first one not skipped, by R209's least whole number of periods; none where
the unit has none left. -/
def unitServes (s : State) (g u : Nat) : Option (Nat × Nat) :=
  let x := unitSwap s u
  let p := regN s .ttrig (0x10C + 0x20 * u)
  let c := regN s .ttrig (0x110 + 0x20 * u)
  let short := (swapFloor s g x.1 - x.2).toNat
  let k := if p = 0 then 0 else (short + p - 1) / p
  if (p = 0 && short != 0) || (c != 0 && decide (c ≤ (trgOf s u).fired + k)) then none else some (x.1, x.2 + k * p)

/-- The next instant that a group serves: the earliest of those of the armed trigger units that name it, whatever base they run on
(R207, R209). -/
def nextSwap (s : State) (g : Nat) : Option (Nat × Nat) :=
  match (swapUnits s g).filterMap (unitServes s g) with
  | [] => none
  | a :: l => some (l.foldl (fun m x => if swapRest s x < swapRest s m then x else m) a)

/-- An instant of which less than L + 20 µs was left when its unit was armed is missed on the line (R207). -/
def lateAtArming (s : State) (n since inst : Nat) : Bool := decide (inst < since + 1000 * leadUs s n + 20000)

/-- An instant is among those of a unit. -/
def unitHits (s : State) (u : Nat) (x : Nat × Nat) : Bool :=
  let a := unitSwap s u
  let p := regN s .ttrig (0x10C + 0x20 * u)
  a.1 == x.1 && decide (a.2 ≤ x.2) && (if p = 0 then a.2 == x.2 else (x.2 - a.2) % p == 0)

/-- An instant of which less than L + 20 µs was left when its unit was armed, or of which less than L is left now, is missed on
the line (R207). -/
def knownLate (s : State) (n : Nat) (x : Nat × Nat) : Bool :=
  decide (swapRest s x < 1000 * leadUs s n) ||
    !(swapUnits s (swapGroup s n)).any fun u => unitHits s u x && !lateAtArming s n (trgOf s u).since x.2

/-- The address of a line's buffer A or B (R205, R213). -/
def pixBuf (s : State) (n : Nat) (b : Bool) : Nat := regN s .pixb ((if b then 0x404 else 0x400) + 0x10 * n)

/-- A write of `GRP_COMMIT_g` (R205, R206). -/
def grpCommit (g : Nat) (v : Word) (s : State) : State :=
  let x := pixGroup s g
  let b := bit v 16
  let ls := groupLines s g
  if ls.isEmpty then recErr .pixb 0x102 s
  else if x.wait.isSome || (if b then x.busyB else x.busyA) then recErr .pixb 0x100 s
  else if ls.any fun n => pixBuf s n b % 64 != 0 || !inDram (pixBuf s n b) (6 * pixCount s n) then recErr .pixb 0x101 s
  else putGroup g { x with wait := some (b, fld v 15 0, (List.range 4).map (baseNow s)), sentOn := [], busyA := x.busyA || !b, busyB := x.busyB || b } s

/-- `GRP_COMMIT`. -/
def execGrpCommit (ini : Ini) (g : Fin 8) (v : Word) (s : State) : Out :=
  done s (admitWrite ini .pixb (0x104 + 0x20 * g.val) v (workRequest .pixb (grpCommit g.val v)) s)

/-! ### PDATA and PSWAP -/

/-- The slots of a PDATA frame: R, G and B of each pixel, most significant bit first (R176, R205). -/
def pixSlots (s : State) (n : Nat) (b : Bool) : List Byte :=
  (List.range (3 * pixCount s n)).flatMap fun k => beBytes 2 (memNat s (pixBuf s n b + 2 * k) 2)

/-- TB0 at a sync edge that goes out now (R157). -/
def edgeTime (s : State) : Nat × Nat := (nowMs s, tbNs s.tb.t0 / 1000 % 1000)

/-- A PDATA frame. -/
def pdataFrame (s : State) (n : Nat) (buf : Bool × Nat) (ret : Bool) : LFrame :=
  let (ms, us) := edgeTime s
  { ftype := 4, ret := ret, count := pixCount s n, slots := pixSlots s n buf.1, buf := some buf, pts := fixPts s n
    head := frameHead 4 ret (cycOf s n) (pixCount s n) ms us [0, 0, 0, 0] }

/-- A line of pixels can send now. -/
def pixSends (s : State) (n : Nat) : Bool :=
  lineSends s n && linePixel s n && (serves s .pixb || (running s .pixb && (pixGroup s (swapGroup s n)).wait.isSome)) && !pairBusy s n && !idleMode s

/-- The group's commit was made at least 20 µs before the start of every line of the group, whose frame counts its return where
it carries one (R208). -/
def commitInTime (s : State) (g : Nat) (x : Nat × Nat) (at' : List Nat) : Bool :=
  (groupLines s g).all fun n => decide ((at'.getD x.1 0 : Int) + 20000 ≤ pdataStart s n x.2 (retGoes s n x))

/-- A commit misses an instant: LATE is set and counted (R208). -/
def commitLate (g : Nat) (i : Nat × Nat) (s : State) : State :=
  let x := pixGroup s g
  if x.late = some i then s
  else raiseIrq .pixb g (bumpRegF .pixb (0x10C + 0x20 * g) 31 16 (setRegB .pixb (0x108 + 0x20 * g) 2 true (putGroup g { x with late := some i } s)))

/-- An instant is skipped: MISS counts it, SKIP sets (R209). -/
def markSkipped (g : Nat) (i : Nat × Nat) (s : State) : State :=
  let x := pixGroup s g
  if x.skipped = some i then s
  else bumpRegF .pixb (0x10C + 0x20 * g) 15 0 (setRegB .pixb (0x108 + 0x20 * g) 4 true (putGroup g { x with skipped := some i, afterSkip := true } s))

/-- An instant is missed on a line: MISS counts the instant once (R207). -/
def markMissed (g : Nat) (i : Nat × Nat) (s : State) : State :=
  let x := pixGroup s g
  if x.missed = some i then s
  else bumpRegF .pixb (0x10C + 0x20 * g) 15 0 (putGroup g { x with missed := some i } s)

/-- The buffer a line's PDATA carries for an instant, and the state in which a late commit has been counted (R208); LATE still shows
at the instant that the late commit is carried for (log 166). -/
def choosePix (n g : Nat) (i : Nat × Nat) (s : State) : Option (Bool × Nat) × State :=
  match (pixGroup s g).wait with
  | some (b, tag, t) =>
    if commitInTime s g i t then (some (b, tag), s)
    else ((lineOf s n).lastBuf, commitLate g i s)
  | none => ((lineOf s n).lastBuf, s)

/-! ### PCFG and NUPD frames -/

/-- A NUPD frame or a PCFG waits on a pixel line (R211, R400). -/
def nupdWaits (s : State) (n : Nat) : Bool := nuRuns s && nuSends s && nuState s == 3 && !(spGet (fun _ => []) s.nupd.queue n).isEmpty

/-- A driver's slot would carry a command or a setting; one without a SEQ history is first asked with NOP (R196). -/
def driverNeeds (s : State) (n p : Nat) : Bool :=
  let x := lposOf s n p
  !x.failed && (match segOf s n p with
    | some i => !x.queue.isEmpty || !x.revokes.isEmpty || x.setting.isSome || (nextSetting s n p i x).isSome
    | none => false)

/-- The targets of a campaign on a line. -/
def nuOnLine (s : State) (n : Nat) : List NuTarget := s.nupd.targets.filter fun t => nuOpen t && nuLine s t == some n

/-- The drivers of a pixel line's targets are to be asked for their progress (R398): in every fourth return phase that is made, and once
the line's pass of a round is over (DEDUCED, log 183). -/
def pixAsks (s : State) (n : Nat) : Bool :=
  nuRuns s && !(nuOnLine s n).isEmpty
    && (decide (spGet (fun _ => 0) s.nupd.pixAsked n + 4 ≤ spGet (fun _ => 0) s.nupd.rets n + 1)
      || (nuState s == 3 && (spGet (fun _ => []) s.nupd.queue n).isEmpty))

/-- A PCFG frame waits: a firmware frame's, a driver's command or setting (R211), or a question of a campaign to its drivers (R398,
R405). -/
def pcfgWaits (s : State) (n : Nat) : Bool :=
  (fwAsked (lineOf s n)).isSome
    || (ptReady s && (pixAsks s n || (nuOnLine s n).any (nuChecks s) || (List.range (pixCount s n)).any (driverNeeds s n)))

/-- A swap period passes for the frames that wait (R211, R400); a PCFG that no longer waits has waited for nothing. -/
def pixWaits (n : Nat) (s : State) : State :=
  let s1 := putLine' n { lineOf s n with pcfgWait := if pcfgWaits s n then (lineOf s n).pcfgWait + 1 else 0 } s
  if nupdWaits s1 n then
    let k := spGet (fun _ => 0) s1.nupd.noRoom n + 1
    let s2 := { s1 with nupd := { s1.nupd with noRoom := spPut (fun _ => 0) n k s1.nupd.noRoom } }
    if k = 64 then raiseIrq .nupd 4 (setRegB .nupd 0x044 0 true s2) else s2
  else s1

/-- The selector of a driver's NOP (R398, R405). -/
def pixSelector (s : State) (n i : Nat) : Nat :=
  match nuTarget s i with
  | none => 0
  | some t => if nuChecks s t then 4 else if nuOpen t && pixAsks s n then 5 + spGet (fun _ => 0) s.nupd.pixAsked n % 2 else 0

/-- The drivers of a line have been asked: the next question is for the other selector. -/
def pixAsked (n : Nat) (s : State) : State :=
  if pixAsks s n then
    let a := spGet (fun _ => 0) s.nupd.rets n + 1
    let b := spGet (fun _ => 0) s.nupd.pixAsked n
    { s with nupd := { s.nupd with pixAsked := spPut (fun _ => 0) n (if a % 2 = b % 2 then a + 1 else a) s.nupd.pixAsked } }
  else s

/-- One slot of a PCFG frame (R179, R198, R211); a driver of no served segment gets NOP (R98, R186). -/
def fixDriver (n ms : Nat) (p : Nat) (f : Fix) : Fix :=
  let s := f.st
  let x := lposOf s n p
  let put := fun (g : Fix) (w : Nat) => { g with slots := g.slots ++ beBytes 6 w }
  match segIn s f.pts p with
  | none => put f (pcfgSlot 0 0 0)
  | some i =>
    let dsel := pixSelector s n i
    if x.hist.isNone || x.failed then put f (pcfgSlot 0 0 dsel)
    else
      let r := firstFit ms 1 f.acts (pickCmds { x with setting := none } false)
      let g := { f with st := forEach (fun _ t => bumpReg (linePage n) 0x0BC t) (List.range r.2) s }
      match r.1 with
      | some (c, _, acts) =>
        let y := { x with setting := none }
        { g with st := putLpos n p y g.st, acts := acts }.fill p y c (beBytes 6 (pcfgSlot c.op (seqFor y c) c.arg))
      | none => match settingCmd n p i g.st with
        | none => put g (pcfgSlot 0 0 dsel)
        | some c => { g with st := idTaken g.st }.fill p x c (beBytes 6 (pcfgSlot c.op (seqFor x c) c.arg))

/-- The slots of a PCFG frame. -/
def fixDrivers (n ms : Nat) : List Nat → Fix → Fix
  | [], f => f
  | p :: ps, f => fixDrivers n ms ps (fixDriver n ms p f)

/-- The PCFG frame a line sends (R179).  A PCFG slot has no selector: ACT0 carries its one offset (DESIGN CHOICE,
log 12). -/
def pcfgFrame (n : Nat) (s : State) : LFrame × State :=
  let f := fixDrivers n (syncTime s).1 (List.range (pixCount s n)) { st := s, pts := fixPts s n, acts := [] }
  (fixedFrame n 5 true (pixCount s n) s f, f.st)

/-- The PCFG that waits is sent: a firmware frame, or the drivers' commands and settings (R203, R211). -/
def pcfgSend (n : Nat) (s : State) : State :=
  let s1 := putLine' n { lineOf (fixLook n s) n with pcfgWait := 0 } (fixLook n s)
  match fwAsked (lineOf s1 n) with
  | some (dsel, count) => lineSend n (fwFrame n dsel count s1) s1
  | none => let (f, s2) := pcfgFrame n s1; lineSend n f (pixAsked n s2)

/-- The next chunk of a line goes on the wire as a NUPD frame (R399); TX_CNT counts it. -/
def nupdSend (n : Nat) (s : State) : State :=
  match spGet (fun _ => []) s.nupd.queue n with
  | [] => s
  | chunk :: rest =>
    let (ms, us) := edgeTime s
    let s1 := { s with nupd := { s.nupd with queue := spPut (fun _ => []) n rest s.nupd.queue, cycles := spPut (fun _ => 0) n 0 s.nupd.cycles, noRoom := if spGet (fun _ => 0) s.nupd.noRoom n < 64 then spPut (fun _ => 0) n 0 s.nupd.noRoom else s.nupd.noRoom } }
    wireSend n { ftype := 8, head := frameHead 8 false (cycOf s n) 0 ms us [0, 0, 0, 0], slots := nuBody s chunk, chunk := some chunk } (bumpRegF .nupd 0x06C 15 0 s1)

/-- The bit times of a PCFG frame with its return phase, whose slots have 64 bits (R155, R179, R181). -/
def pcfgBits (count : Nat) : Nat := 8 + 176 + 48 * count + 8 + (2 * (count - 1) + 16 + 66 * count + 5)

/-- The bit times of a NUPD frame: 520 body bytes (R399). -/
def nupdBits : Nat := 8 + 176 + 8 * 520 + 8

/-- A frame of so many bit times fits between now and what the line sends next for its group's next instant: its PDATA, or its PSWAP
where it has no picture to send (R211). -/
def placeFits (s : State) (n bits : Nat) : Bool :=
  let g := swapGroup s n
  match nextSwap s g with
  | none => true
  | some i =>
    let start := if (lineOf s n).lastBuf.isSome || (pixGroup s g).wait.isSome then pdataStart s n i.2 (retGoes s n i)
      else (i.2 : Int) - 1000 * leadUs s n
    decide ((baseNow s i.1 : Int) + 80 * bits ≤ start)

/-- The COUNT of the PCFG that waits. -/
def pcfgCount (s : State) (n : Nat) : Nat := match fwAsked (lineOf s n) with | some (_, count) => count | none => pixCount s n

/-- `PCFG_PLACE`: a waiting firmware frame, settings or a NUPD frame is placed between the PDATA frames, where it fits (R203, R211,
R400). -/
def pcfgPlace (n : Nat) (s : State) : State :=
  if !pixSends s n then s
  else if pcfgWaits s n && placeFits s n (pcfgBits (pcfgCount s n)) then pcfgSend n s
  else if nupdWaits s n && placeFits s n nupdBits then nupdSend n s
  else s

/-- `PCFG_PLACE`. -/
def execPcfgPlace (n : Fin 64) (s : State) : Out := done s (pcfgPlace n.val s)

/-! ### PDATA and PSWAP on the wire -/

/-- `PDATA_START`: the PDATA frame of a line for the group's next instant (R208-R210), or in its place the PCFG that has waited
eight periods (R211). -/
def pdataStartNow (n : Nat) (s : State) : State :=
  if !pixSends s n then s
  else
    let g := swapGroup s n
    match nextSwap s g with
    | none => s
    | some i =>
      let want := retWanted s n i
      let fits := startFits s n i true
      let s1 := putLine' n { lineOf s n with periods := periodOf s n i, counted := some i }
        (if want then setRegB (linePage n) 0x084 8 (!fits) s else s)
      if decide (8 ≤ (lineOf s1 n).pcfgWait) && pcfgWaits s1 n then pcfgSend n s1
      else
        let (b, s2) := choosePix n g i s1
        match b with
        | none => s2
        | some buf => lineSend n (pdataFrame s2 n buf (want && fits)) (fixLook n s2)

/-- A line's command tells the largest delay that its drivers store from before, beside those that ranging gave since (R207;
DESIGN CHOICE, log 65). -/
def tellDelay (n delay : Nat) (s : State) : State := putLine' n { lineOf s n with told := max (lineOf s n).told delay } s

/-- `PDATA_START`. -/
def execPdataStart (n : Fin 64) (delay : Nat) (s : State) : Out := done s (pdataStartNow n.val (tellDelay n.val delay s))

/-- `KEEPALIVE`: a line resends its last sent buffer (R208). -/
def execKeepalive (n : Fin 64) (s : State) : Out :=
  done s (if pixSends s n.val then match (lineOf s n.val).lastBuf with
      | some buf => lineSend n.val (pdataFrame s n.val buf false) s
      | none => s
    else s)

/-- The PSWAP frame: header only, ACT0 the lead in µs (R178). -/
def pswapFrame (s : State) (n : Nat) : LFrame :=
  let (ms, us) := edgeTime s
  { ftype := 6, head := frameHead 6 false (cycOf s n) 0 ms us [leadUs s n, 0, 0, 0] }

/-- `PSWAP`: at S - L the frame is sent, unless the instant was known too late, which counts it as missed (R207).  It is no retry of
a frame that a block reset ended: the next PDATA or PCFG is (R43). -/
def pswapNow (n : Nat) (s : State) : State :=
  if !pixSends s n then s
  else
    match nextSwap s (swapGroup s n) with
    | none => s
    | some i => if knownLate s n i then markMissed (swapGroup s n) i s else wireSend n (pswapFrame s n) s

/-- `PSWAP`. -/
def execPswap (n : Fin 64) (delay : Nat) (s : State) : Out := done s (pswapNow n.val (tellDelay n.val delay s))

/-- A swap instant becomes known: it is missed at once on a line that is given less than L + 20 µs (R207). -/
def swapKnown (g : Nat) (i : Nat × Nat) (s : State) : State :=
  if (groupLines s g).any fun n => knownLate s n i then markMissed g i s else s

/-- The instant of the late commit has passed: LATE stays for the instant that shows the commit, and clears at the one served after
(R208; DESIGN CHOICE, log 166). -/
def lateOver (g : Nat) (i : Nat × Nat) (s : State) : State :=
  let x := pixGroup s g
  match x.late with
  | some j => if j = i then s else putGroup g { x with late := none } s
  | none => setRegB .pixb (0x108 + 0x20 * g) 2 false s

/-- A commit that waits and was not made in time for the instant that is served now is late (R208). -/
def lateServe (g : Nat) (i : Nat × Nat) (s : State) : State :=
  match (pixGroup s g).wait with
  | some (_, _, t) => if commitInTime s g i t then s else commitLate g i s
  | none => s

/-- The swap instant is served (R213): SHOWN_TAG, SWAP_DONE, and SKIP where no skip preceded (R209). -/
def swapServe (g : Nat) (i : Nat × Nat) (s0 : State) : State :=
  let s := lateOver g i (lateServe g i s0)
  let x := pixGroup s g
  let s1 := match x.cur with
    | some (_, tag) => setRegF .pixb (0x108 + 0x20 * g) 31 16 tag s
    | none => s
  let s2 := if x.afterSkip then s1 else setRegB .pixb (0x108 + 0x20 * g) 4 false s1
  raiseIrq .pixb (8 + g) (putGroup g { x with served := some i, afterSkip := false } s2)

/-- The swap instant (R207, R209, R213): a skipped one, or one missed on every line, shows nothing; one missed on a line counts.  A
swap period of each line has passed (R211, R400). -/
def pixSwap (g : Nat) (i : Nat × Nat) (since : Nat) (s0 : State) : State :=
  let s := forEach pixWaits (groupLines s0 g) s0
  let ls := groupLines s g
  let late := fun n => lateAtArming s n since i.2
  if !serves s .pixb || (pixGroup s g).skipped = some i then s
  else if swapSkipped s g i then markSkipped g i s
  else
    let s1 := if ls.any late then markMissed g i s else s
    if !ls.isEmpty && ls.all late then s1 else swapServe g i s1

/-- A line has sent its PDATA: when every line of the group has sent the commit, the other buffer is free (R206). -/
def pixSent (n : Nat) (f : LFrame) (s : State) : State :=
  match f.buf with
  | none => s
  | some (b, tag) =>
    let g := swapGroup s n
    let x := pixGroup s g
    let s1 := putLine' n { lineOf s n with lastBuf := some (b, tag) } s
    match x.wait with
    | none => s1
    | some (wb, wt, _) =>
      if wb = b ∧ wt = tag then
        let on := x.sentOn ++ [n]
        if (groupLines s1 g).all on.contains then
          putGroup g { x with wait := none, sentOn := [], cur := some (b, tag), busyA := x.busyA && !b, busyB := x.busyB && b } s1
        else putGroup g { x with sentOn := on } s1
      else s1

/-! ### The end of a forward phase -/

/-- 16-bit words of a byte string, most significant byte first. -/
def beWords : List Byte → List Nat
  | a :: b :: r => (a.toNat * 256 + b.toNat) :: beWords r
  | _ => []

/-- TRAIL: TURN or HOLD (R162). -/
def trailTurn : Byte := 0x3C
/-- HOLD. -/
def trailHold : Byte := 0xC3

/-- The bytes that end a frame: PDATA puts FCHK in front of TRAIL (R162, R176). -/
def frameEnd (f : LFrame) (trail : Byte) : List Byte :=
  if f.ftype = 4 then beBytes 2 (65535 - xorAll (beWords f.slots) % 65536) ++ [trail] else [trail]

/-- The commands of a frame count as sent since the last return phase (R197). -/
def markSent (n : Nat) (f : LFrame) (s : State) : State :=
  forEach (fun (x : Nat × Nat) t => putLpos n x.1 (lposUpd (lposOf t n x.1) x.2 fun c => { c with sent := true }) t) f.carried s

/-- An urgent frame after the frame in progress would carry an urgent command that this one does not (R172, R199). -/
def urgentQueued (s : State) (n : Nat) (f : LFrame) : Bool :=
  let t := markSent n f s
  ptReady t && (fixUrgent n (urgTop t n) (mapLook n t)).1.isSome

/-- The commands of a frame that no earlier frame has carried since the last return phase that was made (R184, R197). -/
def firstSent (s : State) (n : Nat) (f : LFrame) : List (Nat × Nat) :=
  f.carried.filter fun x => (allCmds (lposOf s n x.1)).any fun c => c.uid == x.2 && !c.sent

/-- The TRAIL decision of an LCYC (R192, R199, R400): 0 TURN, 1 HOLD for an urgent frame, 2 HOLD for a NUPD frame. -/
def trailOf (s : State) (n : Nat) (f : LFrame) : Nat :=
  let l := lineOf s n
  if f.fw || f.ftype != 1 then 0
  else if urgentQueued s n f then (if regB s .lseq 0x040 1 && l.retMade then 1 else 0)
  else if nupdWaits s n && l.retMade && decide (regF s .nupd 0x040 19 16 ≤ spGet (fun _ => 0) s.nupd.cycles n + 1) then 2
  else 0

/-- `FORWARD_PHASE_END`: the trailer is sent, and the return phase, or nothing, follows (R162, R172). -/
def forwardEnd (n : Nat) (s : State) : State :=
  match (lineOf s n).wire with
  | none => s
  | some f =>
    let d := trailOf s n f
    let free := f.ftype == 4 && !f.ret
    let turn := if free then freeN s % 2 == 0 else f.ret && d == 0
    let s0 := if free then used s else s
    let s1 := send (.wadi n (frameEnd f (if turn then trailTurn else trailHold))) (setReg (linePage n) 0x0A4 (reg s0 (linePage n) 0x0A4 + 1) s0)
    let s2 := pixSent n f (markSent n f (drivenCleanly n s1))
    let l := { lineOf s2 n with wire := none }
    let f1 := { f with marked := firstSent s n f }
    let s3 := if f.ftype = 1 then
        { s2 with nupd := { s2.nupd with cycles := spPut (fun _ => 0) n (spGet (fun _ => 0) s2.nupd.cycles n + 1) s2.nupd.cycles } } else s2
    if f.ret && turn then setRegB (linePage n) 0x084 2 false (putLine' n { l with back := some f1, retMade := true } s3)
    else if d = 1 then setRegB (linePage n) 0x084 2 true (putLine' n { l with retMade := false } s3)
    else if d = 2 then nupdSend n (putLine' n { l with retMade := false } s3)
    else afterPair n (putLine' n l s3)

/-- `FORWARD_PHASE_END`. -/
def execForwardPhaseEnd (n : Fin 64) (s : State) : Out := done s (forwardEnd n.val s)

/-! ### Pixel returns -/

/-- The parities of a return word hold (R180). -/
def pixWordOk (w : Nat) : Bool :=
  (popCount (nfld w 15 8) 8 + nfld w 1 1) % 2 == 0 && (popCount (nfld w 7 2) 6 + nfld w 0 0) % 2 == 0

/-- Words with their positions, farthest first (R201). -/
def wordPositions : List Nat → List (Nat × Nat)
  | [] => []
  | w :: rest => (rest.length, w) :: wordPositions rest

/-- The summary of a segment (R210). -/
def segSummary (s : State) (i : Nat) (ok : List (Nat × Nat)) : State :=
  let c := ptHalf s i
  let ws := (ok.filter fun x => decide (cfgPos c ≤ x.1) && decide (x.1 < cfgPos c + cfgCount c)).map (·.2)
  let any := fun (b : Nat) => b01 (ws.any fun w => w.testBit b)
  let top := listMax (ws.map fun w => nfld w 7 2)
  let low := listMin (ws.map fun w => nfld w 15 12) 15
  let st := any 9 * 2 ^ 31 + any 8 * 2 ^ 30 + any 10 * 2 ^ 29 + ws.length * 2 ^ 16 + top * 256 + (if ws.isEmpty then 0 else low)
  let s1 := engPoke .lseq i 33 (word st) s
  let s2 := if ws.isEmpty then s1 else engPokeF .lseq i 35 15 0 (unsigned 16 ((2 * (top : Int) - 40) * 10)) s1
  let s3 := if ws.length = cfgCount c then engPoke .lseq i 38 (word (nowSec s)) s2 else s2
  diagObserve { point := i, status := st, data := 0 } s3

/-- `PIXEL_RETURN`: the words, each with the bit errors received in it, are counted and stored, and each segment's point gets its
summary (R125, R201, R210). -/
def pixelReturn (n : Nat) (heard : List (Nat × Nat)) (s0 : State) : State :=
  let words := heard.map (·.1)
  let bitErrs := (heard.map (·.2)).sum
  match (lineOf s0 n).back with
  | none => hearReturn n bitErrs ((words.getLast?.filter pixWordOk).map fun w => nfld w 15 12) s0
  | some f =>
    if !(lineOf s0 n).preOk || f.ftype != 4 then s0
    else
      let s := countBitErrs n bitErrs s0
      let tail := match words with
        | [] => false
        | w :: _ => pixWordOk w && w.testBit 11
      if f.count < words.length || (words.length != f.count && !tail) then phaseLost n f s
      else
        let early := decide (words.length < f.count)
        let ok := (wordPositions words).filter fun x => pixWordOk x.2
        let s1 := setRegB (linePage n) 0x084 6 false (setRegF (linePage n) 0x084 26 16 words.length (setRegB (linePage n) 0x084 7 early s))
        let s2 := setReg (linePage n) 0x0B0 (word (min 0xFFFFFFFF (regN s1 (linePage n) 0x0B0 + (words.length - ok.length)))) (putLine' n { lineOf (peCycle n s1) n with lost := 0 } (peCycle n s1))
        let s3 := if retBuf s2 n = 0 then s2
          else raiseIrq (linePage n) 10 (forEach (fun x t => memWrite (retBuf t n + 0x2000 + 2 * x.1) (leBytes 2 x.2) t) ok s2)
        let s4 := forEach (fun i t => segSummary t i ok) ((f.pts.filterMap id).filter (ptServed s3)) s3
        let s5 := match ok.find? fun x => x.1 == 0 with
          | some (_, w) => nodeMargin n (nfld w 15 12) s4
          | none => s4
        let s6 := if early then diagReport (.tailEarly n words.length) (raiseIrq (linePage n) 4 s5) else diagReport (.wholeReturn n) s5
        phaseOver n s6

/-- `PIXEL_RETURN`. -/
def execPixelReturn (n : Fin 64) (words : List (Nat × Nat)) (s : State) : Out := done s (pixelReturn n.val words s)

/-- `GRP_STAT_g` (R213). -/
def grpStat (s : State) (g : Nat) : Word :=
  let x := pixGroup s g
  setBit (setBit (setBit (reg s .pixb (0x108 + 0x20 * g)) 3 x.wait.isSome) 1 x.busyB) 0 x.busyA

/-- The registers of PIXB whose reads are computed. -/
def pixbView (s : State) (off : Nat) : Option Word :=
  if 0x100 ≤ off ∧ off < 0x200 ∧ off % 0x20 = 8 then some (grpStat s ((off - 0x100) / 0x20)) else none

/-- A block reset of PIXB: the groups' commits are forgotten. -/
def pixbDatapath (s : State) : State :=
  forEach (fun g t => setReg .pixb (0x108 + 0x20 * g) 0 t) (List.range 8) { s with pix := [] }

end Sys2Proof.Machine
end

