-- ==== Sys2Proof/Machine/Nupd.lean ====
section
/-! DEFINITION. Distributing node firmware: the campaign's commands, rounds, activation and resume (R394-R411). -/
namespace Sys2Proof.Machine

/-- `IMG_BASE`. -/
def imgBase (s : State) : Nat := regN s .nupd 0x048

/-- Image and list lie in DRAM on 64-byte boundaries, and their lengths are in range (R394, R395, R411). -/
def nuRangeOk (s : State) : Bool :=
  imgBase s % 64 == 0 && regN s .nupd 0x050 % 64 == 0 && decide (2 ≤ nuLen s) && inDram (imgBase s) (512 * nuLen s) && decide (1 ≤ regN s .nupd 0x054) && decide (regN s .nupd 0x054 ≤ 12288)
    && inDram (regN s .nupd 0x050) (2 * regN s .nupd 0x054)

/-- The module's check of the image: magic bytes, chunk count and digest (R394). -/
def nuImageOk (s : State) : Bool :=
  memRead s (imgBase s) 4 == [0x48, 0x4E, 0x55, 0x50] && memNat s (imgBase s + 8) 2 == nuLen s
    && takePad 32 (Config.sha256 (memRead s (imgBase s + 512) (512 * (nuLen s - 1)))) == memRead s (imgBase s + 16) 32

/-- SHA-256 over all chunks (R408). -/
def nuDigest (s : State) : List Byte := takePad 32 (Config.sha256 (memRead s (imgBase s) (512 * nuLen s)))

/-- A point that can be a target (R395). -/
def nuEligible (s : State) (i : Nat) : Bool :=
  let c := ptHalf s i
  decide (i < ptCount) && ptServed s i
    && (cfgKind c == kindLine || cfgKind c == kindRadio || (cfgKind c == kindSensor && cfgRadio c) || cfgKind c == kindPixel)

/-- The list of targets at START (R395): one that cannot be a target is FAILED with cause CFG. -/
def nuList (s : State) : List NuTarget :=
  (List.range (regN s .nupd 0x054)).map fun k =>
    let i := memNat s (regN s .nupd 0x050 + 2 * k) 2
    if nuEligible s i then { idx := i, pstate := 0 } else { idx := i, pstate := 6, cause := 7 }

/-- Writes every target's progress word and entry. -/
def nuPutAll (s : State) : State := forEach (fun t u => nuPut t u) s.nupd.targets s

/-- The list is read, once PTAB serves its lookups (R38, R395). -/
def nuListed (s : State) : State :=
  if !ptReady s || !s.nupd.targets.isEmpty then s
  else
    let s1 := nuPutAll { s with nupd := { s.nupd with targets := nuList s } }
    if s1.nupd.targets.any (fun t => t.pstate == 6) then raiseIrq .nupd 0 s1 else s1

/-- START (R394, R395): the campaign takes its number and its targets, and the check of the image begins.  NUPD of a unit that is not in
control stays IDLE (R409). -/
def nuStart (s : State) : State :=
  if !(nuState s == 0 || nuState s == 7 || nuState s == 9) || !inControl s then recErr .nupd 0x102 s
  else if !nuRangeOk s then recErr .nupd 0x101 s
  else
    let camp := if nuCamp s = 255 then 1 else nuCamp s + 1
    let s1 := setRegF .nupd 0x044 19 16 0 (setRegB .nupd 0x044 0 false (setRegF .nupd 0x044 31 24 camp s))
    nuListed (nuGo 1 { s1 with nupd := { digest := nuDigest s1, rets := s1.nupd.rets } })

/-- Offers OPEN to every target that has not been asked to open yet (R396, R403). -/
def nuOpenAll (s : State) : State :=
  forEach (fun t u =>
    let ps := (nuRun u t).filter fun p => (nuNode t p).opened == 0
    if t.pstate != 1 || ps.isEmpty then u
    else nuCmd 1 0 t (nuPut (ps.foldl (fun v p => nuOn p (fun n => { n with opened := 1 }) v) t) u) (if ps = nuRun u t then [] else ps)) s.nupd.targets s

/-- `DIGEST_VERIFIED`: the check ends; the campaign opens, or is refused (R394, R395). -/
def digestVerified (s : State) : State :=
  if nuState s != 1 || !working s .nupd || !ptReady s then s
  else if !nuImageOk s then recErr .nupd 0x100 (nuGo 0 { s with nupd := { s.nupd with targets := [] } })
  else
    let s1 := nuListed s
    let s2 := { s1 with nupd := { s1.nupd with digest := nuDigest s1, targets := s1.nupd.targets.map fun t => if t.pstate = 0 then { t with pstate := 1 } else t } }
    nuAdvance (nuOpenAll (nuPutAll (nuGo 2 s2)))

/-- `DIGEST_VERIFIED`. -/
def execDigestVerified (s : State) : Out := done s (digestVerified s)

/-- ACTIVATE (R404): only in READY, and `ACT_AT` at least ARM_LEAD + 1 s ahead. -/
def nuActivate (s : State) : State :=
  if nuState s != 4 then recErr .nupd 0x102 s
  else if actDiff (regN s .nupd 0x058) (nowMs s) < ((regF s .nupd 0x060 31 16 + 1) * 1000 : Nat) then recErr .nupd 0x103 s
  else nuGo 5 s

/-- An ACTIVATE of the target may be pending at a node. -/
def nuPendingAct (s : State) (t : NuTarget) : Bool := (t.pstate == 3 || t.pstate == 4) && (nuNodes s t).any fun n => n.act != 0

/-- An ACTIVATE that NUPD still offers was handed to no one: the nodes it was for have none pending. -/
def nuUnoffered (offers : List Cmd) (s : State) : State :=
  forEach (fun c u => match nuTarget u c.point with
    | some t =>
      if c.arg / 4096 % 16 = 2 then
        nuPut ((if c.only.isEmpty then nuRun u t else c.only).foldl (fun v p => nuOn p (fun n => { n with act := 0 }) v) { t with asked := 0 }) u
      else if c.arg / 4096 % 16 = 1 then
        nuPut ((if c.only.isEmpty then nuRun u t else c.only).foldl (fun v p => nuOn p (fun n => { n with opened := 0 }) v) t) u
      else u
    | none => u) offers s

/-- ABORT (R406): pending ACTIVATEs are revoked, ABORT goes to every target; an unfinished target is FAILED with cause
ABORTED, one whose ACTIVATE may be pending once its REVOKE is answered. -/
def nuAbort (s : State) : State :=
  let st := nuState s
  if st = 0 ∨ st = 7 ∨ st = 9 then recErr .nupd 0x102 s
  else if st = 1 then raiseIrq .nupd 3 (nuGo 9 s)
  else
    let s0 := nuUnoffered s.nupd.offers { s with nupd := { s.nupd with offers := [], queue := [], asks := [] } }
    let ts := s0.nupd.targets
    let s1 := { s0 with nupd := { s0.nupd with revs := s0.nupd.revs ++ (ts.filter (nuPendingAct s0)).map fun t => (t.idx, 0) } }
    let s2 := forEach (nuCmd 3 0) (ts.filter fun t => nuEligible s1 t.idx) (nuGo 9 s1)
    raiseIrq .nupd 3 (forEach (fun t u => if nuPendingAct s0 t then u else nuFail t.idx 8 u) ts s2)

/-- From ACT_AT - ARM_LEAD, ACTIVATE goes to every COMPLETE target (R404). -/
def nuArm (s : State) : State :=
  let at' := regN s .nupd 0x058
  let lead := regF s .nupd 0x060 31 16 * 1000
  if nuState s != 5 || !working s .nupd || !ptReady s || decide ((lead : Int) < actDiff at' (nowMs s)) then s
  else forEach (fun t u =>
    if t.pstate = 3 ∧ t.asked = 0 then nuCmd 2 at' t (nuPut (nuOnAll u (fun n => { n with act := 1 }) { t with asked := 1 }) u) else u) s.nupd.targets s

/-- CHECK begins at `ACT_AT`: the requests start anew (R405). -/
def nuCheckStart (s : State) : State :=
  nuGo 6 { s with nupd := { s.nupd with targets := s.nupd.targets.map fun t => if t.pstate = 4 then { t with asked := 0 } else t } }

/-- What RESUME starts again: OPEN commands not asked for, the round in progress, ACTIVATEs that were not handed over (R409). -/
def nuAgain (st : Nat) (s : State) : State :=
  if st = 2 then nuAdvance (nuOpenAll s)
  else if st = 3 && s.nupd.queue.isEmpty then nuRound (regF s .nupd 0x044 19 16) s
  else if st = 5 then nuArm s
  else s

/-- RESUME (R409): the image must match the stored digest; an ARMING campaign whose `ACT_AT` has passed resumes in CHECK. -/
def nuResume (s : State) : State :=
  if nuState s != 8 then recErr .nupd 0x102 s
  else if nuDigest s != s.nupd.digest then recErr .nupd 0x104 s
  else
    let st := s.nupd.resumeTo
    if st = 6 ∨ (st = 5 ∧ isDue (regN s .nupd 0x058) (nowMs s)) then nuCheckStart s else nuAgain st (nuGo st s)

/-- PAUSE (R410). -/
def nuPause (s : State) : State :=
  let st := nuState s
  if 1 ≤ st ∧ st ≤ 6 then nuGo 8 { s with nupd := { s.nupd with resumeTo := st } } else recErr .nupd 0x102 s

/-- A write of `NU_CMD` (R410, R411). -/
def nuCmdWrite (v : Word) (s : State) : State :=
  if fld v 31 24 != 0x4E then recErr .nupd 0x105 s
  else match fld v 3 0 with
    | 1 => workRequest .nupd nuStart s
    | 2 => workRequest .nupd nuActivate s
    | 3 => workRequest .nupd nuAbort s
    | 4 => workRequest .nupd nuResume s
    | 5 => workRequest .nupd nuPause s
    | _ => recErr .nupd 0x105 s

/-- `START`. -/
def execStart (ini : Ini) (s : State) : Out := done s (admitWrite ini .nupd 0x05C 0x4E000001 (nuCmdWrite 0x4E000001) s)
/-- `ACTIVATE`. -/
def execActivate (ini : Ini) (s : State) : Out := done s (admitWrite ini .nupd 0x05C 0x4E000002 (nuCmdWrite 0x4E000002) s)
/-- `NUPD_ABORT`. -/
def execNupdAbort (ini : Ini) (s : State) : Out := done s (admitWrite ini .nupd 0x05C 0x4E000003 (nuCmdWrite 0x4E000003) s)
/-- `RESUME`. -/
def execResume (ini : Ini) (s : State) : Out := done s (admitWrite ini .nupd 0x05C 0x4E000004 (nuCmdWrite 0x4E000004) s)
/-- `PAUSE`. -/
def execPause (ini : Ini) (s : State) : Out := done s (admitWrite ini .nupd 0x05C 0x4E000005 (nuCmdWrite 0x4E000005) s)

/-! ### Rounds -/

/-- The target lies on a line that found no room (R400). -/
def nuNoRoom (s : State) (t : NuTarget) : Bool :=
  match nuLine s t with
  | some n => decide (64 ≤ spGet (fun _ => 0) s.nupd.noRoom n)
  | none => false

/-- The passes of the round are over on every line that has room, and on the radio. -/
def nuPassesOver (s : State) : Bool :=
  s.nupd.queue.all (fun x => x.2.isEmpty || (x.1 != 64 && decide (64 ≤ spGet (fun _ => 0) s.nupd.noRoom x.1))) && !s.crv.nackDue

/-- Judges a target at the end of a round (R403): after MAX_ROUNDS an unfinished one is FAILED; a node that FAILED holds no chunk. -/
def nuJudge (t : NuTarget) (s : State) : State :=
  let last := regF s .nupd 0x040 15 8 ≤ regF s .nupd 0x044 19 16
  if t.pstate != 2 || nuNoRoom s t then s
  else if nuNstate s t = 5 then nuFail t.idx 1 s
  else if nuNstate s t = 4 ∧ t.failed1 then nuFail t.idx 2 s
  else if last then nuFail t.idx 3 s
  else if nuNstate s t = 4 then
    let ps := (nuRun s t).filter fun p => (nuNode t p).nstate == some 4
    let t1 := ps.foldl (fun u p => nuOn p (fun _ => { missing := nuAll s, opened := 1 }) u) { t with failed1 := true, before := 0, stale := 0 }
    nuCmd 1 0 t (nuPut { t1 with held := nuHeld s t1 } s) (if ps = nuRun s t then [] else ps)
  else if t.before < t.held then nuPut { t with before := t.held, stale := 0 } (if t.stale = 0 then s else noteTransient .nupd s)
  else if 1 ≤ t.stale then nuFail t.idx 3 s
  else nuPut { t with stale := t.stale + 1 } s

/-- `NUPD_ROUND_END` (R403): READY once every target is COMPLETE or FAILED, else the next round. -/
def nuRoundEnd (s : State) : State :=
  if nuState s != 3 || !working s .nupd || !ptReady s || !nuPassesOver s then s
  else
    let s1 := forEach nuJudge s.nupd.targets s
    if s1.nupd.targets.any fun t => t.pstate == 2 && !nuNoRoom s1 t then nuRound (regF s1 .nupd 0x044 19 16 + 1) s1
    else raiseIrq .nupd 1 (nuGo 4 (forEach (fun t u => if nuNoRoom u t then nuFail t.idx 6 u else u) s1.nupd.targets s1))

/-- `NUPD_ROUND_END`. -/
def execNupdRoundEnd (s : State) : Out := done s (nuRoundEnd s)

/-! ### Activation -/

/-- `NUPD_ARM`. -/
def execNupdArm (s : State) : Out := done s (nuArm s)

/-- An armed target's DSEL 4 is asked for, then once more; without an answer it is FAILED with cause COMMS (R405). -/
def nuAsk (t : NuTarget) (s : State) : State :=
  if !nuChecks s t then s
  else if 2 ≤ t.asked then nuFail t.idx 4 s
  else
    let s1 := nuPut { t with asked := t.asked + 1 } s
    if (nuLine s t).isNone then { s1 with nupd := { s1.nupd with asks := (s1.nupd.asks.filter (· != t.idx)) ++ [t.idx] } } else s1

/-- `CHECK` (R405): DONE once no target is left to be judged. -/
def nuCheck (s : State) : State :=
  if !working s .nupd || !ptReady s then s
  else
    let s1 := if nuState s = 5 ∧ isDue (regN s .nupd 0x058) (nowMs s) then nuCheckStart s else s
    let s2 := forEach nuAsk s1.nupd.targets s1
    if nuState s2 == 6 && s2.nupd.targets.all (fun t => !nuOpen t) then raiseIrq .nupd 2 (nuGo 7 s2) else s2

/-- `CHECK`. -/
def execCheck (s : State) : Out := done s (nuCheck s)

/-! ### Resume, registers, reset -/

/-- A target read back from the resume region (R408); where the region does not say that a node took its OPEN or its ACTIVATE, its
progress word does. -/
def nuFromEntry (s : State) (k : Nat) : NuTarget :=
  let a := nuRegion + 0x400 + 16 * k
  let w := memNat s (a + 4) 4
  { idx := memNat s a 4, asked := if nfld w 31 28 = 4 then 1 else 0, pstate := nfld w 31 28, cause := nfld w 19 16, held := nfld w 11 0, before := nfld w 11 0, stale := memNat s (a + 8) 4 }

/-- The descriptor in MRAM is valid (R409). -/
def nuDescValid (s : State) : Bool := memNat s (nuRegion + 48) 4 == crc32 (memRead s nuRegion 48)

/-- After a reset that cleared NUPD, once PTAB reports RESTORED (R409): PAUSED, with the targets of the table. -/
def nuRestored (s : State) : State :=
  let st := memNat s (nuRegion + 1) 1
  if !regB s .nupd 0x040 1 || !nuDescValid s || nuState s != 0 || !(1 ≤ st ∧ st ≤ 6) then s
  else
    let n := min 12288 (memNat s (nuRegion + 44) 4)
    let s1 := setRegF .nupd 0x044 19 16 (memNat s (nuRegion + 40) 4) (setRegF .nupd 0x044 31 24 (memNat s nuRegion 1) (setRegF .nupd 0x044 23 20 8 s))
    let s2 := setReg .nupd 0x054 (word n) (setReg .nupd 0x058 (word (memNat s (nuRegion + 36) 4)) (setReg .nupd 0x04C (word (memNat s (nuRegion + 2) 2)) s1))
    nuPutAll { s2 with nupd := { targets := (List.range n).map (nuFromEntry s), resumeTo := st, digest := memRead s (nuRegion + 4) 32 } }

/-- A commit touched a target (R403): an identity change, or one that can be a target no more, is FAILED with cause CFG at once, in a
PAUSED campaign too. -/
def nuCommit (i : Nat) (identity : Bool) (s : State) : State :=
  if nuCampaign s && (identity || !nuEligible s i) then nuFail i 7 s else s

/-- A write of a campaign register outside IDLE, DONE and ABORTED is refused with STATE (R410). -/
def nuRegWrite (ini : Ini) (off : Nat) (v : Word) (s : State) : State :=
  if nuState s == 0 || nuState s == 7 || nuState s == 9 then plainWrite ini .nupd off v s else recErr .nupd 0x102 s

/-- The registers of NUPD whose reads are computed (R410). -/
def nupdView (s : State) (off : Nat) : Option Word :=
  let n := fun (f : NuTarget → Bool) => (s.nupd.targets.filter f).length
  if off = 0x048 || off = 0x050 then some (reg s .nupd off &&& 0xFFFFFFC0)
  else if off = 0x064 then some (word (n (fun t => [3, 4, 5, 7].contains t.pstate) * 2 ^ 16 + n (·.pstate == 5)))
  else if off = 0x068 then some (word (n (·.pstate == 6) * 2 ^ 16 + n (·.pstate == 7)))
  else none

/-- A frame or a fragment in progress is NUPD's work (R409). -/
def nupdBusy (s : State) : Bool := (match s.crv.tx with | some t => t.frame.kind == 4 | none => false) ||
  s.line.any fun x => match x.2.wire with | some f => f.ftype == 8 | none => false

/-- A block reset of NUPD (R409): queued commands complete with BLOCK_RESET, and a campaign is PAUSED. -/
def nupdDatapath (s : State) : State :=
  let st := nuState s
  let s1 := nuUnoffered s.nupd.offers { s with nupd := { s.nupd with offers := [], revs := [], asks := [], queue := [] } }
  let s2 := if s.nupd.offers.isEmpty then s1 else recErr .nupd errBlockReset s1
  if 1 ≤ st ∧ st ≤ 6 then nuGo 8 { s2 with nupd := { s2.nupd with resumeTo := st } } else s2

end Sys2Proof.Machine
end

