-- ==== Sys2Proof/Machine/Dim.lean ====
section
/-! DEFINITION. The dimming engine's request port, its own events, its loops and its work area (R216-R239). -/
namespace Sys2Proof.Machine

/-! ### The request port -/

/-- An initiator's `RQ_STAT` is BUSY (R237). -/
def rqBusy (s : State) (i : Fin 10) : Bool := bit (regI s .dim 0x094 i) 0

/-- The evaluations of a port's request are in the queue, or have been made (R235). -/
def portIn (i : Nat) : Nat → List DimEval → Bool
  | _, [] => true
  | n, e :: q => if e.port = some i then decide (n + e.points.length ≤ 4096) else portIn i (n + e.points.length) q

/-- The ports whose evaluations have come into the queue show DONE (R235, R237). -/
def portsIn (s : State) : State :=
  let ok := s.dim.entering.filter fun i => portIn i 0 s.dim.queue
  forEach (fun i t => setRegI .dim 0x094 (Fin.ofNat 10 i) 2 t) ok
    { s with dim := { s.dim with entering := s.dim.entering.filter fun i => !portIn i 0 s.dim.queue } }

/-- The port's request is carried out, or refused (R237, R239); the port shows DONE once its evaluations are in the queue (R235). -/
def rqRun (i : Fin 10) (s : State) : State :=
  let op := (regI s .dim 0x090 i).toNat
  let tgt := regI s .dim 0x080 i
  let lvl := regI s .dim 0x084 i
  let aux := regI s .dim 0x08C i
  let ok := (dimRefusal s 0 op tgt lvl aux).isNone
  let s1 := dimRequest 0 op tgt lvl (regI s .dim 0x088 i) aux s (some i.val)
  if !ok then setRegI .dim 0x094 i 4 s1
  else if portIn i.val 0 s1.dim.queue then setRegI .dim 0x094 i 2 s1
  else setRegI .dim 0x094 i 1 { s1 with dim := { s1.dim with entering := s1.dim.entering ++ [i.val] } }

/-- A write of `RQ_CMD` (R235, R237): PORT_BUSY while the port is busy, and it stays BUSY while the queue is full.  A
disabled DIM takes it (R631). -/
def rqCmd (i : Fin 10) (v : Word) (s : State) : State :=
  if quiescing s .dim then answer (.err .busyQuiesced) (recErr .dim errBusyQuiesced s)
  else if rqBusy s i then recErr .dim 0x104 s
  else
    let s1 := setRegI .dim 0x090 i v s
    if dimFull s1 then dimBacklog (setRegI .dim 0x094 i 1 { s1 with dim := { s1.dim with wait := s1.dim.wait ++ [i.val] } })
    else rqRun i s1

/-- A write of another port register: PORT_BUSY while the port is busy (R239). -/
def rqWrite (ini : Ini) (off : Nat) (v : Word) (s : State) : State :=
  if rqBusy s ini.id then recErr .dim 0x104 s else plainWrite ini .dim off v s

/-- `POST`: RQ_CMD 1 with the port's registers (R216). -/
def execPost (ini : Ini) (s : State) : Out := done s (admitWrite ini .dim 0x090 1 (rqCmd ini.id 1) s)
/-- `RELEASE` (R232). -/
def execRelease (ini : Ini) (s : State) : Out := done s (admitWrite ini .dim 0x090 2 (rqCmd ini.id 2) s)
/-- `REVOKE` (R230). -/
def execRevoke (ini : Ini) (s : State) : Out := done s (admitWrite ini .dim 0x090 3 (rqCmd ini.id 3) s)
/-- `SET_HOURS` (R237). -/
def execSetHours (ini : Ini) (s : State) : Out := done s (admitWrite ini .dim 0x090 4 (rqCmd ini.id 4) s)

/-! ### Requests in time -/

/-- A request's action time falls due: it is marked ACTED, and the point is evaluated (R217, R224). -/
def requestActed (i p : Nat) (s : State) : State :=
  let r := reqOf s i p
  if inControl s && r.valid && !r.acted && isDue r.act (nowMs s) then dimQueue { points := [i], mir := p == 4 } (putReq i p { r with acted := true } s) else s

/-- `REQUEST_ACTED`. -/
def execRequestActed (i : Fin 12288) (p : Fin 8) (s : State) : Out :=
  done s (if p.val = 0 then s else requestActed i.val p.val s)

/-- A request's release time falls due: the slot empties, and the point is evaluated (R216, R224). -/
def durationEnd (i p : Nat) (s : State) : State :=
  let r := reqOf s i p
  if inControl s && r.valid && r.hasRel && isDue r.rel (nowMs s) then dimQueue { points := [i], mir := p == 4 } (endReq i p r.rel s) else s

/-- `DURATION_END`. -/
def execDurationEnd (i : Fin 12288) (p : Fin 8) (s : State) : Out :=
  done s (if p.val = 0 then s else durationEnd i.val p.val s)

/-! ### Evaluations -/

/-- The first port that waits for room is served (R235). -/
def rqWaiting (s : State) : State :=
  match s.dim.wait with
  | [] => s
  | i :: rest => if dimFull s then s else rqRun (Fin.ofNat 10 i) { s with dim := { s.dim with wait := rest } }

/-- The next index of a sweep; the sweep ends after the last point (R224, R236). -/
def sweepNext (i : Nat) (s : State) : State :=
  { s with dim := { s.dim with sweep := if i + 1 < ptCount then some (i + 1) else none } }

/-- One evaluation: the queue's head, else the sweep's next point (R224, R235). -/
def dimEvaluate (s : State) : State :=
  if !serving s .dim || !ptReady s then s
  else match s.dim.queue with
    | e :: rest => rqWaiting (portsIn (dimBacklog (dimEval e { s with dim := { s.dim with queue := rest } })))
    | [] =>
      match s.dim.sweep with
      | some i => if isLantern (ptHalf s i) then dimEval { points := [i] } (sweepNext i s) else sweepNext i s
      | none => s

/-- `EVALUATE`. -/
def execEvaluate (s : State) : Out := done s (dimEvaluate s)

/-- `PENDING_PASSED`: a pending command's action time passes by DIM's TB0 (R226). -/
def execPendingPassed (i : Fin 12288) (s : State) : Out := done s (if serving s .dim then dimPassed i.val s else s)

/-- `CLO_SWEEP`: the hourly sweep starts (R224). -/
def execCloSweep (s : State) : Out :=
  done s (if accepting s .dim && inControl s then { s with dim := { s.dim with sweep := some 0 } } else s)

/-! ### Loops -/

/-- Points that run a light-level loop. -/
def loopsRunning (s : State) : Nat := (s.dim.pts.filter fun x => x.2.loop).length

/-- The point asks for a light-level loop: an enabled lantern with LUX_LOOP (R221). -/
def wantsLoop (s : State) (i : Nat) : Bool :=
  let c := ptHalf s i
  ptServed s i && isLantern c && bit (wordAt c 0) 13

/-- Starts or ends the light-level loop of a point as its configuration says: at most 2,048 run; the trim starts at 0; one
more sets LOOP_FULL (R221). -/
def loopCheck (i : Nat) (s : State) : State :=
  if wantsLoop s i then
    if (dimPt s i).loop then s
    else if loopsRunning s < 2048 then putDimPt i { dimPt s i with loop := true, trim := 0, newLux := false } s
    else raiseIrq .dim 2 (setRegB .dim 0x044 2 true s)
  else if (dimPt s i).loop then putDimPt i { dimPt s i with loop := false, trim := 0 } s
  else s

/-- The level after steps 1 and 2 of R219 is 0. -/
def levelZero (s : State) (i : Nat) (c : List Word) : Bool :=
  let r := (dimWinner s i c (nowMs s)).2
  (if cloApplies c then min 65535 (r.level * (cloFactor s i c).1 / 32768) else r.level) == 0

/-- The trim may be updated: no winner above ADAPT, LOOP_EN, not ramping, not coded, L1 above 0 (R221). -/
def trimMoves (s : State) (i : Nat) (c : List Word) : Bool :=
  regB s .dim 0x040 1 && decide ((dimWinner s i c (nowMs s)).1 ≤ 3) && !stRamping (ptWord s i 33).toNat
    && (attrCoded s i).isNone && !levelZero s i c

/-- The change of the trim (R221): gain times error over 256, truncated toward zero; none in the direction in which step
5 clamped. -/
def trimDelta (s : State) (i : Nat) (c : List Word) : Int :=
  let e : Int := (fld (wordAt c 8) 15 0 : Nat) - (fld (ptWord s i 35) 31 16 : Nat)
  let d := Int.tdiv ((fld (wordAt c 9) 15 0 : Nat) * e) 256
  let dir := (dimPt s i).clampDir
  if (decide (0 < d) && dir == 1) || (decide (d < 0) && dir == -1) then 0 else d

/-- One evaluation of a point's light-level loop, with a new LUX only (R221, R224). -/
def luxLoop (i : Nat) (s : State) : State :=
  let c := ptHalf s i
  if !serving s .dim || !ptReady s || !wantsLoop s i || !(dimPt s i).loop || !regB s .dim 0x040 1 then s
  else
    let pt := dimPt s i
    let s1 := putDimPt i { pt with newLux := false } s
    let s2 := if pt.newLux && trimMoves s i c then putDimPt i { dimPt s1 i with trim := clampInt (-16384) 16384 (pt.trim + trimDelta s i c) } s1 else s1
    dimQueue { points := [i] } s2

/-- `LUX_LOOP`. -/
def execLuxLoop (i : Fin 12288) (s : State) : Out := done s (luxLoop i.val s)

/-- `CCT_LOOP` (R222). -/
def execCctLoop (i : Fin 12288) (s : State) : Out :=
  done s (if serving s .dim && ptReady s then dimCct i.val s else s)

/-- A write of `LOOP_IDX` latches the point's loop state into `LOOP_RD` (R237). -/
def loopIdx (v : Word) (s : State) : State :=
  let i := fld v 13 0
  if ptCount ≤ i then recErr .dim 0x100 s
  else
    let pt := dimPt s i
    setReg .dim 0x0A4 (word (b01 pt.loop * 2 ^ 31 + (if pt.loop then unsigned 16 pt.trim else 0))) s

/-- `LOOP_IDX`. -/
def execLoopIdx (ini : Ini) (v : Word) (s : State) : Out := done s (admitWrite ini .dim 0x0A0 v (loopIdx v) s)

/-! ### Work area -/

/-- A write of `WORK_BASE` (R236, R239): WORK_RANGE where it is misaligned, outside DRAM or written while enabled; else
the work area is to be initialised. -/
def workBaseWrite (ini : Ini) (v : Word) (s : State) : State :=
  if enabled s .dim || v.toNat % 0x200000 != 0 || !inDram v.toNat 0x200000 then recErr .dim 0x103 s
  else
    let s1 := plainWrite ini .dim 0x048 v s
    if locked s .dim 0 then s1 else { s1 with dim := { s1.dim with fresh := true } }

/-- Clears a range of memory. -/
def memClear (a len : Nat) (s : State) : State :=
  { s with mem := s.mem.filter fun c => !(decide (a ≤ c.1) && decide (c.1 < a + len)) }

/-- The first enable initialises the work area: every slot empty, every base hours 0, no loop state (R236). -/
def dimInit (s : State) : State :=
  if !s.dim.fresh then s
  else
    let s1 := memClear (dimWork s) 0x200000 s
    let pts := s1.dim.pts.map fun x => (x.1, { x.2 with ids := [], loop := false, trim := 0, newLux := false })
    { s1 with dim := { s1.dim with fresh := false, pts := pts.filter fun x => x.2 != {} } }

/-- DIM is enabled (R631, R236): it initialises a fresh work area, starts the loops, and evaluates every lantern point
once, in index order. -/
def dimEnable (s : State) : State :=
  let s1 := dimInit s
  let s2 := forEach loopCheck (List.range ptCount) s1
  { s2 with dim := { s2.dim with sweep := some 0 } }

/-- A forward step of TB0 by some ms makes due what was due before it, and every time it crosses, however far it goes (R80, R217). -/
def stepDue (now ms a : Nat) : Bool := isDue a now || decide (actDiff a now ≤ (ms : Int))

/-- A pending command whose action time a step of TB0 crosses has passed (R80, R226). -/
def dimStepPend (now ms i : Nat) (s : State) : State :=
  match (dimPt s i).pend with
  | none => s
  | some p => if stepDue now ms p.act then dimPass i s else s

/-- At a TB0 step, forward by some ms, every request, release and duration end that is due or crossed takes effect (R217). -/
def dimMarkAll (ms : Nat) (s : State) : State :=
  forEach (fun i t => dimStepPend (nowMs s) ms i (forEach (dimMarkSlot (stepDue (nowMs s) ms) i) prios t)) (s.dim.pts.map (·.1)) s

/-- After a TB0 step every point is evaluated (R224). -/
def dimTbStep (s : State) : State := if enabled s .dim then { s with dim := { s.dim with sweep := some 0 } } else s

/-- The registers of DIM whose reads are computed: `DIM_STAT` (R237). -/
def dimView (s : State) (off : Nat) : Option Word :=
  if off = 0x044 then some (word (4 * b01 (regB s .dim 0x044 2) + 2 * b01 (dimFull s) + b01 s.dim.sweep.isSome)) else none

/-- Accepted work of DIM. -/
def dimBusy (s : State) : Bool := !s.dim.queue.isEmpty || !s.dim.wait.isEmpty || s.dim.sweep.isSome || !s.dim.offers.isEmpty || !s.dim.revs.isEmpty

/-- A block reset of DIM (R39, R236): queues and ports clear; the work area and what is pending at the nodes stay.  After
FULL the work area is initialised at the next enable. -/
def dimDatapath (full : Bool) (s : State) : State :=
  let s1 := forEach (fun i t => setRegI .dim 0x094 (Fin.ofNat 10 i) (if s.dim.wait.contains i then 4 else if s.dim.entering.contains i then 2 else 0) t) (List.range 10) s
  let s2 := setRegB .dim 0x00C 3 false (setRegB .dim 0x044 2 false s1)
  { s2 with dim := { s2.dim with queue := [], sweep := none, wait := [], entering := [], offers := [], revs := [], fresh := s2.dim.fresh || full } }

/-- DIM is READY again after a block reset: every lantern point is evaluated once (R236). -/
def dimReady (s : State) : State :=
  dimUnhold (if enabled s .dim then { s with dim := { s.dim with sweep := some 0 } } else s)

end Sys2Proof.Machine
end

