-- ==== Sys2Proof/Machine/Sched.lean ====
section
/-! DEFINITION. Schedules: programs, steps, the active step of a point, posting (R240-R246). -/
namespace Sys2Proof.Machine

/-- A step of a program (R240). -/
structure SStep where
  valid : Bool
  bad : Bool
  days : Nat
  time : Nat
  cct : Nat
  level : Nat
  step : Bool
  release : Bool
  group : Nat
deriving DecidableEq, Repr

/-- `PROG_BASE` (R246). -/
def progBase (s : State) : Nat := regN s .sched 0x044

/-- Step k of program p as the table holds it; `bad` a valid step that is ignored (R240). -/
def sstepOf (s : State) (p k : Nat) : SStep :=
  let a := progBase s + 512 * p + 16 * k
  let w0 := mem32 s a
  let w1 := mem32 s (a + 4)
  let w2 := mem32 s (a + 8)
  let w3 := mem32 s (a + 12)
  { valid := bit w0 31
    bad := fld w0 29 24 != 0 || fld w2 31 18 != 0 || w3 != 0 || decide (86399 < fld w0 16 0) || fld w0 23 17 == 0
    days := fld w0 23 17, time := fld w0 16 0, cct := fld w1 31 16, level := fld w1 15 0
    step := bit w2 17, release := bit w2 16, group := fld w2 15 0 }

/-- `TZ_OFFSET` (R241). -/
def tzOffset (s : State) : Int := signed 32 (regN s .sched 0x048)

/-- Local time (R241). -/
def localTime (s : State) : Int := (s.tb.t0.sec : Nat) + tzOffset s

/-- The weekday of a local day, 0 for Sunday (R241). -/
def weekday (day : Int) : Nat := ((day + 4) % 7).toNat

/-- A step's instant on a local day, if DAYS admits it (R242). -/
def stepInstant (x : SStep) (day : Int) : Option Int :=
  if x.valid && !x.bad && x.days.testBit (weekday day) then some (day * 86400 + (x.time : Nat)) else none

/-- A step's most recent instant at or before a local time, over that day and the seven days before it (R242). -/
def lastInstant (x : SStep) (l : Int) : Option Int :=
  ((List.range 8).filterMap fun d => (stepInstant x (l / 86400 - (d : Nat))).filter fun t => decide (t ≤ l)).head?

/-- A step admits a point of a group (R240); `none` ignores the groups. -/
def stepAdmits (x : SStep) (g : Option Nat) : Bool :=
  match g with
  | none => true
  | some n => x.group == 0xFFFF || x.group == n

/-- The active step among the first n of a program: the latest instant, the higher number winning ties (R242). -/
def activeBelow (s : State) (p : Nat) (g : Option Nat) (l : Int) : Nat → Option (Int × Nat)
  | 0 => none
  | n + 1 =>
    let b := activeBelow s p g l n
    let x := sstepOf s p n
    if stepAdmits x g then
      match lastInstant x l with
      | none => b
      | some t =>
        match b with
        | none => some (t, n)
        | some (u, m) => if u ≤ t then some (t, n) else some (u, m)
    else b

/-- The active step of a program for a group at a local time (R242). -/
def activeStep (s : State) (p : Nat) (g : Option Nat) (l : Int) : Option Nat := (activeBelow s p g l 32).map (·.2)

/-- A program is enabled in `PROG_EN`. -/
def progEn (s : State) (p : Nat) : Bool := if p < 32 then regB s .sched 0x050 p else p < 64 && regB s .sched 0x054 (p - 32)

/-- The program that serves a point (R242). -/
def servedBy (s : State) (i : Nat) : Option Nat :=
  let c := ptHalf s i
  if ptServed s i && isLantern c && progEn s (cfgProg c) then some (cfgProg c) else none

/-- SCHED posts now: enabled, not quiescing, HOLD 0, and the point table answers (R246, R118). -/
def schedPosts (s : State) : Bool := accepting s .sched && inControl s && !regB s .sched 0x040 0 && ptReady s

/-- `PROG_STAT_p`: the active step whatever its GROUP, and the level posted (R246; DEDUCED, log 13). -/
def progStat (p : Nat) (l : Int) (s : State) : State :=
  let v := match activeStep s p none l with
    | none => 0
    | some k => if (sstepOf s p k).release then k * 65536 else 2 ^ 31 + k * 65536 + (sstepOf s p k).level
  setReg .sched (0x100 + 4 * p) (word v) s

/-- What SCHED posted last for a point. -/
def postedOf (s : State) (i : Nat) : Option SchedPost := spGet (fun _ => none) s.sched.posted i

/-- Remembers it. -/
def setPosted (i : Nat) (x : Option SchedPost) (s : State) : State :=
  { s with sched := { s.sched with posted := spPut (fun _ => none) i x s.sched.posted } }

/-- The request of a step. -/
def stepPost (p k : Nat) (x : SStep) : SchedPost :=
  { prog := p, step := k, level := x.level, cct := x.cct, stepFlag := x.step, release := x.release }

/-- The `RQ_LVL` word of a SCHEDULE request. -/
def schedLvl (x : SchedPost) : Word := word (2 * 2 ^ 24 + b01 x.stepFlag * 2 ^ 20 + x.level)

/-- One step's request to its points: a post, or a release (R243); DIM evaluates each group's members together (R229). -/
def schedSend (x : SchedPost) (act : Nat) (pts : List Nat) (s : State) : State :=
  dimInternal { src := 1, op := if x.release then 2 else 1, pts := pts, tgt := 0, lvl := schedLvl x, act := word act, aux := word (x.cct * 65536) }
    (forEach (fun i t => setPosted i (some x) t) pts s)

/-- The points that a step makes active at its instant (R243). -/
def pointsOfStep (s : State) (p k : Nat) (l : Int) : List Nat :=
  (List.range ptCount).filter fun i =>
    servedBy s i == some p && activeStep s p (some (cfgGroup (ptHalf s i))) l == some k

/-- The instant of a step that TB0 has come within LEAD of, in local seconds: on this local day or the next (R243). -/
def instantNear (s : State) (p k lead : Nat) : Option Int :=
  let x := sstepOf s p k
  let now : Int := localTime s * 1000 + (s.tb.t0.ns / 1000000 : Nat)
  let day := localTime s / 86400
  ([day, day + 1].filterMap (stepInstant x)).find? fun t => decide (t * 1000 ≤ now + (lead : Nat)) && decide (now < t * 1000 + 1000)

/-- `ACT_MS` of a local second. -/
def actOfLocal (s : State) (l : Int) : Nat := ((l - tzOffset s) * 1000 % 2 ^ 32).toNat

/-- SCHED would post, were it not held back: it or the point table quiesces, is in a reset or restores (R38, R118, R120). -/
def schedWaits (s : State) : Bool := enabled s .sched && inControl s && !regB s .sched 0x040 0 && !schedPosts s

/-- A step's posting instant (R243): a step that is valid but bad is recorded instead (R240); where SCHED is held back the step waits
until it can post. -/
def stepPosted (p k : Nat) (release : Bool) (s : State) : State :=
  let x := sstepOf s p k
  if schedWaits s then { s with sched := { s.sched with late := s.sched.late.filter (· != (p, k, release)) ++ [(p, k, release)], redo := true } }
  else if !schedPosts s || !progEn s p || !x.valid then s
  else if x.bad then raiseIrq .sched 0 (recErr .sched 0x101 s)
  else if x.release != release then s
  else match instantNear s p k (if release then 0 else regF s .sched 0x040 31 16) with
    | none => s
    | some l => progStat p l (raiseIrq .sched 1 (schedSend (stepPost p k x) (actOfLocal s l) (pointsOfStep s p k l) s))

/-- `STEP_POSTED`: LEAD before the instant of a step (R243). -/
def execStepPosted (p : Fin 64) (k : Fin 32) (s : State) : Out := done s (stepPosted p.val k.val false s)

/-- `SCHED_STEP_RELEASE`: at the instant of a RELEASE step (R243). -/
def execSchedStepRelease (p : Fin 64) (k : Fin 32) (s : State) : Out := done s (stepPosted p.val k.val true s)

/-- What a point should have posted now (R242): the active step's request, or none. -/
def wantedPost (s : State) (i : Nat) : Option SchedPost :=
  match servedBy s i with
  | none => none
  | some p => (activeStep s p (some (cfgGroup (ptHalf s i))) (localTime s)).map fun k => stepPost p k (sstepOf s p k)

/-- Two requests for a point are the same request; where nothing has been posted, or what was is not known any more, every step's
request is posted, a release too (R244). -/
def samePost (a b : Option SchedPost) : Bool :=
  match a, b with
  | some x, some y => x.release == y.release && (x.release || (x.level == y.level && x.cct == y.cct && x.stepFlag == y.stepFlag))
  | some _, none => false
  | none, some y => y.release
  | none, none => true

/-- A point's active step is determined again: its request is posted, due at once, where it differs from the one posted
last; where none qualifies any more, the posted one is released (R244; DEDUCED, log 14). -/
def schedRedoPt (i : Nat) (s : State) : State :=
  let w := wantedPost s i
  if samePost w (postedOf s i) then s
  else match w with
    | some x => schedSend x (nowMs s) [i] s
    | none =>
      let x : SchedPost := { prog := 0, step := 0, level := 0, cct := 0, stepFlag := false, release := true }
      setPosted i none (schedSend x (nowMs s) [i] s)

/-- The active steps of points are determined again (R244); while SCHED cannot post, this waits. -/
def schedRedo (pts : List Nat) (s : State) : State :=
  if !schedPosts s then { s with sched := { s.sched with redo := true } }
  else forEach schedRedoPt pts s

/-- For every point, with every enabled program's status. -/
def schedRedoAll (s : State) : State :=
  if !schedPosts s then { s with sched := { s.sched with redo := true } }
  else
    let s1 := schedRedo (List.range ptCount) { s with sched := { s.sched with redo := false } }
    forEach (fun p t => if progEn t p then progStat p (localTime t) t else setReg .sched (0x100 + 4 * p) 0 t) (List.range 64) s1

/-- What waited for SCHED to be able to post: the steps whose posting instant came meanwhile, then the active steps as they are by
now (R38, R243, R244). -/
def schedCatchUp (s : State) : State :=
  if s.sched.redo && schedPosts s then
    schedRedoAll (forEach (fun x t => stepPosted x.1 x.2.1 x.2.2 t) s.sched.late { s with sched := { s.sched with late := [] } })
  else s

/-- Reading a program records each valid step that is ignored (R240). -/
def schedRead (p : Nat) (s : State) : State :=
  forEach (fun k t => let x := sstepOf t p k; if x.valid && x.bad then raiseIrq .sched 0 (recErr .sched 0x101 t) else t) (List.range 32) s

/-- A write of `RELOAD` (R244, R246). -/
def schedReload (v : Word) (s : State) : State :=
  if bit v 6 then schedRedoAll (forEach schedRead (List.range 64) s)
  else
    let p := fld v 5 0
    let s1 := schedRead p s
    let s2 := schedRedo ((List.range ptCount).filter fun i => cfgProg (ptHalf s1 i) == p) s1
    if schedPosts s2 && progEn s2 p then progStat p (localTime s2) s2 else s2

/-- `RELOAD`: a work request of SCHED. -/
def execReload (ini : Ini) (v : Word) (s : State) : Out := done s (admitWrite ini .sched 0x04C v (workRequest .sched (schedReload v)) s)

/-- A write of `TZ_OFFSET` (R244, R246). -/
def tzOffsetWrite (ini : Ini) (v : Word) (s : State) : State :=
  let s1 := plainWrite ini .sched 0x048 v s
  if writeTaken .sched 0x048 v s then schedRedoAll s1 else s1

/-- `TZ_OFFSET_WRITE`. -/
def execTzOffsetWrite (ini : Ini) (v : Word) (s : State) : Out := done s (admitWrite ini .sched 0x048 v (tzOffsetWrite ini v) s)

/-- A write of `PROG_EN_LO` or `PROG_EN_HI`: a program that it enables is read (R240, R244). -/
def progEnWrite (ini : Ini) (hi : Bool) (v : Word) (s : State) : State :=
  let off := if hi then 0x054 else 0x050
  let new := v &&& ~~~(reg s .sched off)
  let s1 := plainWrite ini .sched off v s
  schedRedoAll (forEach (fun n t => if bit new n then schedRead (n + 32 * b01 hi) t else t) (List.range 32) s1)

/-- `PROG_EN_WRITE`. -/
def execProgEnWrite (ini : Ini) (hi : Bool) (v : Word) (s : State) : Out :=
  done s (admitWrite ini .sched (if hi then 0x054 else 0x050) v (progEnWrite ini hi v) s)

/-- A write of `SCHED_CTRL`: clearing HOLD determines every active step again (R246). -/
def schedCtrlWrite (ini : Ini) (v : Word) (s : State) : State :=
  let s1 := plainWrite ini .sched 0x040 v s
  if regB s .sched 0x040 0 && !regB s1 .sched 0x040 0 then schedRedoAll s1 else s1

/-- `HOLD_CLEAR`: a write of `SCHED_CTRL` with HOLD 0. -/
def execHoldClear (ini : Ini) (v : Word) (s : State) : Out :=
  done s (admitWrite ini .sched 0x040 (setBit v 0 false) (schedCtrlWrite ini (setBit v 0 false)) s)

/-- A write of `PROG_BASE`: BASE_RANGE where the 32 KiB table would not lie wholly in system SRAM or DRAM (R240, R246). -/
def progBaseWrite (ini : Ini) (v : Word) (s : State) : State :=
  if inRam (v.toNat / 16384 * 16384) 0x8000 then plainWrite ini .sched 0x044 v s else recErr .sched 0x100 s

/-- `DAY_ROLL`: TB0 has come to a local midnight (R245). -/
def execDayRoll (s : State) : Out :=
  done s (if working s .sched && decide (localTime s % 86400 = 0) then raiseIrq .sched 2 s else s)

/-- The registers of SCHED whose reads are computed: `DAY_NOW` (R246). -/
def schedView (s : State) (off : Nat) : Option Word :=
  if off = 0x058 then
    let d := localTime s / 86400
    some (word (weekday d * 2 ^ 24 + (d % 2 ^ 24).toNat))
  else none

/-- A block reset of SCHED clears `PROG_STAT`; at its end the active steps are determined again, against what was posted last, of
which reach FULL keeps nothing (R39, R244; DESIGN CHOICE, log 127). -/
def schedDatapath (full : Bool) (s : State) : State :=
  forEach (fun p t => setReg .sched (0x100 + 4 * p) 0 t) (List.range 64)
    { s with sched := { posted := if full then [] else s.sched.posted, redo := true, late := [] } }

end Sys2Proof.Machine
end

