-- ==== Sys2Proof/Machine/Triggers.lean ====
section
/-! DEFINITION. Time-base steps and trigger units, which act on other engines (R75, R77, R81-R84). -/
namespace Sys2Proof.Machine

/-! ### Trigger units -/

/-- The selected time has reached or passed the unit's instant, or a step crossed it (R77, R83). -/
def trgDue (s : State) (u : Nat) : Bool :=
  trgEn s u && trgHas s u && ((trgOf s u).crossed || decide (trgInstant s u (trgOf s u).next ≤ trgTime (trgTb s u)))

/-- The index of the first instant after the present time. -/
def trgAfter (s : State) (u : Nat) : Nat :=
  let p := regN s .ttrig (0x10C + 0x20 * u)
  let now := trgTime (trgTb s u)
  if p = 0 ∨ now < trgInstant s u 0 then 0 else (now - trgInstant s u 0) / p + 1

/-- A reserved TARGET (R82). -/
def trgReserved (t : Nat) : Bool := !(decide (t ≤ 0x11) || t == 0x20 || (decide (0x40 ≤ t) && decide (t ≤ 0x7F)) || (decide (0x80 ≤ t) && decide (t ≤ 0x87)))

/-- The unit acts on its target (R82, R83): its base, its instant there, and when it was armed. -/
def trgAct (t base inst since : Nat) (s : State) : State :=
  if t = 1 then send .pps s
  else if 2 ≤ t ∧ t ≤ 0x11 then gpTrigger (t - 2) s
  else if t = 0x20 then metTrigger s
  else if 0x40 ≤ t ∧ t ≤ 0x7F then (if regB s (linePage (t - 0x40)) 0x080 4 then cycleStart (t - 0x40) s else s)
  else if 0x80 ≤ t ∧ t ≤ 0x87 then pixSwap (t - 0x80) (base, inst) since s
  else s

/-- A lower-numbered unit that names the same target fires in this cycle (R84).  TARGET 0, an interrupt only, is no target that two
units could collide in (DESIGN CHOICE, log 123). -/
def trgCollides (s : State) (u : Nat) : Bool :=
  (List.range u).any fun v => trgTarget s v == trgTarget s u && trgTarget s u != 0 && ((trgOf s v).at1 == s.tb.cycles + 1 || trgDue s v)

/-- A unit fires: FIRED, LATE, COLLIDE, its target, the count, and its next instant (R83, R84). -/
def trgFire (u : Nat) (late : Bool) (s : State) : State :=
  let t := trgOf s u
  let c := regN s .ttrig (0x110 + 0x20 * u)
  let hit := trgCollides s u
  let inst := trgInstant s u t.next
  let next := max (t.next + 1) (if late then trgAfter s u else 0)
  let s1 := setRegB .ttrig (0x114 + 0x20 * u) 0 true (if late then setRegB .ttrig (0x114 + 0x20 * u) 1 true s else s)
  let s2 := if hit then setRegB .ttrig (0x114 + 0x20 * u) 2 true s1 else s1
  let s3 := putTrg u { t with fired := t.fired + 1, next := next, at1 := s.tb.cycles + 1, crossed := false } s2
  let s4 := if c != 0 && decide (c ≤ t.fired + 1) then setRegB .ttrig (0x100 + 0x20 * u) 0 false s3 else s3
  if hit then s4 else trgAct (trgTarget s u) (unitSwap s u).1 inst t.since s4

/-- A write of `TRG_CTRL_u`: a reserved target does not enable; a unit that becomes armed starts anew, and fires at once with
LATE where its instant has passed (R82, R83). -/
def trgCtrlWrite (ini : Ini) (u : Nat) (v : Word) (s : State) : State :=
  let v1 := if trgReserved (fld v 15 8) then setBit v 0 false else v
  let was := trgEn s u
  let s1 := plainWrite ini .ttrig (0x100 + 0x20 * u) v1 s
  if trgEn s1 u && !was then
    let t := trgTarget s1 u
    let s2 := putTrg u { since := trgTime (trgTb s1 u) } s1
    let s3 := if 0x80 ≤ t ∧ t ≤ 0x87 then swapKnown (t - 0x80) (unitSwap s2 u) s2 else s2
    if trgRuns s3 && decide (trgInstant s3 u 0 < trgTime (trgTb s3 u)) then trgFire u true s3 else s3
  else s1

/-- `TRG_ARM`. -/
def execTrgArm (ini : Ini) (u : Fin 16) (v : Word) (s : State) : Out :=
  done s (admitWrite ini .ttrig (0x100 + 0x20 * u.val) v (trgCtrlWrite ini u.val v) s)

/-- `TRIGGER_FIRE`: the unit's instant is reached (R83); late where a step crossed it (R77). -/
def execTriggerFire (u : Fin 16) (s : State) : Out :=
  done s (if trgRuns s && trgDue s u.val then trgFire u.val (trgOf s u.val).crossed s else s)

/-- TTRIG is enabled again: each armed unit whose instant has passed fires at once with LATE (R71).  An instant equal to the present
time has not passed, here as when a unit is armed: it fires next, and is not late (DEDUCED, log 157). -/
def trgResume (s : State) : State :=
  forEach (fun u t =>
    if trgDue t u && ((trgOf t u).crossed || decide (trgInstant t u (trgOf t u).next < trgTime (trgTb t u))) then trgFire u true t else t)
    (List.range 16) s

/-! ### Steps (R75, R77) -/

/-- The time a step gives a base, in seconds and nanoseconds; `STEP_NS` holds nothing above 999,999,999 (R72). -/
def stepTarget (s : State) (n : Fin 4) (offset : Bool) : Nat × Nat :=
  let sec := regF s (.tb n) 0x07C 15 0 * 2 ^ 32 + regN s (.tb n) 0x078
  let ns := regN s (.tb n) 0x074 % 1000000000
  if offset then
    let b := tbOf s.tb n
    let total : Int := (tbNs b : Nat) + signed 48 sec * 1000000000 + (ns : Nat)
    let t := unsignedMod total (2 ^ 48 * 1000000000)
    (t / 1000000000, t % 1000000000)
  else (sec, ns)
where
  /-- An integer modulo a number. -/
  unsignedMod (i : Int) (m : Nat) : Nat := (i % (m : Int)).toNat

/-- Armed units of the base whose instant a forward step crosses are to fire late (R77). -/
def markCrossed (n : Fin 4) (old new : Nat) (s : State) : State :=
  forEach (fun u t =>
    let i := trgInstant t u (trgOf t u).next
    if trgEn t u && trgHas t u && regF t .ttrig (0x100 + 0x20 * u) 5 4 == n.val && decide (old < i) && decide (i ≤ new) then
      putTrg u { trgOf t u with crossed := true } t
    else t) (List.range 16) s

/-- What the engines that live by TB0 do at its step: DIM (R217, R224), MIR (R275), SCHED (R244), ATTR (R346). -/
def tb0Stepped (s : State) : State := attrVoidAll 2 (schedRedoAll (tracksEnd (dimTbStep s)))

/-- What a step that is carried out does besides the counters. -/
def stepEffects (n : Fin 4) (new : TimeBase) (s : State) : State :=
  let s1 := if n = 0 then dimMarkAll ((tbNs new / 1000000 : Nat) - tbNs s.tb.t0 / 1000000) s else s
  let s2 := markCrossed n (trgTime (tbOf s.tb n)) (trgTime new) { s1 with tb := setTb n new s1.tb }
  if n = 0 then tb0Stepped s2
  else if n = 2 then forEach (fun l t => cycleStep l (tbNs s.tb.t2) (tbNs new) t) (List.range 64) s2
  else s2

/-- `STEP_CTRL.GO` (R75): STEP_USED, or a TB1 step back refused; else the counters take the new time.  The 32-bit fraction, of which
R75 says nothing, keeps its value (DESIGN CHOICE, log 158). -/
def stepGo (n : Fin 4) (offset : Bool) (s : State) : State :=
  let b := tbOf s.tb n
  let t := stepTarget s n offset
  let new : TimeBase := { b with sec := t.1, ns := t.2, stepAvail := false, stepped := true }
  if !b.stepAvail then recErr (.tb n) 0x100 s
  else if n = 1 ∧ tbNs new < tbNs b then recErr (.tb n) 0x102 s
  else { stepEffects n new s with tb := setTb n new s.tb }

/-- A write of `STEP_CTRL` (R72). -/
def stepCtrlWrite (n : Fin 4) (v : Word) (s : State) : State := if bit v 0 then stepGo n (bit v 1) s else s

/-- `STEP_ABSOLUTE`. -/
def execStepAbsolute (ini : Ini) (n : Fin 4) (s : State) : Out := doneTb s (admitWrite ini (.tb n) 0x070 1 (stepCtrlWrite n 1) s)

/-- `STEP_OFFSET`. -/
def execStepOffset (ini : Ini) (n : Fin 4) (s : State) : Out := doneTb s (admitWrite ini (.tb n) 0x070 3 (stepCtrlWrite n 3) s)

end Sys2Proof.Machine
end

