-- ==== Sys2Proof/Machine/PointHooks.lean ====
section
/-! DEFINITION. Commits, invalidates and restores of the point table, with what each engine does about them (R107-R119,
R110, R244, R248, R288, R297, R345, R403, R409). -/
namespace Sys2Proof.Machine

/-- The attribution correlator: a coded lantern whose identity, ATTR_EN, CIRCUIT or PHASE changed, or that is no longer
eligible by its configuration, is invalidated with cause CFG (R345). -/
def attrCommit (i : Nat) (old : List Word) (ident : Bool) (s : State) : State :=
  let new := ptHalf s i
  match attrCoded s i with
  | none => s
  | some c =>
    if ident || bit (wordAt old 12) 16 != bit (wordAt new 12) 16 || cfgCircuit old != cfgCircuit new || cfgPhase old != cfgPhase new
        || !(attrLanOf (attrRound s c) i).all (attrConfigOk s c) then attrInvalidate i 4 s
    else s

/-- Mirage: membership or POS_DM changed; word 0 holds PT_KIND, EN and MIRAGE, word 10 STRIP and POS_DM, and CFG_BAD follows from
the whole half (R248). -/
def mirCommit (i : Nat) (old : List Word) (s : State) : State :=
  let new := ptHalf s i
  if wordAt old 0 != wordAt new 0 || wordAt old 10 != wordAt new 10 || cfgValid old != cfgValid new then mirPointChanged i (needRebuild (cfgStrip old) s) else s

/-- Every engine's answer to a configuration half that changed from `old`. -/
def pointChanged (i : Nat) (old : List Word) (s : State) : State :=
  let new := ptHalf s i
  let ident := cfgIdentityDiffers old new
  let s1 := diagCommit i (if ident then diagIdentity i s else s)
  let s2 := mirCommit i old (attrCommit i old ident s1)
  let s3 := if cfgProg old != cfgProg new || cfgGroup old != cfgGroup new then schedRedo [i] s2 else s2
  let s4 := radioKick i (nuCommit i ident (dimQueue { points := [i], kind := 1 } (loopCheck i s3)))
  { s4 with ptab := { s4.ptab with known := spPut (fun _ => []) i new s4.ptab.known } }

/-- The configuration half that the engines know of a point: the cached one, else the one they were last told of. -/
def ptBefore (s : State) (i : Nat) : List Word :=
  if (ptLine s i).isSome then ptHalf s i else takeWords (spGet (fun _ => []) s.ptab.known i)
where
  /-- 32 words. -/
  takeWords (l : List Word) : List Word := (l ++ List.replicate 32 0).take 32

/-- The engines are told of the points whose CFG_BAD a fill has changed: they treat them as EN = 0, or serve them again (R97;
DEDUCED, log 162: in the next cycle of the clock). -/
def ptTell (s : State) : State :=
  forEach (fun i t =>
      let k := spGet (fun _ => []) t.ptab.known i
      mirPointChanged i (pointChanged i (if k.isEmpty then ptHalf t i else ptBefore.takeWords k) t))
    s.ptab.tell { s with ptab := { s.ptab with tell := [] } }

/-- A write of `WP_CMD` (R103, R106, R107): refused while restoring or BUSY, whatever is written. -/
def wpCmdWrite (ini : Ini) (v : Word) (s : State) : State :=
  if restoring s then recErr .ptab 0x106 s
  else if bit (regI s .ptab 0x06C ini.id) 0 then recErr .ptab 0x103 s
  else if v != 1 then s
  else
    let i := (regI s .ptab 0x060 ini.id).toNat
    let old := ptBefore s i
    match wpCommit ini s with
    | (some j, t) => cfgTell j (pointChanged j old t)
    | (none, t) => t

/-- `WP_CMD`. -/
def execWpCmd (ini : Ini) (s : State) : Out := done s (admitWrite ini .ptab 0x068 1 (wpCmdWrite ini 1) s)

/-- A write of `INVAL`; what the half was before decides what the engines do (R113). -/
def invalWrite (v : Word) (s : State) : State :=
  let old := ptBefore s (fld v 13 0)
  match ptInval v s with
  | (some j, t) => cfgTell j (pointChanged j old t)
  | (none, t) => t

/-- `INVAL`. -/
def execInval (ini : Ini) (v : Word) (s : State) : Out := done s (admitWrite ini .ptab 0x058 v (invalWrite v) s)

/-- RESTORE completes: every CUR_LEVEL is 0, the strip maps are rebuilt, SCHED catches up, NUPD resumes, and the lookups that were
held proceed (R118, R244, R248, R288, R409). -/
def restoreDone (s : State) : State :=
  if restoring s then
    let s0 := if linkTells s then forEach cfgTell (List.range ptCount) (ptRestore s) else ptRestore s
    let s1 := forEach (fun i t => diagDark i (diagCommit i t)) (s.diag.pts.map (·.1)) (forEach needRebuild (List.range 64) s0)
    ptUnhold (if inControl s1 then nuRestored (schedCatchUp s1) else schedCatchUp s1)
  else s

end Sys2Proof.Machine
end

