-- ==== Sys2Proof/Machine/Oasis.lean ====
section
/-! DEFINITION. The OASIS page: writes that cross into the 32.768 kHz domain, and the domain's commands (R484-R503). -/
namespace Sys2Proof.Machine

/-- A write reaches the domain: it is in flight until it takes effect, and a further one stalls (R484). -/
def oasWrite (ini : Ini) (off : Nat) (v : Word) (s : State) : State :=
  let x : Stalled := { ini := ini, addr := pageBase .oasis + off, val := some v }
  if s.oas.flight.isSome then { s with resp := .stalled, stalled := s.stalled ++ [x] } else onOas (fun o => { o with flight := some x }) s

/-- `RTC_CMD` with its key (R487, R490). -/
def rtcCmd (v : Word) (s : State) : State :=
  keyed .oasis 0x52 v (fun t =>
    let t1 := if bit v 0 then rtcSetBin t else t
    if bit v 1 then rtcSetCal t1 else t1) s

/-- `PWR_CMD` with its key: REST (R494). -/
def oasPwrCmd (v : Word) (s : State) : State :=
  keyed .oasis 0xDE v (fun t => if bit v 0 then setRegB .oasis 0x040 4 true t else t) s

/-- `PWAKE_CTRL`: 0 is written as 1; N takes effect at EN, or after the next firing (R493). -/
def pwakeWrite (v : Word) (s : State) : State :=
  let n := max 1 (fld v 23 0)
  let was := regB s .oasis 0x0B0 31
  let s1 := setReg .oasis 0x0B0 (setFld (v &&& 0x80000000) 23 0 n) s
  if bit v 31 && was then s1 else onOas (fun o => { o with pwakeN := n }) s1

/-- What a write does when it takes effect. -/
def oasApply (ini : Ini) (off : Nat) (v : Word) (s : State) : State :=
  match off with
  | 0x05C => rtcCmd v s
  | 0x0C4 => oasPwrCmd v s
  | 0x080 => almArm 1 (bit v 1) (almArm 0 (bit v 0) s)
  | 0x0B0 => pwakeWrite v s
  | 0x100 => plainWrite ini .oasis 0x100 (v ||| (reg s .oasis 0x100 &&& 0x100)) s
  | _ =>
    if 0x088 ≤ off ∧ off < 0x0A8 ∧ almArmed s ((off - 0x088) / 0x10) then recErr .oasis 0x101 s
    else plainWrite ini .oasis off v s

/-- The write in flight takes effect, `SYNC_BUSY` clears, and a write that stalled follows (R484). -/
def syncBusyEnd (s : State) : State :=
  match s.oas.flight with
  | none => s
  | some x =>
    let s1 := oasApply x.ini (x.addr % 0x1000) (x.val.getD 0) (onOas (fun o => { o with flight := none }) s)
    match s1.stalled.find? fun y => y.addr / 0x1000 == 0x40150 with
    | none => s1
    | some y => onOas (fun o => { o with flight := some y }) { s1 with stalled := s1.stalled.erase y }

/-- `SET_BIN`. -/
def execSetBin (ini : Ini) (s : State) : Out := done s (admitWrite ini .oasis 0x05C 0x52000001 (oasWrite ini 0x05C 0x52000001) s)

/-- `SET_CAL`. -/
def execSetCal (ini : Ini) (s : State) : Out := done s (admitWrite ini .oasis 0x05C 0x52000002 (oasWrite ini 0x05C 0x52000002) s)

/-- `RTC_FRAC_READ`. -/
def execRtcFracRead (ini : Ini) (s : State) : Out := done s (admitRead ini .oasis 0x044 (rtcFracRead ini) s)

/-- `ALARM_ARM`. -/
def execAlarmArm (ini : Ini) (v : Word) (s : State) : Out := done s (admitWrite ini .oasis 0x080 v (oasWrite ini 0x080 v) s)

/-- `ALARM_FIRE`: the RTC has reached the instant, or a set has passed it (R491, R492). -/
def execAlarmFire (k : Fin 2) (s : State) : Out :=
  let late := s.oas.passed.testBit k.val
  done s (if almArmed s k.val && (late || decide (almInstant s k.val ≤ s.rtc)) then almFire k.val late s else s)

/-- `PWAKE`: the count expires (R493). -/
def execPwake (s : State) : Out :=
  done s (if regB s .oasis 0x0B0 31 then
      wakeSource 2 (raiseIrq .oasis 3 (onOas (fun o => { o with pwakeN := regF s .oasis 0x0B0 23 0 }) s))
    else s)

/-- `REST`. -/
def execRest (ini : Ini) (s : State) : Out := done s (admitWrite ini .oasis 0x0C4 0xDE000001 (oasWrite ini 0x0C4 0xDE000001) s)

/-- `PWR_ON` releases: the module's rails go off, which is a core POR from deep rest (R494, R550). -/
def pwrOnRelease (s : State) : State :=
  if !regB s .oasis 0x040 4 then s
  else
    let s1 := setRegB .oasis 0x040 8 true (setRegB .oasis 0x040 4 false (onOas (fun o => { o with minHold := true, wakes := 0, woke := 0 }) { s with railsOn := false }))
    corePor (2 ^ 8) s1

/-- `PWR_ON_RELEASE`. -/
def execPwrOnRelease (s : State) : Out := doneTb s (pwrOnRelease s)

/-- `REST_MIN_END`: the 50 ms end, and a source that fired meanwhile asserts `PWR_ON` (R494). -/
def execRestMinEnd (s : State) : Out :=
  done s (if !s.oas.minHold then s
    else if s.oas.wakes = 0 then onOas (fun o => { o with minHold := false }) s
    else pwrOnAssert s.oas.wakes s)

/-- `TAMPER_SAMPLE`: `driven` says which inputs something drives, `high` their levels (R497, R524). -/
def execTamperSample (driven high : Fin 16) (s : State) : Out :=
  let r := tamperSample driven.val high.val s
  done s (if r.1.isEmpty then r.2 else tamperResponse r.2)

/-- `MESH_CHECK` (R498, R524). -/
def execMeshCheck (mismatch : Bool) (s : State) : Out :=
  let r := meshCheck mismatch s
  done s (if r.1 then tamperResponse r.2 else r.2)

/-- `TAMP_STAT_CLEAR`. -/
def execTampStatClear (ini : Ini) (v : Word) (s : State) : Out := done s (admitWrite ini .oasis 0x104 v (oasWrite ini 0x104 v) s)

/-- `VBAT_MEASURE`: below 2.2 V sets VBAT_LOW, while the main rail is present (R500). -/
def execVbatMeasure (mv : Nat) (s : State) : Out :=
  done s (if regB s .oasis 0x040 8 then s
    else levelIrq .oasis 0 (decide (mv < 2200)) (setRegB .oasis 0x040 2 (decide (mv < 2200)) s))

/-- `SYNC_BUSY_END`. -/
def execSyncBusyEnd (s : State) : Out := done s (syncBusyEnd s)

/-- A backup POR returns the Oasis domain to its reset values and asserts a core POR (R483, R541); EVR's counters are lost
(R586). -/
def backupPor (s : State) : State :=
  let s1 := { s with regs := s.regs.filter (fun x => !oasKey x.1), oas := {}, rtc := 0, railsOn := false,
                     stalled := s.stalled.filter fun y => y.addr / 0x1000 != 0x40150
                     evr := { s.evr with opsec := 0, pcyc := 0, reseed := true } }
  onRst (fun r => { r with backup := true }) (corePor (2 ^ 15) s1)

/-- `BACKUP_POR`. -/
def execBackupPor (s : State) : Out := doneTb s (backupPor s)

/-- `BACKUP_POR_RELEASE`: `PWR_ON` asserts (R494). -/
def execBackupPorRelease (s : State) : Out :=
  done s (if s.rst.backup then onRst (fun r => { r with backup := false }) (pwrOnAssert 1 s) else s)

/-- The registers of OASIS whose reads are computed. -/
def oasView (s : State) (off : Nat) : Option Word :=
  match off with
  | 0x040 => some (setBit (reg s .oasis 0x040) 1 s.oas.flight.isSome)
  | 0x074 => some (setBit (reg s .oasis 0x074) 1 (decide (calRange ≤ rtcSec s)))
  | _ => none

end Sys2Proof.Machine
end

