-- ==== Sys2Proof/Machine/Rstclk.lean ====
section
/-! DEFINITION. RSTCLK and PWR: resets, watchdog, supply, clocks, power states, DFS and AVS (R541-R558). -/
namespace Sys2Proof.Machine

/-! ### Reset sources -/

/-- `RESET_N_ASSERT`: a low of at least 10 µs (R542). -/
def execResetNAssert (s : State) : Out := doneTb s (onRst (fun r => { r with resetN := true }) (episode (2 ^ 13) false s))

/-- `RESET_N_RELEASE`. -/
def execResetNRelease (s : State) : Out := done s (onRst (fun r => { r with resetN := false }) s)

/-- `CORE_POR`: V_IN below 6.0 V, or a rail out of regulation (R541). -/
def execCorePor (vinLow : Bool) (s : State) : Out :=
  let t := corePor 0 s
  doneTb s (if vinLow then setRegB .oasis 0x040 8 true (onRst (fun r => { r with vin := false }) t) else t)

/-- `TCXO_LOSS`: a reset of reach RESET_N is held, recorded as WATCHDOG (R554). -/
def execTcxoLoss (s : State) : Out :=
  doneTb s (setRegB .rstclk 0x054 0 false (onRst (fun r => { r with tcxo := true }) (episode (2 ^ 12) false s)))

/-- `TCXO_VALID`: valid for 1 ms (R554). -/
def execTcxoValid (s : State) : Out := done s (setRegB .rstclk 0x054 0 true (onRst (fun r => { r with tcxo := false }) s))

/-- The reset reason is written afresh (R495). -/
def reasonWrite (s : State) : State :=
  onOas (fun o => { o with woke := 0 }) (setReg .oasis 0x0C8 (word (s.rst.seen ||| s.oas.woke)) (setReg .oasis 0x0CC (reg s .oasis 0x0C8) s))

/-! ### DFS (R555) -/

/-- The cap: thermal, shed, and what AVS has taken (levels 0 200 MHz, 1 600, 2 1,000, 3 1,400). -/
def dfsCap (s : State) : Nat := (if regB s .pwr 0x044 30 then 0 else s.rst.therm) - s.rst.avsDrop

/-- The least step of the rail for a level: 0.65, 0.70, 0.78 and 0.86 V in steps of 5 mV from 0.65 V. -/
def startStep (level : Nat) : Nat :=
  match level with
  | 0 => 0 | 1 => 10 | 2 => 26 | _ => 42

/-- The level in force follows the request and the cap; before a rise the rail goes to the level's start voltage. -/
def dfsApply (s : State) : State :=
  let level := min (regF s .pwr 0x04C 1 0) (dfsCap s)
  let s1 := setRegF .pwr 0x04C 9 8 (dfsCap s) (setRegF .pwr 0x04C 17 16 level s)
  if regF s .pwr 0x054 5 0 < startStep level then setRegF .pwr 0x054 5 0 (startStep level) s1 else s1

/-- A change of the cap raises THERM_CAP where the temperature caused it. -/
def thermRead (temp : Int) (s : State) : State :=
  let was := s.rst.therm
  let t := if 1250 < temp || (was == 0 && decide (1200 < temp)) then 0 else if 1100 < temp || (was ≤ 1 && decide (1050 < temp)) then 1 else 3
  let s1 := dfsApply (setReg .pwr 0x058 (word (unsigned 16 temp)) (onRst (fun r => { r with therm := t }) s))
  if t = was then s1 else raiseIrq .pwr 0 s1

/-- A write of `DFS_CTRL`: only REQ is written. -/
def dfsWrite (ini : Ini) (v : Word) (s : State) : State := dfsApply (plainWrite ini .pwr 0x04C v s)

/-- `DFS_REQ`. -/
def execDfsReq (ini : Ini) (v : Word) (s : State) : Out := done s (admitWrite ini .pwr 0x04C v (dfsWrite ini v) s)

/-- `THERM_CAP`: the die reads `temp` in 0.1 °C. -/
def execThermCap (temp : Int) (s : State) : Out := done s (thermRead temp s)

/-- An AVS reading M (R556, R558). -/
def avsTick (m : Nat) (s : State) : State :=
  let step := regF s .pwr 0x054 5 0
  let least := startStep (regF s .pwr 0x04C 17 16)
  let lo := regF s .pwr 0x050 7 0
  let hi := regF s .pwr 0x050 15 8
  let s0 := setRegF .pwr 0x054 23 16 m s
  let put := fun (n h l : Nat) t => setRegF .pwr 0x054 5 0 n (onRst (fun r => { r with avsHi := h, avsLo := l }) t)
  if regB s .pwr 0x050 31 then put (clampNat least 50 (regF s .pwr 0x050 29 24)) 0 0 s0
  else if m < lo then
    if step < 50 then put (step + 1) 0 0 s0
    else if s.rst.avsLo = 0 then put step 0 1 s0
    else raiseIrq .pwr 1 (dfsApply (onRst (fun r => { r with avsDrop := r.avsDrop + 1 }) (put step 0 0 s0)))
  else if hi < m then
    if s.rst.avsHi < 15 then put step (s.rst.avsHi + 1) 0 s0 else put (max least (step - 1)) 0 0 s0
  else put step 0 0 s0

/-- `AVS_TICK`. -/
def execAvsTick (m : Fin 256) (s : State) : Out := done s (avsTick m.val s)

/-! ### The release (R543, R547) -/

/-- The PLLs that every bring-up starts: CPU, SYS, TB and DDR (R553). -/
def pllBoot (s : State) : State := setReg .rstclk 0x050 0x1717 s

/-- The last source releases, and bring-up follows. -/
def coreResetRelease (b : BootFacts) (s : State) : State :=
  let r := s.rst
  if !r.active || r.resetN || r.tcxo || r.backup || !s.railsOn then s
  else
    let s1 := setRegB .oasis 0x040 8 false (reasonWrite s)
    let s2 := { s1 with tb := {}, rst := { s1.rst with active := false, por := false, porReach := false, seen := 0, vin := true }
                        evr := { s1.evr with pcyc := if r.porReach then (s1.evr.pcyc + 1) % 2 ^ 24 else s1.evr.pcyc } }
    let s3 := setRegB .evr 0x044 0 true (setReg .memc 0x040 1 (pllBoot s2))
    { metRestore (dfsApply (bootChain b (optRead (identRead b.identFails.val s3)))) with tb := {} }

/-- `CORE_RESET_RELEASE`. -/
def execCoreResetRelease (b : BootFacts) (s : State) : Out := doneTb s (coreResetRelease b s)

/-! ### Watchdog (R544) -/

/-- Processors named in `KICK_MASK` that have not kicked this period; the boot ROM kicks for the security core until the mask is
written (R544). -/
def unkicked (s : State) : Word :=
  reg s .rstclk 0x040 &&& (if s.rst.romKicks then 0xFF else 0x1FF) &&& ~~~(word (regF s .rstclk 0x048 24 16))

/-- A write of `WDT_CTRL`: from then on the security core kicks for itself (R544; DEDUCED, log 189). -/
def wdtCtrlWrite (ini : Ini) (v : Word) (s : State) : State := onRst (fun r => { r with romKicks := false }) (plainWrite ini .rstclk 0x040 v s)

/-- A write of `WDT_KICK`. -/
def wdtKick (ini : Ini) (v : Word) (s : State) : State :=
  if v = 0x4B49434B then (if ini.id.val < 9 then setRegB .rstclk 0x048 (16 + ini.id.val) true s else s) else recErr .rstclk errBadKey s

/-- `WDT_KICK`. -/
def execWdtKick (ini : Ini) (v : Word) (s : State) : Out := done s (admitWrite ini .rstclk 0x044 v (wdtKick ini v) s)

/-- `WDT_WARN`: halfway through a period with a named processor unkicked. -/
def execWdtWarn (s : State) : Out :=
  done s (if unkicked s = 0 then s else raiseIrq .rstclk 0 (setRegB .rstclk 0x048 31 true s))

/-- `WATCHDOG`: a period ends, or the confirmation window of a trial does (R536, R544). -/
def execWatchdog (window : Bool) (s : State) : Out :=
  doneTb s (if s.rst.active then s
    else if window then (if s.boot.st = 2 then episode (2 ^ 12) false s else s)
    else if unkicked s = 0 then setReg .rstclk 0x048 0 s
    else episode (2 ^ 12) false s)

/-- A write of `SW_RST` forces an expiry. -/
def swRst (v : Word) (s : State) : State := if v = 0x57525354 then episode (2 ^ 12) false s else s

/-- `SW_RST`. -/
def execSwRst (ini : Ini) (v : Word) (s : State) : Out := doneTb s (admitWrite ini .rstclk 0x04C v (swRst v) s)

/-! ### Supply (R551) -/

/-- `PWR_FAIL`: PWR_FAIL_N asserts; the module sheds load and saves state. -/
def pwrFail (s : State) : State :=
  if regB s .pwr 0x044 31 then s
  else
    let s1 := setRegB .pwr 0x044 30 true (setRegB .pwr 0x044 31 true (bumpRegF .pwr 0x060 15 0 s))
    raiseIrq .pwr 3 (evrPowerFail (metPowerFail (dfsApply (used (setReg .pwr 0x05C (word (freeN s % 65536)) s1)))))

/-- `PWR_FAIL`. -/
def execPwrFail (s : State) : Out := done s (if s.rst.active then s else pwrFail s)

/-- `PWR_OK`: V_IN above 9.0 V for 10 ms undoes the shed. -/
def execPwrOk (s : State) : Out :=
  done s (if !regB s .pwr 0x044 31 then s
    else raiseIrq .pwr 2 (dfsApply (setRegB .pwr 0x044 30 false (setRegB .pwr 0x044 31 false (bumpRegF .pwr 0x060 31 16 s)))))

/-! ### PLLs (R553) -/

/-- A PLL is ON. -/
def pllOn (s : State) (p : Nat) : Bool := regB s .rstclk 0x050 (8 + p)

/-- Marks a PLL's consumers stalled, or not. -/
def pllHold (p : Nat) (b : Bool) (s : State) : State :=
  onRst (fun r => { r with pllDown := if b then r.pllDown ||| 2 ^ p else r.pllDown &&& (63 - 2 ^ p) }) s

/-- The synthesiser of a radio loses lock (R393, R553): it relocks once, a second loss within 1 s is lasting until its page is disabled
and enabled again. -/
def rfUnlock (r : Fin 2) (again : Bool) (s : State) : State :=
  let x := rfOf s r.val
  if crvMode s = 0 || crvRadio s != r.val || x.off || !enabled s (.rf r) then s
  else
    let s1 := raiseIrq (.rf r) 0 (putRf r.val { x with unlocked := true, off := again } s)
    if again then evrOffer .rstclk 0x0011 (leBytes 1 (6 + r.val)) s1 else s1

/-- The synthesiser of a radio locks again: a transient fault (R16). -/
def rfLock (r : Fin 2) (s : State) : State :=
  let x := rfOf s r.val
  if x.unlocked && !x.off then noteTransient (.rf r) (putRf r.val { x with unlocked := false } s) else s

/-- `PLL_UNLOCK`: one relock; a second loss within 1 s (`again`) is lasting.  6 and 7 are the synthesisers of RFA and RFB. -/
def execPllUnlock (p : Fin 8) (again : Bool) (s : State) : Out :=
  done s (if 6 ≤ p.val then rfUnlock (Fin.ofNat 2 p.val) again s
    else if !pllOn s p.val then s
    else
      let s1 := raiseIrq .rstclk 1 (pllHold p.val true (setRegB .rstclk 0x050 p.val false s))
      if again then evrOffer .rstclk 0x0011 (leBytes 1 p.val)
        (onRst (fun r => { r with pllOff := r.pllOff ||| 2 ^ p.val, relock := r.relock &&& (63 - 2 ^ p.val) }) (setRegB .rstclk 0x050 (8 + p.val) false s1))
      else onRst (fun r => { r with relock := r.relock ||| 2 ^ p.val }) s1)

/-- A PLL has locked again after a loss of lock: a transient fault (R16, R553). -/
def pllRelocked (p : Nat) (s : State) : State :=
  if s.rst.relock.testBit p then noteTransient .rstclk (onRst (fun r => { r with relock := r.relock &&& (63 - 2 ^ p) }) s) else s

/-- A PLL locks: its consumers become READY, and the LINE PLL's ports start to drive where PORT_MODE says so (R147, R153). -/
def pllLock (p : Nat) (s : State) : State :=
  let s1 := pllRelocked p (pllHold p false (setRegB .rstclk 0x050 p true s))
  if p = 3 then forEach startDrive (List.range 64) s1 else s1

/-- `PLL_LOCK`. -/
def execPllLock (p : Fin 8) (s : State) : Out :=
  done s (if 6 ≤ p.val then rfLock (Fin.ofNat 2 p.val) s else if pllOn s p.val then pllLock p.val s else s)

/-- The pages that consume the LINE or the ETH PLL. -/
def pllPages (p : Nat) : List Page :=
  if p = 3 then (List.range 64).map fun n => .line (Fin.ofNat 64 n) else if p = 5 then [.eth 0, .eth 1] else []

/-- A first consumer is enabled: the PLL starts. -/
def pllEnable (p : Page) (s : State) : State :=
  let k := pllOf p
  if (pllPages k).isEmpty || pllOn s k || s.rst.pllOff.testBit k then s else pllHold k true (setRegB .rstclk 0x050 (8 + k) true s)

/-- The last consumer is disabled: the PLL stops, and a lasting loss is forgotten. -/
def pllDisable (p : Page) (s0 : State) : State :=
  let s := match p with | .rf r => putRf r.val { rfOf s0 r.val with unlocked := false, off := false } s0 | _ => s0
  let k := pllOf p
  if (pllPages k).isEmpty || (pllPages k).any (enabled s) then s
  else onRst (fun r => { r with pllOff := r.pllOff &&& (63 - 2 ^ k), relock := r.relock &&& (63 - 2 ^ k) }) (pllHold k false (setRegB .rstclk 0x050 (8 + k) false (setRegB .rstclk 0x050 k false s)))

/-! ### IDLE (R549) -/

/-- Running lantern-mode lines. -/
def lanternLines (s : State) : List Nat := (List.range 64).filter fun n => lineRun s n && !linePixel s n

/-- A write of `PWR_CMD` IDLE from the application cluster, made while the application cores of `wfi` are in WFI. -/
def idleEnter (wfi : Nat) (s : State) : State :=
  let poll := regF s .pwr 0x040 25 16
  if wfi % 16 != 15 then recErr .pwr 0x101 s
  else if (lanternLines s).any fun n => decide (regF s (linePage n) 0x094 12 0 < 25 * poll) then recErr .pwr 0x100 s
  else forEach unfix (lanternLines s) (setRegB .memc 0x040 3 true (setRegF .pwr 0x044 25 24 1 s))

/-- A write of `PWR_CMD` with its key. -/
def pwrCmdWrite (ini : Ini) (wfi : Nat) (v : Word) (s : State) : State :=
  keyed .pwr 0x50 v (fun t => if bit v 0 && decide (ini.id.val < 4) then idleEnter wfi t else t) s

/-- `IDLE`: `wfi` says which application cores are in WFI at that instant. -/
def execIdle (ini : Ini) (wfi : Fin 16) (s : State) : Out :=
  done s (admitWrite ini .pwr 0x048 0x50000001 (pwrCmdWrite ini wfi.val 0x50000001) s)

/-- `IDLE_POLL`: one cycle on each running lantern-mode line. -/
def execIdlePoll (s : State) : Out := done s (if idleMode s then forEach cycleStart (lanternLines s) s else s)

/-- `IDLE_EXIT`: an interrupt passes an application core's threshold. -/
def execIdleExit (s : State) : Out :=
  done s (if idleMode s && (List.range 4).any (anyInterrupt s) then setRegB .memc 0x040 3 false (setRegF .pwr 0x044 25 24 0 s) else s)

/-- The registers of RSTCLK and PWR whose reads are left open: the time that remains of a watchdog period, and V_IN. -/
def rstclkView (s : State) (off : Nat) : Option Word := if off = 0x048 then some (setFld (reg s .rstclk 0x048) 15 0 (freeN s)) else none

/-- V_IN as measured. -/
def pwrView (s : State) (off : Nat) : Option Word := if off = 0x05C then some (word (freeN s % 65536)) else none

/-! ### LINE_SAFE (R528) -/

/-- No register of a LINE page has been written since the reset: the application has not taken the lines over. -/
def linesUntouched (s : State) : Bool :=
  s.regs.all fun r => match pageAt (r.1 % 2 ^ 32) with
    | some (.line _) => decide (r.1 % 0x1000 < 0x40) && r.1 % 0x1000 != 4
    | _ => true

/-- The lantern points of a line that the RESTORE brought back, by index. -/
def restoredLanterns (s : State) (n : Nat) : List Nat :=
  (List.range ptCount).filter fun i => let c := ptHalf s i; cfgKind c == kindLine && !ptBad s i && cfgLine c == n

/-- FAILSAFE_CMD for a lantern: its position is mapped, and one LEVEL with its failsafe level, due at once, waits there. -/
def lineSafeCmd (n i : Nat) (s : State) : State :=
  let p := cfgPos (ptHalf s i)
  let s1 := setRegF (linePage n) (0x100 + 4 * (p / 2)) (16 * (p % 2) + 15) (16 * (p % 2)) i s
  putQueued n [p] { point := i, op := 1, arg := cfgFailsafe (ptHalf s i), act := nowMs s } s1

/-- RT0 runs a lantern line: LCYC frames up to its farthest lantern, of NOP slots where no position is mapped (R186).  A module that is
not in control listens (R472). -/
def lineSafeLine (n : Nat) (s : State) : State :=
  match restoredLanterns s n with
  | [] => s
  | pts =>
    let top := listMax (pts.map fun i => cfgPos (ptHalf s i) + 1)
    let s1 := pllEnable (linePage n) (setRegB (linePage n) 0x004 0 true s)
    let s2 := setRegB (linePage n) 0x080 0 true (setReg (linePage n) 0x088 (word top) s1)
    let s3 := if s.boot.safe = 2 && inControl s then forEach (lineSafeCmd n) pts s2 else s2
    setPortMode n (if inControl s then 1 else 2) s3

/-- RT0 acts under LINE_SAFE, unless the application has written a LINE page before (R528).  With LEVEL commands LSEQ sends no settings
of its own, so that every other slot is a NOP (DESIGN CHOICE, log 129). -/
def lineSafeGo (s : State) : State :=
  if s.boot.safe = 0 || !linesUntouched s then onBoot (fun b => { b with safe := 0 }) s
  else
    let s1 := setRegB .lseq 0x004 0 true s
    let s2 := if s.boot.safe = 2 then setRegB .lseq 0x040 2 false s1 else s1
    onBoot (fun b => { b with safe := 0 }) (forEach lineSafeLine (List.range 64) s2)

/-- PTAB serves lookups again: what the engines held is offered again (R38, R118, R120). -/
def ptResume (s : State) : State := attrUnhold (diagUnhold (crvUnhold (schedCatchUp (ptUnhold s))))

/-- `RESTORE_DONE` (R118); at the first one of a start, RT0 acts under LINE_SAFE (R528). -/
def execRestoreDone (s : State) : Out := done s (if restoring s then lineSafeGo (ptResume (restoreDone s)) else s)

end Sys2Proof.Machine
end

