-- ==== Sys2Proof/Machine/Twin.lean ====
section
/-! DEFINITION. The twin link controller: states, control, pairing, mirroring and switchover (R459-R481). -/
namespace Sys2Proof.Machine

/-! ### State and control -/

/-- `ROLE`: true for B. -/
def roleB (s : State) : Bool := regB s .twin 0x040 1

/-- HEALTHY. -/
def twinHealthy (s : State) : Bool := regB s .twin 0x044 8

/-- TWIN_PRES_N reads low. -/
def twinPres (s : State) : Bool := regB s .twin 0x044 11

/-- The unit takes part in pairing and arbitration, and its page works. -/
def twinOn (s : State) : Bool := twinEn s && enabled s .twin && !inReset s .twin

/-- In control as a unit that takes part (R461). -/
def twinCtrl (s : State) : Bool := twinEn s && regB s .twin 0x044 4

/-- Commands no longer wait for the peer (R470, R471). -/
def jrnFree (p : Nat → Bool) (s : State) : State :=
  let f := fun (c : Cmd) => if p c.uid then { c with jrn := false } else c
  let g := fun (x : LPos) => { x with queue := x.queue.map f, revokes := x.revokes.map f, setting := x.setting.map f }
  let pos := fun (l : Sparse LPos) => l.foldl (fun m x => spPut (fun _ => ({} : LPos)) x.1 (g x.2) m) ([] : Sparse LPos)
  let s1 := onCrv (fun c => { c with pos := pos c.pos, groups := c.groups.map fun h => { h with cmd := f h.cmd } }) s
  { s1 with line := s1.line.foldl (fun m x => spPut (fun _ => ({} : LineState)) x.1 { x.2 with pos := pos x.2.pos } m) ([] : Sparse LineState) }

/-- The two serials of a handover record. -/
def twinSerials (s : State) : List Byte := leBytes 8 (serial64 s) ++ leBytes 8 (peerSerial s)

/-- The handover record (R477): TWIN_SWITCH, then TWIN_TOTALS for each enabled phase slot. -/
def twinRecord (t cause : Nat) (s : State) : State :=
  let s1 := evrOffer .twin 0x0300 (leBytes 4 t ++ leBytes 1 cause ++ twinSerials s) s
  forEach (fun k u =>
    if (slotCircuit u k).isNone then u
    else
      let own := totOf u k
      let peer := spGet (fun _ => (0, 0)) u.twin.peerTot k
      let age := min 0xFFFF ((u.tb.cycles - u.twin.peerTotAt) / 250000000)
      evrOffer .twin 0x0301 (leBytes 1 k ++ leBytes 8 (native own.imp) ++ leBytes 8 (native own.exp) ++ leBytes 8 peer.1 ++ leBytes 8 peer.2 ++ leBytes 2 age) u)
    (List.range 24) s1

/-- What a peer's identity must agree in for a unit to enter PAIRING (R4, R465). -/
def identFits (p : TwinIdent) (s : State) : Bool :=
  p.order == regF s .ident 0x044 7 0 && p.fabAddr == fabAddr s && p.sameVersion && p.roleB != roleB s

/-- A peer has been found that fails R465: this unit stays DETACHED (R4, R461). -/
def peerUnfit (s : State) : Bool := s.twin.ident.any fun p => !identFits p s

/-- A change of STATE raises STATE_CHG; beside a peer that fails R465, or having left
the pairing, the unit stays DETACHED (R4, R461, R478); reaching PAIRING, the unit writes a record it owes (R477); leaving ACTIVE, commands stop waiting (R470). -/
def setTwinState (x' : Nat) (s : State) : State :=
  let x := if peerUnfit s || s.twin.left then 0 else x'
  if twinState s = x then s
  else
    let s1 := raiseIrq .twin 4 (setRegF .twin 0x044 2 0 x s)
    let s2 := if x = 4 then s1 else jrnFree (fun _ => true) s1
    if x = 1 ∧ s2.twin.owes then twinRecord (freeN s2) 1 (used (onTwin (fun t => { t with owes := false }) s2)) else s2

/-- A change of control is counted and stamped (R480): planned in [15:0], unplanned in [31:16]. -/
def twinSwitched (planned ctrl : Bool) (s : State) : State :=
  let s1 := if planned then bumpRegF .twin 0x070 15 0 s else bumpRegF .twin 0x070 31 16 s
  raiseIrq .twin 5 (setReg .twin 0x078 (word (nowMs s)) (setRegB .twin 0x044 4 ctrl s1))

/-! ### Block roles (R472) -/

/-- The lines whose PORT_MODE the controller writes: RUN = 1 and not left at OFF. -/
def twinLines (s : State) : List Nat := (List.range 64).filter fun n => lineRun s n && portMode s n != 0

/-- The modes of CRV, ERG, MIR, DIAG and ATTR, where firmware has not left them at OFF. -/
def twinModes (m : Nat) (s : State) : State :=
  let up := fun (s : State) =>
    let s1 := if crvMode s = 0 then s else crvModeTwin m s
    let s2 := if ergMode s1 = 0 then s1 else ergModeSet m s1
    let s3 := if mirMode s2 = 0 then s2 else mirModeSet m s2
    let s4 := if regF s3 .diag 0x040 1 0 = 0 then s3 else diagModeSet m s3
    if regF s4 .attr 0x040 1 0 = 0 then s4 else attrModeSet m s4
  let down := fun (s : State) =>
    let s1 := if regF s .attr 0x040 1 0 = 0 then s else attrModeSet m s
    let s2 := if regF s1 .diag 0x040 1 0 = 0 then s1 else diagModeSet m s1
    let s3 := if mirMode s2 = 0 then s2 else mirModeSet m s2
    let s4 := if ergMode s3 = 0 then s3 else ergModeSet m s3
    if crvMode s4 = 0 then s4 else crvModeTwin m s4
  if m = 1 then up s else down s

/-- What DIM takes from the mirrored state of a point as it starts to serve (R472): the level handed over last; a pending
command that the journal does not show is handed over again. -/
def twinSeed (i : Nat) (s : State) : State :=
  let w := dimFinal s i (nowMs s)
  let tgt := fld (ptWord s i 32) 31 16
  let at' := (ptWord s i 43).toNat
  let cmds := (s.line.flatMap fun l => l.2.pos.flatMap fun x => x.2.queue) ++ s.crv.pos.flatMap fun x => x.2.queue
  let match' := cmds.find? fun c => c.point == i && levelKind c.op && c.act == at'
  let pend := bit (ptWord s i 44) 4
  let id := if pend && match'.isNone then w.id + 1 else w.id
  putDimPt i { dimPt s i with
    last := tgt, force := (tgt, w.prio, id)
    pend := if pend then match'.map fun c => { level := c.arg, prio := c.prio, cause := c.cause, act := c.act, urgent := c.urgent, seq := c.seq } else none } s

/-- DIM evaluates every lantern point once, and SCHED reloads all (R472). -/
def twinServe (s : State) : State :=
  let s1 := forEach (fun i t => if isLantern (ptHalf t i) then twinSeed i t else t) (List.range ptCount) s
  let s2 := { s1 with dim := { s1.dim with queue := [], sweep := some 0 } }
  if accepting s2 .sched then schedReload 0x40 s2 else s2

/-- The column "in control" of R472 in its order; the ports of `later` wait for their release (R476). -/
def blocksTake (later : Bool) (s : State) : State :=
  let s1 := twinServe (setRegB .met 0x044 8 true s)
  let s2 := if later then onTwin (fun t => { t with toDrive := twinLines s1 }) s1 else forEach (fun n t => setPortMode n 1 t) (twinLines s1) s1
  let s3 := twinModes 1 s2
  let s4 := if regB s3 .ptab 0x048 1 then nuRestored s3 else s3
  contQuiesce false s4

/-- The column "not in control" but for the ports, in reverse order (R472). -/
def blocksRest (s : State) : State :=
  let s1 := { (setRegF .nupd 0x044 23 20 0 (contQuiesce true s)) with nupd := {} }
  setRegB .met 0x044 8 false (twinModes 2 s1)

/-- The column "not in control" of R472. -/
def blocksYield (s : State) : State :=
  let s1 := { (setRegF .nupd 0x044 23 20 0 (contQuiesce true s)) with nupd := {} }
  let s2 := forEach (fun n t => setPortMode n 2 t) (twinLines s1) (twinModes 2 s1)
  setRegB .met 0x044 8 false s2

/-- Takes control (R462, R473): cause 0 PLANNED, 1 TAKEOVER. -/
def twinTake (cause t : Nat) (s : State) : State :=
  let s1 := twinSwitched (cause == 0) true s
  let next := if cause = 0 then 4 else if twinState s = 0 || !twinPres s then 0 else 5
  twinRecord t cause (blocksTake (cause == 0) (setTwinState next s1))

/-- Yields (R464, R466, R479). -/
def twinYield (next : Nat) (s : State) : State :=
  if !twinCtrl s then s
  else
    let s1 := blocksYield (twinSwitched false false s)
    let s2 := onTwin (fun t => { t with out := [], handing := false, switchT := none, toRelease := [], toDrive := [], syncing := false, peerReady := false }) s1
    setTwinState next (twinRecord (nowMs s) 2 s2)

/-! ### Arbitration -/

/-- `ARB_PULSE`: in control, with fresh health (R462). -/
def execArbPulse (s : State) : Out := done s (if twinOn s && twinCtrl s && twinHealthy s then send (.arb (roleB s)) s else s)

/-- The peer's line is ignored around a planned switchover (R476). -/
def arbIgnored (s : State) : Bool :=
  (match s.twin.switchT with
    | some t => decide (-5 ≤ actDiff (nowMs s) t) && decide (actDiff (nowMs s) t ≤ 5)
    | none => false)
  || (match s.twin.lastT with
    | some c => decide (s.tb.cycles - c ≤ 1250000)
    | none => false)

/-- A falling edge on the peer's ARB line (R463). -/
def arbEdgePeer (s : State) : State :=
  if !twinOn s then s
  else
    let s1 := setRegB .twin 0x044 13 false (setRegB .twin 0x044 12 true s)
    if !twinCtrl s || arbIgnored s then s1
    else
      let s2 := raiseIrq .twin 7 (recErr .twin 0x102 s1)
      if roleB s then twinYield 1 s2 else s2

/-- `ARB_EDGE_PEER`. -/
def execArbEdgePeer (s : State) : Out := done s (arbEdgePeer s)

/-- This unit's serial is the lower of the two. -/
def lowerSerial (s : State) : Bool := match s.twin.ident with | some p => decide (serial64 s < p.serial) | none => false

/-- A foreign falling edge on the own ARB line (R466). -/
def arbEdgeOwn (s : State) : State :=
  if !twinOn s then s
  else
    let s1 := recErr .twin 0x101 (onTwin (fun t => { t with ownEdge := some s.tb.cycles }) s)
    if !twinCtrl s || lowerSerial s then s1
    else twinYield 1 (onTwin (fun t => { t with clashWait := s.twin.ident.isNone }) s1)

/-- `ARB_EDGE_OWN`. -/
def execArbEdgeOwn (s : State) : Out := done s (arbEdgeOwn s)

/-- `CLASH_WAIT_END`. -/
def execClashWaitEnd (s : State) : Out := done s (onTwin (fun t => { t with clashWait := false }) s)

/-- The own line has been silent for `ARB_SILENT` (R466). -/
def ownSilent (s : State) : Bool :=
  match s.twin.ownEdge with
  | some c => decide (regF s .twin 0x048 7 0 * 250000 ≤ s.tb.cycles - c)
  | none => true

/-- The unit may take control when its peer is silent (R462, R464, R466). -/
def mayTake (s : State) : Bool :=
  twinHealthy s && !twinCtrl s && !s.twin.clashWait && ownSilent s && !(s.twin.clash && !lowerSerial s)

/-- The peer's line has been silent for `ARB_SILENT`, or (`full`) for the time R462 asks of this unit's role (R462, R473). -/
def arbSilent (low full : Bool) (s : State) : State :=
  if !twinOn s then s
  else
    let s1 := setRegB .twin 0x044 13 low (setRegB .twin 0x044 12 false s)
    let s2 := if low then raiseIrq .twin 3 s1 else s1
    if twinState s = 3 then
      if !s.twin.lost then raiseIrq .twin 3 s2
      else if mayTake s2 then twinTake 1 (nowMs s) s2 else s2
    else if twinState s = 2 && !s.twin.lost then s2
    else if full && mayTake s2 then twinTake 1 (nowMs s) s2
    else s2

/-- `ARB_SILENT`. -/
def execArbSilent (low full : Bool) (s : State) : Out := done s (arbSilent low full s)

/-- A write of `TW_HEALTH` (R464). -/
def twHealthWrite (v : Word) (s : State) : State := if fld v 31 24 = 0x7E then setRegB .twin 0x044 8 true s else recErr .twin 0x107 s

/-- `TW_HEALTH`. -/
def execTwHealth (ini : Ini) (v : Word) (s : State) : Out := done s (admitWrite ini .twin 0x050 v (twHealthWrite v) s)

/-- `HEALTH_STALE`: heartbeats and pulses stop; a unit in control yields (R464). -/
def execHealthStale (s : State) : Out := done s (twinYield 1 (setRegB .twin 0x044 8 false s))

/-! ### Pairing -/

/-- What the offset of the time bases admits, in ns (R468). -/
def ofsWithin (s : State) (ns : Int) : Bool :=
  let o := signed 32 (regN s .twin 0x068)
  decide (-ns ≤ o) && decide (o ≤ ns)

/-- The receiver drops what it held of the journal as it syncs anew (DESIGN CHOICE, log 27). -/
def shadowClear (s : State) : State :=
  let f := fun (x : LPos) => { x with queue := [], revokes := [], setting := none }
  let pos := fun (l : Sparse LPos) => l.foldl (fun m x => spPut (fun _ => ({} : LPos)) x.1 (f x.2) m) ([] : Sparse LPos)
  let s1 := onCrv (fun c => { c with pos := pos c.pos, groups := [] }) s
  { s1 with line := s1.line.foldl (fun m x => spPut (fun _ => ({} : LineState)) x.1 { x.2 with pos := pos x.2.pos } m) ([] : Sparse LineState) }

/-- In PAIRING the unit in control sends, the other receives (R467). -/
def pairGoes (s : State) : State :=
  if twinState s != 1 || !s.twin.agreed || s.twin.left then s
  else if twinCtrl s && !s.twin.peerCtrl then setTwinState 5 (onTwin (fun t => { t with syncing := true, peerReady := false }) s)
  else if !twinCtrl s && s.twin.peerCtrl && ofsWithin s 500000 then setTwinState 2 (shadowClear (setReg .twin 0x07C 0 (onTwin (fun t => { t with peerActive := false }) s)))
  else s

/-- The presence of the peer changes (R461, R478). -/
def presChange (present : Bool) (s : State) : State :=
  let s1 := setRegB .twin 0x044 11 present s
  if present || !twinEn s then s1
  else setTwinState 0 (setRegF .twin 0x044 10 9 0 (onTwin (fun t =>
    { t with ident := none, agreed := false, clash := false, peerCtrl := false, syncing := false, peerReady := false, out := [], left := false, switchT := none }) s1))

/-- `PRES_CHANGE`. -/
def execPresChange (present : Bool) (s : State) : Out := done s (presChange present s)

/-- Identity is exchanged once TWIN_PRES_N reads low and both lanes train (R465, R466). -/
def identityExchange (p : TwinIdent) (s : State) : State :=
  if !twinOn s || !twinPres s || !laneUp s 0 || !laneUp s 1 || s.twin.left then s
  else
    let s1 := setReg .twin 0x064 (word (p.serial / 2 ^ 32)) (setReg .twin 0x060 (word (p.serial % 2 ^ 32)) s)
    let clash := p.roleB == roleB s
    let ok := identFits p s
    let s2 := onTwin (fun t => { t with ident := some p, agreed := ok, clash := clash, peerCtrl := p.ctrl, lost := false, seqRx := [] }) s1
    if ok then pairGoes (setTwinState 1 s2)
    else
      let s3 := recErr .twin (if clash then 0x101 else 0x100) s2
      let s4 := if clash && !decide (serial64 s < p.serial) then twinYield 0 s3 else s3
      setTwinState 0 (onTwin (fun t => { t with handing := false, switchT := none, toRelease := [] }) s4)

/-- `IDENTITY_EXCHANGE`. -/
def execIdentityExchange (p : TwinIdent) (s : State) : Out := done s (identityExchange p s)

/-- The items of the command journal (R469). -/
def jrnItem : LinkItem → Bool
  | .handed _ _ | .seqGiven _ _ _ _ | .acked _ _ _ | .revoked _ _ _ => true
  | _ => false

/-- A journal entry has been outstanding for more than 1 ms (R468). -/
def jrnLate (s : State) : Bool := s.twin.out.any fun o => jrnItem o.item && decide (250000 < s.tb.cycles - o.since)

/-- The limits of R468 are met: the receiver enters STANDBY, the sender ACTIVE. -/
def twinSynced (s : State) : State :=
  if !twinOn s || !ofsWithin s 100000 then s
  else if twinState s = 2 && regF s .twin 0x07C 7 0 == 100 then raiseIrq .twin 0 (setTwinState 3 s)
  else if twinState s = 5 && s.twin.syncing && !jrnLate s then
    raiseIrq .twin 0 (setTwinState 4 (setReg .twin 0x07C 100 (onTwin (fun t => { t with peerReady := true, syncing := false }) s)))
  else s

/-- `SYNCED`. -/
def execSynced (s : State) : Out := done s (twinSynced s)

/-! ### Planned switchover -/

/-- The unit in control chooses T (R475): at least 50 ms ahead, ACT_MS mod 10 = 5. -/
def switchChoose (s : State) : State :=
  let a := (nowMs s + 50) % 2 ^ 32
  let t := (a + (15 - a % 10) % 10) % 2 ^ 32
  linkSend (.switchAt t) (onTwin (fun x => { x with switchT := some t }) s)

/-- A planned switchover is requested (R475): refused while no unit is in STANDBY. -/
def switchAsk (s : State) : State :=
  if twinState s = 4 && twinCtrl s then (if s.twin.switchT.isSome then s else switchChoose s)
  else if twinState s = 3 then linkSend .switchReq s
  else recErr .twin 0x106 s

/-- A write of `TW_CMD` (R475, R478, R480). -/
def twCmdWrite (v : Word) (s : State) : State :=
  if fld v 31 24 != 0x54 then recErr .twin 0x107 s
  else match fld v 1 0 with
    | 1 => switchAsk s
    | 2 =>
      setTwinState 0 (onTwin (fun t => { t with left := true, agreed := false, peerCtrl := false, syncing := false, peerReady := false, out := [], switchT := none }) s)
    | 3 => if inControl s then recErr .twin 0x106 s else pairGoes (setTwinState 1 (onTwin (fun t => { t with left := false }) s))
    | _ => s

/-- `SWITCH`. -/
def execSwitch (ini : Ini) (s : State) : Out := done s (admitWrite ini .twin 0x054 0x54000001 (twCmdWrite 0x54000001) s)
/-- `DETACH`. -/
def execDetach (ini : Ini) (s : State) : Out := done s (admitWrite ini .twin 0x054 0x54000002 (twCmdWrite 0x54000002) s)
/-- `RESYNC`. -/
def execResync (ini : Ini) (s : State) : Out := done s (admitWrite ini .twin 0x054 0x54000003 (twCmdWrite 0x54000003) s)

/-- `RECLAIM`: a role-A unit has been in STANDBY with fresh health for `RECLAIM_T` (R475). -/
def execReclaim (s : State) : Out :=
  done s (if twinOn s && regB s .twin 0x040 3 && !roleB s && twinState s == 3 && twinHealthy s then linkSend .switchReq s else s)

/-- Journal entries wait for their acknowledgement. -/
def jrnOpen (s : State) : Bool := s.twin.out.any fun o => jrnItem o.item

/-- The handing unit goes on (R476): idle lines are released, then the rest of the yield column, then control ends. -/
def handStep (s : State) : State :=
  if !s.twin.handing || jrnOpen s then s
  else
    let idle := s.twin.toRelease.filter fun n => !pairBusy s n
    let s1 := forEach (fun n t => linkSend (.lineReleased (Fin.ofNat 64 n)) (setPortMode n 2 t)) idle s
    let rest := s.twin.toRelease.filter fun n => pairBusy s n
    let s2 := onTwin (fun t => { t with toRelease := rest }) s1
    if rest.isEmpty then
      let t := s.twin.switchT.getD 0
      let s3 := onTwin (fun x => { x with handing := false, switchT := none, peerReady := false, peerCtrl := true }) (blocksRest (twinSwitched true false s2))
      setTwinState 3 (twinRecord t 0 s3)
    else s2

/-- T has come (R476). -/
def switchoverT (s : State) : State :=
  match s.twin.switchT with
  | none => s
  | some t =>
    if !twinOn s || !isDue t (nowMs s) || s.twin.handing then s
    else if twinCtrl s then handStep (onTwin (fun x => { x with handing := true, toRelease := twinLines s }) s)
    else if twinState s = 3 then twinTake 0 t (onTwin (fun x => { x with switchT := none, lastT := some s.tb.cycles, peerCtrl := false }) s)
    else s

/-- `SWITCHOVER_T`. -/
def execSwitchoverT (s : State) : Out := done s (switchoverT s)

/-- A released line is driven by the taking unit (R476). -/
def lineReleased (n : Nat) (s : State) : State :=
  if s.twin.toDrive.contains n then setPortMode n 1 (onTwin (fun t => { t with toDrive := t.toDrive.filter (· != n) }) s) else s

/-- `LINE_RELEASED`: the message reaches the taking unit. -/
def execLineReleased (n : Fin 64) (s : State) : Out := done s (lineReleased n.val s)

/-! ### Link messages -/

/-- The session that words of R387 spell, with D, the guard and R of word 5; three more words carry its EUI-64 and channel offset (the
model's layout: the manual gives the link no format). -/
def sesFromWords (old : CrvSes) (ws : List Word) : CrvSes :=
  let w := fun k hi lo => fld (wordAt ws k) hi lo
  { old with
    drift := ((signed 16 (w 5 31 16) : Int) : Rat) / 100, guard := ((100 * w 5 15 8 : Nat) : Rat), res := [((20 * w 5 7 0 : Nat) : Rat)]
    eui := (wordAt ws 9).toNat * 2 ^ 32 + (wordAt ws 8).toNat, offset := (wordAt ws 10).toNat
    valid := bit (wordAt ws 0) 31, router := bit (wordAt ws 0) 30, sleepy := bit (wordAt ws 0) 29, lost := bit (wordAt ws 0) 28, depth := w 0 27 24
    ngen := w 0 23 16, parent := w 0 11 0, lqi := w 1 31 28, misses := w 1 27 24, dsn := w 1 23 16, point := w 1 13 0, fc := (wordAt ws 2).toNat
    fcMs := (wordAt ws 3).toNat, lease := (wordAt ws 4).toNat, nominal := (wordAt ws 6).toNat, pollS := w 7 31 16 }

/-- A place of a point: the line and its position, or none for a radio point. -/
def jrnPlace (s : State) (point place : Nat) : Option (Nat × Nat) := (cmdPlaces s point).map fun x => (x.1, place)

/-- Changes the shadow queue of a place. -/
def jrnUpd (point place : Nat) (f : LPos → LPos) (s : State) : State :=
  match jrnPlace s point place with
  | some (n, p) => putLpos n p (f (lposOf s n p)) s
  | none => putRpos point (f (rposOf s point)) s

/-- The journal in the receiver's shadow queues (R469, R472). -/
def jrnApply (item : LinkItem) (s : State) : State :=
  let drop := fun (uid : Nat) (x : LPos) => { x with queue := x.queue.filter (·.uid != uid), revokes := x.revokes.filter (·.uid != uid) }
  match item with
  | .handed place c =>
    let k : Cmd := { point := c.point, op := c.op, arg := c.arg, act := c.act, urgent := c.urgent, src := c.src, cause := c.cause, prio := c.prio, uid := c.uid }
    jrnUpd c.point place (fun x => if c.op = 4 then { x with revokes := x.revokes ++ [k] } else match enqueue k x.queue with
      | some q => { x with queue := q }
      | none => x) { s with dim := { s.dim with nextId := max s.dim.nextId (c.uid + 1) } }
  | .seqGiven point place uid q => jrnUpd point place (fun x => { lposUpd x uid (fun c => { c with seq := some q }) with hist := some q }) s
  | .acked point place uid => jrnUpd point place (drop uid) s
  | .revoked point place uid => jrnUpd point place (drop uid) s
  | _ => s

/-- A mirrored item is applied where this unit is not in control and syncs or stands by (R469). -/
def mirrorApply (item : LinkItem) (s : State) : State :=
  if twinCtrl s || !(twinState s == 2 || twinState s == 3) then s
  else match item with
    | .cfg i h => pointChanged i.val (ptBefore s i.val) (ptMirrorHalf i.val ((List.range 32).map (wordAt h)) s)
    | .st i h => diagMirrored i.val ((ptEntry s i.val).drop 32) (ptMirrorState i.val ((List.range 32).map (wordAt h)) s)
    | .request i p e => memWrite (reqAddr s i.val p.val) (takePad 16 e) s
    | .hours i h => dimHoursPt h i.val s
    | .preEmph n k => setPort n.val (fun q => { q with peStep := k }) s
    | .session n ws => putSes n.val (sesFromWords (sesOf s n.val) ws) s
    | .caravan e g f => putFcTx f (setRegF .crv 0x04C 7 0 g (onCrv (fun c => { c with epoch := e }) s))
    | .track src ws => mirReceive false src.val ws s
    | .trackCancel src ws => mirReceive true src.val ws s
    | .flood o q => floodKeep o q s
    | .nupd off b => if 0x2C0000 ≤ off ∧ off + b.length ≤ 0x300000 then memWrite (0x20000000 + off) b s else s
    | .totals k i e => onTwin (fun t => { t with peerTot := spPut (fun _ => (0, 0)) k.val (i, e) t.peerTot, peerTotAt := s.tb.cycles }) s
    | .progress p => setReg .twin 0x07C (word p.val) s
    | i => jrnApply i s

/-- A heartbeat (R468, R471): the offset of the peer's TB0; what the peer says of itself.  A standby whose sender falls back from ACTIVE
to DEGRADED syncs again (R471, R479). -/
def heartbeatRx (sec ns : Nat) (ctrl : Bool) (state : Nat) (s : State) : State :=
  let ofs := clampInt (-2 ^ 31) (2 ^ 31 - 1) (((sec * 1000000000 + ns : Nat) : Int) - (tbNs s.tb.t0 : Nat))
  let s1 := onTwin (fun t => { t with lost := false, peerCtrl := ctrl }) (setReg .twin 0x068 (word (unsigned 32 ofs)) s)
  if twinState s1 = 3 && !ofsWithin s1 500000 then raiseIrq .twin 1 (recErr .twin 0x105 (setTwinState 1 s1))
  else if twinState s1 = 3 && state == 5 && s1.twin.peerActive then pairGoes (setTwinState 1 (onTwin (fun t => { t with peerActive := false }) s1))
  else if twinState s1 = 3 && state == 4 then onTwin (fun t => { t with peerActive := true }) s1
  else if twinState s1 = 4 && (state == 1 || state == 2) then setTwinState 5 (onTwin (fun t => { t with syncing := true, peerReady := false }) s1)
  else if twinState s1 = 5 && (state == 1 || state == 2) then onTwin (fun t => { t with syncing := true }) s1
  else pairGoes s1

/-- An acknowledgement of a message of this unit (R470, R471). -/
def ackRx (q : Nat) (s : State) : State :=
  match s.twin.out.find? fun o => o.seq == q with
  | none => s
  | some o =>
    let lag := min 0xFFFF ((s.tb.cycles - o.since) / 250)
    let s1 := onTwin (fun t => { t with out := t.out.filter fun x => x.seq != q, lag := max t.lag lag }) s
    handStep (match o.item with | .handed _ c => jrnFree (· == c.uid) s1 | _ => s1)

/-- What a message that is not a repeat does. -/
def linkApply (item : LinkItem) (s : State) : State :=
  match item with
  | .heartbeat sec ns c st => heartbeatRx sec ns c st.val s
  | .ack q => ackRx q s
  | .lineReleased n => lineReleased n.val s
  | .switchReq => if twinState s = 4 && twinCtrl s && s.twin.switchT.isNone then switchChoose s else s
  | .switchAt t => if twinState s = 3 then onTwin (fun x => { x with switchT := some t }) s else s
  | i => mirrorApply i s

/-- A link message arrives (R471): it is acknowledged; a repeat is discarded. -/
def linkMessage (lane seq : Nat) (item : LinkItem) (s : State) : State :=
  if !twinOn s || !laneUp s lane || s.twin.ident.isNone then s
  else match item with
    | .ack q => ackRx q s
    | _ =>
      let s1 := send (.link lane (s.twin.seqTx + 1) (.ack seq)) (onTwin (fun t => { t with seqTx := (t.seqTx + 1) % 2 ^ 32 }) s)
      if s.twin.seqRx.contains seq then s1 else linkApply item (onTwin (fun t => { t with seqRx := ((seq :: t.seqRx).take 64) }) s1)

/-- `LINK_MESSAGE`. -/
def execLinkMessage (lane : Fin 2) (seq : Nat) (item : LinkItem) (s : State) : Out := done s (linkMessage lane.val seq item s)

/-- The link has failed for good (R471, R476). -/
def linkFails (s : State) : State :=
  let s1 := recErr .twin 0x103 (jrnFree (fun _ => true) (onTwin (fun t => { t with out := [], syncing := false, peerReady := false }) s))
  let s2 := if twinState s1 = 4 then setTwinState 5 s1 else s1
  if s2.twin.handing then handStep s2
  else if s2.twin.switchT.isSome then onTwin (fun t => { t with switchT := none }) s2 else s2

/-- A message without an acknowledgement (R471): once more on the other lane, or on the same if only one is up; then the
failure is lasting. -/
def linkAckTimeout (q : Nat) (s : State) : State :=
  match s.twin.out.find? fun o => o.seq == q with
  | none => s
  | some o =>
    if o.second then (if twinCtrl s then linkFails s else onTwin (fun t => { t with out := t.out.filter fun x => x.seq != q }) s)
    else
      let lane := if laneUp s 0 && laneUp s 1 then 1 - lane1st s else lane1st s
      send (.link lane q o.item) (bumpRegF .twin 0x074 15 0 (onTwin (fun t => { t with out := t.out.map fun x => if x.seq = q then { x with second := true } else x }) s))

/-- `LINK_ACK_TIMEOUT`. -/
def execLinkAckTimeout (seq : Nat) (s : State) : Out := done s (linkAckTimeout seq s)

/-- A heartbeat on a lane. -/
def heartbeatTx (l : Nat) (s : State) : State :=
  if !laneUp s l then s
  else
    let q := (s.twin.seqTx + 1) % 2 ^ 32
    let item := LinkItem.heartbeat s.tb.t0.sec s.tb.t0.ns (inControl s) (Fin.ofNat 6 (twinState s))
    send (.link l q item) (onTwin (fun t => { t with seqTx := q, out := t.out ++ [{ seq := q, item := item, since := s.tb.cycles }] }) s)

/-- `HEARTBEAT`: on each lane that is up, while health is fresh (R464, R471). -/
def execHeartbeat (s : State) : Out := done s (if twinOn s && twinHealthy s && s.twin.ident.isSome then heartbeatTx 1 (heartbeatTx 0 s) else s)

/-- A lane trains (R465, R471). -/
def execLaneUp (l : Fin 2) (s : State) : Out := done s (if twinOn s && twinPres s then setRegB .twin 0x044 (9 + l.val) true s else s)

/-- A lane without messages for 5 ms is down (R471); with no lane left, a switchover that is due later is off (R476). -/
def laneDown (l : Nat) (s : State) : State :=
  if !laneUp s l then s
  else
    let s1 := raiseIrq .twin 2 (bumpRegF .twin 0x074 31 16 (setRegB .twin 0x044 (9 + l) false s))
    if !laneUp s1 0 && !laneUp s1 1 && twinCtrl s1 && s1.twin.switchT.isSome && !s1.twin.handing then
      recErr .twin 0x103 (onTwin (fun t => { t with switchT := none }) s1) else s1

/-- `LANE_DOWN`. -/
def execLaneDown (l : Fin 2) (s : State) : Out := done s (laneDown l.val s)

/-- No heartbeat for `HB_LOSS` (R471, R473): a STANDBY takes over where the peer's line is silent, else it goes back to
PAIRING; a unit in control goes on in DEGRADED, and keeps control although T was set (R476). -/
def peerLost (s : State) : State :=
  if !twinOn s then s
  else
    let s1 := raiseIrq .twin 6 (onTwin (fun t => { t with lost := true, peerCtrl := false, peerReady := false, syncing := false, switchT := if t.handing then t.switchT else none }) s)
    match twinState s with
    | 3 =>
      if regB s .twin 0x044 12 then recErr .twin 0x104 (setTwinState 1 s1)
      else if mayTake s1 then twinTake 1 (nowMs s) s1 else s1
    | 4 =>
      let s2 := setTwinState 5 (jrnFree (fun _ => true) (onTwin (fun t => { t with out := [] }) s1))
      if s.twin.handing then handStep s2 else if s.twin.switchT.isSome then recErr .twin 0x103 s2 else s2
    | 2 => setTwinState 1 s1
    | _ => s1

/-- `PEER_LOST`. -/
def execPeerLost (s : State) : Out := done s (peerLost s)

/-! ### Frames that end during a switchover, and returns overheard -/

/-- An overheard acknowledgement takes its command off the shadow queue (R472). -/
def overheardAck (n : Nat) (x : Nat × Nat × Nat) (s : State) : State :=
  let y := lposOf s n x.1
  if stAckValid x.2.1 then
    let keep := fun (c : Cmd) => c.seq != some (stAckSeq x.2.1)
    putLpos n x.1 { y with queue := y.queue.filter keep, revokes := y.revokes.filter keep } s
  else s

/-- A LINE receiver in LISTEN overhears the return behind an accepted preamble: its acknowledgements, its bit errors and the margin
of position 0 (R125, R142, R472). -/
def overhear (n : Nat) (slots : List (Nat × Nat)) (bitErrs : Nat) (s : State) : State :=
  if portMode s n != 2 || !(lineOf s n).preOk then s
  else hearReturn n bitErrs (lastMargin slots) (forEach (overheardAck n) (validSlots slots) s)

/-- `RETURN_STREAM` (R201); not in control, it is overheard; a handing unit goes on. -/
def execReturnStream (n : Fin 64) (slots : List (Nat × Nat)) (bitErrs : Nat) (s : State) : Out :=
  done s (if inControl s then handStep (returnStream n.val slots bitErrs s) else overhear n.val slots bitErrs s)

/-- `RETURN_TIMEOUT` (R202). -/
def execReturnTimeout (n : Fin 64) (s : State) : Out := done s (handStep (returnTimeout n.val s))

/-! ### Registers and resets -/

/-- A write of `TW_CTRL` (R462, R465, R481): a unit with EN = 0 is in control; taking part, it is not until R462 lets it. -/
def twCtrlWrite (ini : Ini) (v : Word) (s : State) : State :=
  let was := twinEn s
  let s1 := plainWrite ini .twin 0x040 v s
  if was == twinEn s1 then s1
  else if twinEn s1 then setRegF .twin 0x044 2 0 0 (blocksYield (setRegB .twin 0x044 4 false s1))
  else
    let ctrl := regB s1 .twin 0x044 4
    let s2 := setRegF .twin 0x044 2 0 0 (setRegB .twin 0x044 4 false { s1 with twin := { peerTot := s1.twin.peerTot, peerTotAt := s1.twin.peerTotAt } })
    let s3 := jrnFree (fun _ => true) s2
    if ctrl then s3 else blocksTake false s3

/-- The registers of TWIN whose reads are computed (R480, R481): CTRL reads 1 for a unit with EN = 0 (R462). -/
def twinView (s : State) (off : Nat) : Option Word :=
  if off = 0x044 then some (setBit (reg s .twin 0x044) 4 (inControl s))
  else if off = 0x06C then some (word (s.twin.lag * 65536 + min 0xFFFF ((s.twin.out.filter fun o => jrnItem o.item).length)))
  else none

/-- A read of `JRN_LAG` starts its longest acknowledgement anew (R480). -/
def jrnLagRead (s : State) : State := answer (.data ((twinView s 0x06C).getD 0)) (onTwin (fun t => { t with lag := 0 }) s)

/-- Link messages in flight (R479). -/
def twinBusy (s : State) : Bool := !s.twin.out.isEmpty

/-- Under `QUIESCE_REQ` journal entries are no longer sent (R479). -/
def twinQuiesce (s : State) : State := if twinState s = 4 then setTwinState 5 (onTwin (fun t => { t with syncing := false }) s) else s

/-- A block reset of TWIN (R479): the link stops, a unit in control yields, and the state is DETACHED; FULL takes `TW_CTRL`
from the option bytes in force. -/
def twinDatapath (full : Bool) (s : State) : State :=
  let s1 := if twinCtrl s then twinYield 0 s else s
  let s2 := setTwinState 0 s1
  let s3 := setReg .twin 0x044 (word (b01 (regB s2 .twin 0x044 11) * 2048)) { s2 with twin := { owes := s2.twin.owes, peerTot := s2.twin.peerTot, peerTotAt := s2.twin.peerTotAt } }
  if full then setReg .twin 0x040 (word (8 + optByte s 9 % 4 / 2 + optByte s 9 % 2 * 2)) s3 else s3

end Sys2Proof.Machine
end

