-- ==== Sys2Proof/Machine/Hooks.lean ====
section
/-! DEFINITION. What each block does at the events of the common header: enable, disable, quiesce, release, sleep, and block
reset (R28-R43 and the chapters' own rules). -/
namespace Sys2Proof.Machine

/-- A wire that an armed USB endpoint, a pulse or a transaction occupies. -/
def anySer (s : State) : Bool := [0, 1].any fun q => mbBusy s q || !(serPort s q).tx.isEmpty

/-- Accepted work, or requests of its own, outstanding: `BLK_STAT.BUSY` (R29). -/
def pageBusy (s : State) : Page → Bool
  | .line n => lineBusy s n.val
  | .lseq => (List.range 64).any (lineBusy s)
  | .pixb => (List.range 8).any fun g => (pixGroup s g).wait.isSome
  | .ptab => ptabBusy s
  | .dim => dimBusy s
  | .mir => mirBusy s
  | .diag => !s.diag.obs.isEmpty || !s.diag.reps.isEmpty
  | .met => metBusy s
  | .attr => attrBusy s
  | .crv => crvBusy s
  | .nupd => nupdBusy s
  | .eth n => ethBusy s n.val
  | .erg => ergBusy s
  | .twin => twinBusy s
  | .sec => secBusy s
  | .cryp => crypBusy s
  | .dma => dmaBusy s
  | .cmdq => cmdqBusy s
  | .evr => !s.evr.queue.isEmpty
  | .memc => !s.nand.ops.isEmpty
  | .cont => s.cont.pulse.any fun x => x.2.isSome
  | .ser485 => anySer s
  | .usbd => (List.range 6).any (epArmed s)
  | _ => false

/-- The quiesce is complete: nothing accepted is left; MET holds its windows and snapshots back instead (R35, R329), and ATTR has its
lanterns uncoded first (R352). -/
def pageDrained (s : State) (p : Page) : Bool := p == .met || (!pageBusy s p && !(p == .attr && attrUncodes s))

/-- EN is set (R631, R71). -/
def pageEnable (p : Page) (s0 : State) : State :=
  let s := pllEnable p s0
  match p with
  | .line n => startDrive n.val s
  | .dim => dimUnhold (dimEnable s)
  | .mir => mirUnhold s
  | .sched => schedCatchUp (schedRedoAll s)
  | .met => metEnable s
  | .ttrig => trgResume s
  | .ptab => ptResume s
  | .eth n => pauseEval false n.val (ethPump n.val s)
  | .crv => radioSee s
  | _ => s

/-- EN is cleared (R631). -/
def pageDisable (p : Page) (s0 : State) : State :=
  let s := match p with
    | .line n => driveOff n.val s0
    | .mir => mirStop s0
    | .met => metDisable s0
    | .crv => radioSee s0
    | _ => s0
  pllDisable p s

/-- QUIESCE_REQ or SLEEP_REQ is set while neither was. -/
def pageQuiesce (p : Page) (s : State) : State :=
  match p with
  | .attr => attrVoidAll 6 s
  | .twin => twinQuiesce s
  | _ => s

/-- Neither QUIESCE_REQ nor SLEEP_REQ is set any longer: the block takes work again, and what was kept is offered again
(R36, R38). -/
def pageRelease (p : Page) (s : State) : State :=
  match p with
  | .dim => dimUnhold s
  | .mir => mirUnhold s
  | .dma => dmaResume s
  | .cont => contKeep s
  | .sched => schedCatchUp s
  | .ptab => ptResume s
  | .eth n => ethPump n.val s
  | _ => s

/-- The block has quiesced (R409: NUPD writes its descriptor first). -/
def pageQuiesced (p : Page) (s : State) : State :=
  match p with
  | .nupd => if nuState s = 0 then s else nuDesc s
  | _ => s

/-- The block's clocks are gated (R37, R430). -/
def pageSleep (p : Page) (s : State) : State :=
  match p with
  | .eth n => ethSleep n.val s
  | .crv => radioSee s
  | _ => s

/-- The block is awake again (R37, R430). -/
def pageAwake (p : Page) (s : State) : State :=
  match p with
  | .eth n => ethAwake n.val s
  | .line n => startDrive n.val s
  | .usbd => usbVbus s
  | .gpio => gpioSee s
  | .crv => radioSee s
  | _ => s

/-- In-flight work, internal queues and buffers, and the block's own status are reset (R39, and the chapters' rules). -/
def pageDatapath (full : Bool) (p : Page) (s : State) : State :=
  match p with
  | .irqr => { s with claims := [], swi := 0 }
  | .tb n =>
    let s1 := forEach (fun i t => setRegI (.tb n) 0x04C i 0 (setRegI (.tb n) 0x050 i 0 t)) (List.finRange 10) s
    if full then { s1 with tb := setTb n {} s1.tb } else s1
  | .ttrig =>
    let s1 := forEach (fun u t => setReg .ttrig (0x114 + 0x20 * u) 0 t) (List.range 16) { s with cap := [] }
    if full then { s1 with trg := [] } else s1
  | .ptab => ptabDatapath s
  | .line n => if full then lineFull n.val s else lineDatapath false n.val s
  | .lseq => lseqDatapath full s
  | .pixb => pixbDatapath s
  | .dim => dimDatapath full s
  | .sched => schedDatapath full s
  | .mir => mirDatapath full s
  | .det => detDatapath full s
  | .diag => diagDatapath s
  | .met => metDatapath full s
  | .attr => attrDatapath s
  | .crv => crvDatapath full s
  | .rf r => putRf r.val { rfOf s r.val with floor := none } s
  | .nupd => if full then { nupdDatapath s with nupd := {} } else nupdDatapath s
  | .eth n => ethDatapath n.val s
  | .erg => ergDatapath full s
  | .twin => contKeep (twinDatapath full s)
  | .cryp => crypDatapath s
  | .dma => dmaDatapath s
  | .cmdq => cmdqDatapath s
  | .evq => evqDatapath s
  | .evr => evrDatapath s
  | .cont => contOff s
  | .gpio => setReg .gpio 0x068 0 s
  | .ser485 => serDatapath s
  | .usbd => usbOff s
  | _ => s

/-- Registers that a reset of reach FULL does not return to a value of its own: what shows the option bytes in force, the
levels at the lands, what the twin page takes from the option bytes, and MET's totals, which are kept (R39, R328). -/
def keptOff : Page → Nat → Bool
  | .optb, off => decide (0x40 ≤ off) && !(decide (0x0C0 ≤ off) && decide (off < 0x100))
  | .gpio, off => off == 0x054
  | .usbd, off => off == 0x044
  | .twin, off => off == 0x040 || off == 0x044
  | _, _ => false

/-- Every register of a page returns to its reset value, those of each initiator too. -/
def dropRegs (p : Page) (s : State) : State :=
  { s with
    regs := s.regs.filter fun r => r.1 % 2 ^ 32 / 0x1000 * 0x1000 != pageBase p || keptOff p (r.1 % 0x1000)
    lockKey := spPut (fun _ => 0) (pageBase p) 0 s.lockKey }

/-- What a block loads again at a reset: IDENT its identity words (R600), NUPD a stored campaign (R409), DET the levels of
its inputs. -/
def pageReload (old : State) (p : Page) (full : Bool) (s : State) : State :=
  match p with
  | .ident => used (identRead (freeN s) s)
  | .crv => radioSee s
  | .nupd => if full && regB s .ptab 0x048 1 && inControl s then nuRestored s else s
  | .line n => if (lineOf s n.val).port.hot then setEl n.val 7 true s else s
  | .det => forEach (fun n t => setRegB .det (0x10C + 0x10 * n) 16 (regB old .det (0x10C + 0x10 * n) 16) t) (List.range 16) s
  | _ => s

/-- A block reset has ended: READY (R41, R153, R236, R328). -/
def pageReady (p : Page) (s : State) : State :=
  match p with
  | .line n => startDrive n.val s
  | .dim => dimReady s
  | .met => metReady s
  | .cont => contKeep s
  | .usbd => usbVbus s
  | .gpio => gpioSee s
  | .sched => schedCatchUp s
  | .ptab => ptResume s
  | .eth n => pauseEval false n.val s
  | .crv => radioSee s
  | _ => s

end Sys2Proof.Machine
end

