-- ==== Sys2Proof/Machine/Header.lean ====
section
/-! DEFINITION. The common header: `BLK_CTRL`, `BLK_STAT`, `IRQ_STAT`, `LOCK` and `BLK_RST` (R26-R43, R631). -/
namespace Sys2Proof.Machine

/-! ### BLK_CTRL and BLK_STAT -/

/-- The clocks are gated once the block is quiesced under SLEEP_REQ (R37). -/
def blkSleep (p : Page) (s : State) : State := pageSleep p (setRegB p 0x008 4 true s)

/-- The block wakes (R37). -/
def blkWake (p : Page) (s : State) : State := pageAwake p (setRegB p 0x008 4 false s)

/-- `BLK_CTRL` with EN as its lock leaves it (R33). -/
def ctrlValue (s : State) (p : Page) (v : Word) : Word :=
  if locked s p 31 then setBit (v &&& 7) 0 (enabled s p) else v &&& 7

/-- What a change of EN does (R631). -/
def ctrlEn (p : Page) (old new : Word) (s : State) : State :=
  if bit new 0 && !bit old 0 then pageEnable p s else if !bit new 0 && bit old 0 then pageDisable p s else s

/-- What the requests do (R35-R37), of a block that was QUIESCED and ASLEEP as given: a quiesce begins, a sleep follows a
quiesce that is complete, a release clears ASLEEP, and QUIESCED where neither request is left. -/
def ctrlReq (p : Page) (old new : Word) (quiet gated : Bool) (s : State) : State :=
  let s1 := if bit new 1 then (if quiet && !gated then blkSleep p s else s) else if gated then blkWake p s else s
  let was := bit old 2 || bit old 1
  let is := bit new 2 || bit new 1
  if is then (if was then s1 else pageQuiesce p s1)
  else if was then pageRelease p (setRegB p 0x008 1 false s1)
  else s1

/-- A write of `BLK_CTRL` (R28, R33). -/
def ctrlWrite (p : Page) (v : Word) (s : State) : State :=
  let old := reg s p 0x004
  let new := ctrlValue s p v
  let s1 := setReg p 0x004 new s
  let s2 := if bit new 0 != bit v 0 then recErr p errLockedWrite s1 else s1
  ctrlReq p old new (quiesced s p) (asleep s p) (ctrlEn p old new s2)

/-- A write of `BLK_CTRL` that changes one of its bits. -/
def ctrlRow (ini : Ini) (p : Page) (n : Nat) (b : Bool) (s : State) : Out :=
  let v := setBit (reg s p 0x004) n b
  done s (admitWrite ini p 0x004 v (ctrlWrite p v) s)

/-- `BLK_ENABLE`. -/
def execBlkEnable (ini : Ini) (p : Page) (s : State) : Out := ctrlRow ini p 0 true s
/-- `BLK_DISABLE`. -/
def execBlkDisable (ini : Ini) (p : Page) (s : State) : Out := ctrlRow ini p 0 false s
/-- `QUIESCE_REQ`. -/
def execQuiesceReq (ini : Ini) (p : Page) (s : State) : Out := ctrlRow ini p 2 true s
/-- `QUIESCE_RELEASE`. -/
def execQuiesceRelease (ini : Ini) (p : Page) (s : State) : Out := ctrlRow ini p 2 false s
/-- `SLEEP_REQ`. -/
def execSleepReq (ini : Ini) (p : Page) (s : State) : Out := ctrlRow ini p 1 true s
/-- `SLEEP_RELEASE`. -/
def execSleepRelease (ini : Ini) (p : Page) (s : State) : Out := ctrlRow ini p 1 false s

/-- The block may set QUIESCED now: it is asked to, is not quiesced yet, and nothing accepted is left (R35). -/
def mayQuiesce (s : State) (p : Page) : Bool :=
  !absentPage p && (regB s p 0x004 2 || regB s p 0x004 1) && !quiesced s p && !inReset s p && pageDrained s p

/-- `QUIESCED`: the flag and its interrupt rise; a block asked to sleep then gates its clocks (R35, R37). -/
def blkQuiesced (p : Page) (s : State) : State :=
  if mayQuiesce s p then
    let s1 := raiseIrq p 30 (setRegB p 0x008 1 true (pageQuiesced p s))
    if regB s p 0x004 1 && !asleep s p then blkSleep p s1 else s1
  else s

/-- `QUIESCED`. -/
def execQuiesced (p : Page) (s : State) : Out := done s (blkQuiesced p s)

/-- `BLK_STAT` as it reads (R29): READY 0 in a reset and while the page's PLL is not locked (R41, R553). -/
def blkStat (s : State) (p : Page) : Word :=
  setBit (setBit (reg s p 0x008) 2 (pageBusy s p)) 0 (!inReset s p && !pllStalls s p)

/-- `IRQ_RAW` as it reads (R30): QUIESCED follows `BLK_STAT.QUIESCED`. -/
def irqRaw (s : State) (p : Page) : Word := setBit (reg s p 0x00C) 30 (quiesced s p)

/-! ### Interrupts and errors -/

/-- `BLK_STAT.ERR`, `ERR_CODE` and `ERR_LOC` clear (R31). -/
def clearErr (p : Page) (s : State) : State :=
  setRegB p 0x00C 31 false (setRegB p 0x008 3 false (setReg p 0x01C 0 (setReg p 0x018 0 s)))

/-- A write of `IRQ_STAT` (R31): the error of an armed `LOCK` key that this very write cancels (R33) arrives in its clock, so
it outlives the clear. -/
def irqStatWrite (p : Page) (v : Word) (s : State) : State :=
  let s1 := setReg p 0x014 (reg s p 0x014 &&& ~~~v) s
  cancelKey p (if bit v 31 then clearErr p s1 else s1)

/-- `IRQ_STAT_CLEAR`. -/
def execIrqStatClear (ini : Ini) (p : Page) (v : Word) (s : State) : Out := done s (admitWrite ini p 0x014 v (irqStatWrite p v) s)

/-! ### LOCK (R33, R34) -/

/-- The initiator whose key is armed, plus one. -/
def keyHolder (s : State) (p : Page) : Nat := spGet (fun _ => 0) s.lockKey (pageBase p)

/-- Arms an initiator's key (given plus one), or with 0 none. -/
def armKey (p : Page) (k : Nat) (s : State) : State := { s with lockKey := spPut (fun _ => 0) (pageBase p) k s.lockKey }

/-- A write of `LOCK`.  A mask from an initiator without a key, while another's key is armed, records BAD_KEY twice: once for
the key it cancels and once for itself (DESIGN CHOICE, log 116: R33 gives both rules and does not say whether they add up). -/
def lockWrite (ini : Ini) (p : Page) (v : Word) (s : State) : State :=
  let k := keyHolder s p
  let mine := ini.id.val + 1
  if v = 0x4C4B then armKey p mine (if k = 0 ∨ k = mine then s else recErr p errBadKey s)
  else if k = mine then setReg p 0x020 (reg s p 0x020 ||| v) (armKey p 0 s)
  else recErr p errBadKey (cancelKey p s)

/-- `LOCK_KEY`. -/
def execLockKey (ini : Ini) (p : Page) (s : State) : Out := done s (admitWrite ini p 0x020 0x4C4B (lockWrite ini p 0x4C4B) s)
/-- `LOCK_MASK`. -/
def execLockMask (ini : Ini) (p : Page) (v : Word) (s : State) : Out := done s (admitWrite ini p 0x020 v (lockWrite ini p v) s)

/-! ### BLK_RST (R39-R43) -/

/-- The pages that refuse a block reset of reach DATAPATH or FULL (R40). -/
def refusesReset : Page → Bool
  | .sys => true | .rstclk => true | .pwr => true | .memc => true | .sec => true | .oasis => true | _ => false

/-- Reach ERRORS (R39). -/
def resetErrors (p : Page) (s : State) : State := setReg p 0x014 0 (clearErr p s)

/-- The page goes into reset, with a new reset epoch (R41, R42). -/
def enterReset (p : Page) (s : State) : State :=
  { s with
    resetting := spPut (fun _ => false) (pageBase p) true s.resetting
    epoch := spPut (fun _ => 0) (pageBase p) (spGet (fun _ => 0) s.epoch (pageBase p) + 1) s.epoch }

/-- The reset of a page other than a time base moves no time (R71). -/
def timeKept (p : Page) (old s : State) : State :=
  match p with
  | .tb _ => s
  | _ => { s with tb := old.tb }

/-- Reach DATAPATH (R39): in-flight work, queues and the block's own status; the header's status is QUIESCED and ASLEEP. -/
def resetDatapath (p : Page) (s : State) : State :=
  let s1 := setRegB p 0x008 4 false (setRegB p 0x008 1 false (pageDatapath false p s))
  timeKept p s (enterReset p (pageReload s p false s1))

/-- Reach FULL (R39): every register and store of the page. -/
def resetFull (p : Page) (s : State) : State :=
  let s1 := dropRegs p (pageDatapath true p s)
  let s2 := if enabled s p && !enabled s1 p then pllDisable p s1 else s1
  timeKept p s (enterReset p (pageReload s p true s2))

/-- A write of `BLK_RST`. -/
def blkRst (p : Page) (v : Word) (s : State) : State :=
  if inReset s p || s.rst.active then s
  else if fld v 31 24 != 0xA5 then recErr p errBadKey s
  else if fld v 3 0 = 1 then resetErrors p s
  else if (fld v 3 0 != 2 && fld v 3 0 != 3) || refusesReset p then recErr p errBadReset s
  else if fld v 3 0 = 2 then resetDatapath p s else resetFull p s

/-- A write of `BLK_RST` with the key and a reach; during a reset episode of the module or the page's own reset it is ignored
(R40, R543). -/
def rstRow (ini : Ini) (p : Page) (reach : Nat) (s : State) : Out :=
  let v := word (0xA5000000 + reach)
  doneTb s (admitWrite ini p 0x024 v (blkRst p v) s)

/-- `BLK_RST_ERRORS`. -/
def execBlkRstErrors (ini : Ini) (p : Page) (s : State) : Out := rstRow ini p 1 s
/-- `BLK_RST_DATAPATH`. -/
def execBlkRstDatapath (ini : Ini) (p : Page) (s : State) : Out := rstRow ini p 2 s
/-- `BLK_RST_FULL`. -/
def execBlkRstFull (ini : Ini) (p : Page) (s : State) : Out := rstRow ini p 3 s
/-- `BAD_RESET`: a `BLK_RST` with any reach, refused where the reach or the page says so. -/
def execBadReset (ini : Ini) (p : Page) (reach : Fin 16) (s : State) : Out := rstRow ini p reach.val s

/-- A write of a header register. -/
def headerWrite (ini : Ini) (p : Page) (off : Nat) (v : Word) (s : State) : State :=
  match off with
  | 0x004 => ctrlWrite p v s
  | 0x010 => plainWrite ini p off (v &&& irqMask p) s
  | 0x014 => irqStatWrite p v s
  | 0x020 => lockWrite ini p v s
  | 0x024 => blkRst p v s
  | _ => plainWrite ini p off v s

/-- The header registers whose reads are computed. -/
def headerView (s : State) (p : Page) (off : Nat) : Option Word :=
  match off with
  | 0x008 => some (blkStat s p)
  | 0x00C => some (irqRaw s p)
  | _ => none

end Sys2Proof.Machine
end

