-- ==== Sys2Proof/Machine/Access.lean ====
section
/-! DEFINITION. What a write or a read of each block register does: the page and offset name the effect (R25, and each
chapter's register table). -/
namespace Sys2Proof.Machine

/-- How a write of a memory the block makes itself ends, where no row says it: open. -/
def copyOpen (s : State) : CopyResult := if freeN s % 3 = 0 then .ok else if freeN s % 3 = 1 then .okOnRetry else .failed

/-- The index of an offset in an array of registers. -/
def slotAt (off base stride : Nat) : Nat := (off - base) / stride

/-- An offset is that of a register in an array. -/
def hits (off base stride count : Nat) : Bool := decide (base ≤ off) && (off - base) % stride == 0 && decide ((off - base) / stride < count)

/-! ### Writes -/

/-- SYS (R48, R49). -/
def sysWrite (ini : Ini) (off : Nat) (v : Word) (s : State) : State :=
  if off = 0x040 then coreRel v s
  else if hits off 0x080 4 8 then bootVecWrite ini (slotAt off 0x080 4) v s
  else plainWrite ini .sys off v s

/-- IRQR (R45, R46). -/
def irqrWrite (ini : Ini) (off : Nat) (v : Word) (s : State) : State :=
  if off = 0x040 then swiSet v s
  else if off = 0x044 then swiClr v s
  else if hits off 0x604 0x10 9 then irqDone (slotAt off 0x604 0x10) v s
  else plainWrite ini .irqr off v s

/-- MEMC (R51, R52). -/
def memcWrite (ini : Ini) (off : Nat) (v : Word) (s : State) : State :=
  if off = 0x080 ∨ off = 0x084 then nandPortWrite ini off v s
  else if off = 0x088 then nandCmdWrite ini v s
  else plainWrite ini .memc off v s

/-- CONT (R55, R56). -/
def contWrite (ini : Ini) (off : Nat) (v : Word) (s : State) : State :=
  if off = 0x044 then contArm v s else if off = 0x048 then contFire v s else plainWrite ini .cont off v s

/-- GPIO (R58-R60). -/
def gpioWrite (ini : Ini) (off : Nat) (v : Word) (s : State) : State :=
  match off with
  | 0x044 => gpOutWrite (fun _ => v) s
  | 0x048 => gpSet v s
  | 0x04C => gpClr v s
  | 0x050 => gpTgl v s
  | 0x060 => gpFuncWrite ini v s
  | _ => plainWrite ini .gpio off v s

/-- SER485 (R62-R65); the two ports' registers lie 0x200 apart. -/
def serWrite (ini : Ini) (off : Nat) (v : Word) (s : State) : State :=
  let q := if hits off 0x200 4 63 then 0 else if hits off 0x400 4 63 then 1 else if off < 0x200 then 0 else 1
  let o := off - 0x200 * q
  if o = 0x110 then workRequest .ser485 (mbGo q v) s
  else if o = 0x120 then workRequest .ser485 (rawTx q v) s
  else if o = 0x108 ∨ o = 0x10C ∨ hits o 0x200 4 63 then mbRegWrite ini q off v s
  else plainWrite ini .ser485 off v s

/-- USBD (R67, R68).  R68 names no work requests: the model takes every write of `EP_CTRL_e` for one, STALL included (DESIGN
CHOICE, log 122). -/
def usbdWrite (ini : Ini) (off : Nat) (v : Word) (s : State) : State :=
  if off = 0x048 then usbAddrWrite ini v s
  else if hits off 0x088 0x10 6 then workRequest .usbd (epCtrl (slotAt off 0x088 0x10) v) s
  else plainWrite ini .usbd off v s

/-- TB0-TB3 (R72-R76). -/
def tbWrite (ini : Ini) (n : Fin 4) (off : Nat) (v : Word) (s : State) : State :=
  match off with
  | 0x040 => tbCtrlWrite ini n v s
  | 0x060 => tbRateWrite ini n off v s
  | 0x064 => incCommit ini n v s
  | 0x068 => tbRateWrite ini n off v s
  | 0x06C => slewWrite n v s
  | 0x070 => stepCtrlWrite n v s
  | 0x080 => stepArmWrite n v s
  | _ => plainWrite ini (.tb n) off v s

/-- TTRIG (R81, R85). -/
def ttrigWrite (ini : Ini) (off : Nat) (v : Word) (s : State) : State :=
  if hits off 0x100 0x20 16 then trgCtrlWrite ini (slotAt off 0x100 0x20) v s
  else if hits off 0x400 0x20 8 then capCtrlWrite ini (slotAt off 0x400 0x20) v s
  else plainWrite ini .ttrig off v s

/-- PTAB (R103). -/
def ptabWrite (ini : Ini) (off : Nat) (v : Word) (s : State) : State :=
  if off = 0x040 then ptBaseWrite ini v s
  else if off = 0x054 then ptCmd v s
  else if off = 0x058 then invalWrite v s
  else if off = 0x068 then wpCmdWrite ini v s
  else if off = 0x070 then ptSnapshot ini v s
  else if off = 0x060 ∨ off = 0x064 ∨ hits off 0x100 4 32 then wpRegWrite ini off v s
  else plainWrite ini .ptab off v s

/-- LINE00-LINE63 (R133-R150, R187-R190). -/
def lineWrite (ini : Ini) (n : Fin 64) (off : Nat) (v : Word) (s : State) : State :=
  if off = 0x040 then elCtrlWrite ini n.val v s
  else if off = 0x080 then lnCtrlWrite ini n.val v s
  else if off = 0x098 then workRequest (.line n) (lnFreq n.val v) s
  else if off = 0x0A0 then retbufWrite ini n.val v s
  else if hits off 0x100 4 32 then mapWrite ini n.val (slotAt off 0x100 4) v s
  else plainWrite ini (.line n) off v s

/-- PIXB (R213). -/
def pixbWrite (ini : Ini) (off : Nat) (v : Word) (s : State) : State :=
  if hits off 0x104 0x20 8 then workRequest .pixb (grpCommit (slotAt off 0x104 0x20) v) s else plainWrite ini .pixb off v s

/-- DIM (R237, R238). -/
def dimWrite (ini : Ini) (off : Nat) (v : Word) (s : State) : State :=
  if off = 0x048 then workBaseWrite ini v s
  else if hits off 0x080 4 4 then rqWrite ini off v s
  else if off = 0x090 then rqCmd ini.id v s
  else if off = 0x0A0 then loopIdx v s
  else plainWrite ini .dim off v s

/-- SCHED (R246). -/
def schedWrite (ini : Ini) (off : Nat) (v : Word) (s : State) : State :=
  match off with
  | 0x040 => schedCtrlWrite ini v s
  | 0x044 => progBaseWrite ini v s
  | 0x048 => tzOffsetWrite ini v s
  | 0x04C => workRequest .sched (schedReload v) s
  | 0x050 => progEnWrite ini false v s
  | 0x054 => progEnWrite ini true v s
  | _ => plainWrite ini .sched off v s

/-- DET (R252, R253). -/
def detWrite (ini : Ini) (off : Nat) (v : Word) (s : State) : State :=
  if off = 0x040 then defBaseWrite ini v s
  else if off = 0x044 then detReload v s
  else if hits off 0x100 0x10 16 then inCfgWrite ini (slotAt off 0x100 0x10) v s
  else plainWrite ini .det off v s

/-- MIR (R249, R278, R279). -/
def mirWrite (ini : Ini) (off : Nat) (v : Word) (s : State) : State :=
  if off = 0x040 then mirCtrlWrite ini v s
  else if off = 0x048 then mirWorkWrite ini v s
  else if off = 0x080 then trkIdx ini.id v s
  else if off = 0x088 then trkKill v s
  else if off = 0x09C then workRequest .mir (injCmd ini.id v) s
  else if hits off 0x800 4 512 then stripWrite ini off v s
  else plainWrite ini .mir off v s

/-- DIAG (R303). -/
def diagWrite (ini : Ini) (off : Nat) (v : Word) (s : State) : State :=
  match off with
  | 0x040 => diagCtrlWrite ini v s
  | 0x04C => diagWorkWrite ini v s
  | 0x060 => proofReq v s
  | 0x064 => diagClr v s
  | _ => plainWrite ini .diag off v s

/-- MET (R335). -/
def metWrite (ini : Ini) (off : Nat) (v : Word) (s : State) : State :=
  if off = 0x050 then snapWrite v s
  else if off = 0x054 then totClr v s
  else if off = 0x068 then testOutWrite ini v s
  else if off = 0x220 then rcmCmd v s
  else if hits off 0x080 4 24 then circWrite ini (slotAt off 0x080 4) v s
  else if hits off 0x200 0x10 2 then rcmCfgWrite ini (slotAt off 0x200 0x10) v s
  else if (calOffsets .met).contains off then calWrite ini .met off v s
  else plainWrite ini .met off v s

/-- MCH00-MCH29 (R334). -/
def mchWrite (ini : Ini) (n : Fin 30) (off : Nat) (v : Word) (s : State) : State :=
  if (calOffsets (.mch n)).contains off then calWrite ini (.mch n) off v s else plainWrite ini (.mch n) off v s

/-- ATTR (R353). -/
def attrWrite (ini : Ini) (off : Nat) (v : Word) (s : State) : State :=
  match off with
  | 0x040 => attrCtrlWrite ini v s
  | 0x048 => circEnWrite ini v s
  | 0x058 => attrAbort v s
  | _ => plainWrite ini .attr off v s

/-- CRV (R390). -/
def crvWrite (ini : Ini) (off : Nat) (v : Word) (s : State) : State :=
  match off with
  | 0x040 => crvCtrlWrite ini v s
  | 0x048 => crvWorkWrite ini v s
  | 0x070 => evict v s
  | 0x074 => rollWrite v s
  | 0x080 => sesIdx ini v s
  | _ => plainWrite ini .crv off v s

/-- RFA and RFB (R393). -/
def rfWrite (ini : Ini) (r : Fin 2) (off : Nat) (v : Word) (s : State) : State :=
  if off = 0x040 then rfCtrlWrite ini r v s
  else if hits off 0x060 4 4 ∨ off = 0x080 then chMaskWrite ini r off v s
  else plainWrite ini (.rf r) off v s

/-- NUPD (R410). -/
def nupdWrite (ini : Ini) (off : Nat) (v : Word) (s : State) : State :=
  if off = 0x05C then nuCmdWrite v s
  else if hits off 0x048 4 5 then nuRegWrite ini off v s
  else plainWrite ini .nupd off v s

/-- ETHA and ETHB (R433). -/
def ethWrite (ini : Ini) (n : Fin 2) (off : Nat) (v : Word) (s : State) : State :=
  match off with
  | 0x040 => ethCtrlWrite ini n.val v s
  | 0x048 => phyWrite ini n.val v s
  | 0x060 => ethPauseWrite ini n.val off v s
  | 0x064 => ethPauseWrite ini n.val off v s
  | 0x080 => ethBaseWrite ini n.val off v s
  | 0x088 => pauseEval false n.val (plainWrite ini (.eth n) off v s)
  | 0x090 => ethBaseWrite ini n.val off v s
  | 0x098 => ethPump n.val (plainWrite ini (.eth n) off v s)
  | _ => plainWrite ini (.eth n) off v s

/-- ERG (R456). -/
def ergWrite (ini : Ini) (off : Nat) (v : Word) (s : State) : State :=
  match off with
  | 0x040 => ergCtrlWrite ini v s
  | 0x058 => ergBaseWrite ini off 0x8000 0x4100 true v s
  | 0x05C => nbrReload v s
  | 0x060 => ergBaseWrite ini off 0x800 (2048 * regN s .erg 0x064) false v s
  | 0x068 => hrxTailWrite ini v s
  | 0x070 => ergBaseWrite ini off 0x20 (32 * regN s .erg 0x074) false v s
  | 0x078 => ergPump (plainWrite ini .erg off v s)
  | _ => plainWrite ini .erg off v s

/-- TWIN (R480). -/
def twinWrite (ini : Ini) (off : Nat) (v : Word) (s : State) : State :=
  match off with
  | 0x040 => twCtrlWrite ini v s
  | 0x050 => twHealthWrite v s
  | 0x054 => twCmdWrite v s
  | _ => plainWrite ini .twin off v s

/-- SEC (R519). -/
def secWrite (ini : Ini) (off : Nat) (v : Word) (s : State) : State :=
  if off = 0x08C then mbGoSec ini v s else if 0x080 ≤ off ∧ off < 0x100 then mbPortWrite ini off v s else plainWrite ini .sec off v s

/-- CRYP (R522). -/
def crypWrite (ini : Ini) (off : Nat) (v : Word) (s : State) : State :=
  if off = 0x058 then crGoWrite v s
  else if off = 0x0A0 then crKload v s
  else if hits off 0x080 4 8 then crKeyWrite (slotAt off 0x080 4) v s
  else plainWrite ini .cryp off v s

/-- OPTB (R540). -/
def optbWrite (ini : Ini) (off : Nat) (v : Word) (s : State) : State :=
  match off with
  | 0x100 => used (optCmdWrite (copyOpen s) v s)
  | 0x108 => used (updConfirmWrite (copyOpen s) v s)
  | 0x110 => stageCmdWrite v s
  | _ => plainWrite ini .optb off v s

/-- RSTCLK (R557). -/
def rstclkWrite (ini : Ini) (off : Nat) (v : Word) (s : State) : State :=
  match off with
  | 0x040 => wdtCtrlWrite ini v s
  | 0x044 => wdtKick ini v s
  | 0x04C => swRst v s
  | _ => plainWrite ini .rstclk off v s

/-- PWR (R558). -/
def pwrWrite (ini : Ini) (off : Nat) (v : Word) (s : State) : State :=
  match off with
  | 0x048 => pwrCmdWrite ini (freeN s) v (used s)
  | 0x04C => dfsWrite ini v s
  | _ => plainWrite ini .pwr off v s

/-- DMA (R569). -/
def dmaWrite (ini : Ini) (off : Nat) (v : Word) (s : State) : State :=
  if off = 0x048 then dmaCmdWrite v s
  else if hits off 0x114 0x20 16 then chGo (slotAt off 0x114 0x20) v s
  else plainWrite ini .dma off v s

/-- CMDQ (R574). -/
def cmdqWrite (ini : Ini) (off : Nat) (v : Word) (s : State) : State :=
  match off with
  | 0x04C => cqPush ini v s
  | 0x05C => cqCmdWrite v s
  | _ => plainWrite ini .cmdq off v s

/-- EVQ (R583). -/
def evqWrite (ini : Ini) (off : Nat) (v : Word) (s : State) : State :=
  if hits off 0x100 0x40 8 then esCfgWrite ini (slotAt off 0x100 0x40) v s
  else if hits off 0x120 0x40 8 then esPushWrite ini (slotAt off 0x120 0x40) v s
  else if hits off 0x124 0x40 8 then esCmd (slotAt off 0x124 0x40) v s
  else plainWrite ini .evq off v s

/-- EVR (R594). -/
def evrWrite (ini : Ini) (off : Nat) (v : Word) (s : State) : State :=
  if off = 0x0B4 then evrPortGo ini v s else if off = 0x0C0 then evrRdSeq ini v s else plainWrite ini .evr off v s

/-- A write of a block-specific register. -/
def blockWrite (ini : Ini) (p : Page) (off : Nat) (v : Word) (s : State) : State :=
  match p with
  | .sys => sysWrite ini off v s
  | .irqr => irqrWrite ini off v s
  | .memc => memcWrite ini off v s
  | .cont => contWrite ini off v s
  | .gpio => gpioWrite ini off v s
  | .ser485 => serWrite ini off v s
  | .usbd => usbdWrite ini off v s
  | .tb n => tbWrite ini n off v s
  | .ttrig => ttrigWrite ini off v s
  | .ptab => ptabWrite ini off v s
  | .line n => lineWrite ini n off v s
  | .lseq => plainWrite ini .lseq off v s
  | .pixb => pixbWrite ini off v s
  | .dim => dimWrite ini off v s
  | .sched => schedWrite ini off v s
  | .det => detWrite ini off v s
  | .mir => mirWrite ini off v s
  | .diag => diagWrite ini off v s
  | .met => metWrite ini off v s
  | .mch n => mchWrite ini n off v s
  | .attr => attrWrite ini off v s
  | .crv => crvWrite ini off v s
  | .rf r => rfWrite ini r off v s
  | .nupd => nupdWrite ini off v s
  | .eth n => ethWrite ini n off v s
  | .erg => ergWrite ini off v s
  | .twin => twinWrite ini off v s
  | .oasis => oasWrite ini off v s
  | .sec => secWrite ini off v s
  | .cryp => crypWrite ini off v s
  | .optb => optbWrite ini off v s
  | .rstclk => rstclkWrite ini off v s
  | .pwr => pwrWrite ini off v s
  | .dma => dmaWrite ini off v s
  | .cmdq => cmdqWrite ini off v s
  | .evq => evqWrite ini off v s
  | .evr => evrWrite ini off v s
  | .ident => plainWrite ini .ident off v s

/-- The pages whose writes can move a time base: the TB pages, and those whose writes can reset the module. -/
def movesTime : Page → Bool
  | .tb _ => true | .rstclk => true | .oasis => true | _ => false

/-- A write of any register of a page. -/
def regWrite (ini : Ini) (p : Page) (off : Nat) (v : Word) (s : State) : State :=
  let t := if off < 0x40 then headerWrite ini p off v s else blockWrite ini p off v s
  if movesTime p then t else { t with tb := s.tb }

/-! ### Reads -/

/-- The block registers whose reads are computed. -/
def blockView (s : State) (ini : Ini) (p : Page) (off : Nat) : Option Word :=
  match p with
  | .sys => if off = 0x0C0 then some (word ini.id.val) else if off = 0x044 then some (coreStat s ini) else none
  | .irqr => if hits off 0x500 4 8 then some (pendWord s (slotAt off 0x500 4)) else none
  | .cont => contView s off
  | .gpio => gpioView s off
  | .memc => memcView s off
  | .ser485 => serView s off
  | .usbd => usbView s off
  | .tb n => tbView s n off
  | .ttrig => ttrigView s off
  | .ptab => ptabView s off
  | .line n => lineView s n.val off
  | .lseq => lseqView s off
  | .pixb => pixbView s off
  | .dim => dimView s off
  | .sched => schedView s off
  | .det => detView s off
  | .mir => mirView s off
  | .diag => diagView s off
  | .met => metView s off
  | .attr => attrView s off
  | .crv => crvView s off
  | .rf r => rfView s r off
  | .nupd => nupdView s off
  | .eth n => ethView s n.val off
  | .erg => ergView s off
  | .twin => twinView s off
  | .oasis => oasView s off
  | .sec => secView s off
  | .optb => optbView s off
  | .rstclk => rstclkView s off
  | .pwr => pwrView s off
  | .cmdq => cmdqView s off
  | .evq => evqView s off
  | .evr => evrView s off
  | _ => none

/-- A read that does something besides answering, and does so by the chapter's own rule. -/
def readEffect (ini : Ini) (p : Page) (off : Nat) : Option (State → State) :=
  match p with
  | .tb n => if off = 0x048 then some (nowNsRead ini n) else none
  | .ttrig => if hits off 0x404 0x20 8 then some (capPop (slotAt off 0x404 0x20)) else none
  | .irqr => if hits off 0x600 0x10 9 then some (irqClaim (slotAt off 0x600 0x10)) else none
  | .evq => if hits off 0x114 0x40 8 then some (esPop ini (slotAt off 0x114 0x40)) else none
  | .ser485 => if hits off 0x124 0x200 2 then some (rawRxPop (slotAt off 0x124 0x200)) else none
  | .det => if hits off 0x104 0x10 16 then some (inMsPop (slotAt off 0x104 0x10)) else none
  | .oasis => if off = 0x044 then some (rtcFracRead ini) else none
  | .sec => if hits off 0x100 4 16 then some (mbResRead ini (slotAt off 0x100 4)) else none
  | .cryp => if hits off 0x100 4 16 then some (crOutRead (slotAt off 0x100 4)) else none
  | .twin => if off = 0x06C then some jrnLagRead else none
  | _ => none

/-- A read of any register of a page; no read moves a time base. -/
def regRead (ini : Ini) (p : Page) (off : Nat) (s : State) : State :=
  match readEffect ini p off with
  | some f => { f s with tb := s.tb }
  | none =>
    match if off < 0x40 then headerView s p off else blockView s ini p off with
    | some w => answer (.data w) (used s)
    | none => plainRead ini p off s

/-- Words 24-31 of the backup store are read by the security core alone (R500). -/
def readPriv (ini : Ini) (p : Page) (off : Nat) : Bool := p == .oasis && hits off 0x260 4 8 && ini.id != 8

/-! ### Bus accesses to pages (R21-R23) -/

/-- A 32-bit write at an address of the peripheral window, or anywhere outside the memories. -/
def busWrite (ini : Ini) (addr : Nat) (v : Word) (s : State) : State :=
  match pageAt addr with
  | none => answer (.err .unmapped) s
  | some p =>
    if addr % 4 != 0 then answer (.err .size) s
    else admitWrite ini p (addr % 0x1000) v (regWrite ini p (addr % 0x1000) v) s

/-- A 32-bit read there. -/
def busRead (ini : Ini) (addr : Nat) (s : State) : State :=
  match pageAt addr with
  | none => answer (.err .unmapped) s
  | some p =>
    if addr % 4 != 0 then answer (.err .size) s
    else if readPriv ini p (addr % 0x1000) then answer (.err .priv) s
    else admitRead ini p (addr % 0x1000) (regRead ini p (addr % 0x1000)) s

end Sys2Proof.Machine
end

