-- ==== Sys2Proof/Machine/Bus.lean ====
section
/-! DEFINITION. The physical address map and what a bus access does there (R20-R23, R50, R53, R630), and the end of a block
reset, when stalled accesses proceed (R41). -/
namespace Sys2Proof.Machine

/-- The ranges of R20. -/
inductive Region where
  | rom | sram | mram | nor | window | dram
deriving DecidableEq, Repr

/-- The range of an address. -/
def regionOf (a : Nat) : Option Region :=
  if a < 0x40000 then some .rom
  else if 0x10000000 ≤ a ∧ a < 0x10400000 then some .sram
  else if 0x20000000 ≤ a ∧ a < 0x21000000 then some .mram
  else if 0x30000000 ≤ a ∧ a < 0x34000000 then some .nor
  else if 0x40000000 ≤ a ∧ a < 0x80000000 then some .window
  else if 0x80000000 ≤ a ∧ a < 0xC0000000 then some .dram
  else none

/-! ### Protected and open areas -/

/-- An address lies in a work area (R236, R282, R306, R390). -/
def inWorkArea (s : State) (a : Nat) : Bool :=
  let lies := fun base len => decide (base ≤ a) && decide (a < base + len)
  lies (dimWork s) 0x200000 || lies (mirWork s) 0x80000 || lies (regN s .diag 0x04C) 0x80000 || lies (regN s .crv 0x048) 0x100000

/-- A byte of a point entry's state half at `PT_BASE` (R92). -/
def inStateHalf (s : State) (a : Nat) : Bool :=
  let base := regN s .ptab 0x040
  decide (base ≤ a) && decide (a < base + 0x300000) && decide (128 ≤ (a - base) % 256)

/-- MEMC discards a write of this byte (R50). -/
def wpByte (s : State) (a : Nat) : Bool :=
  match regionOf a with
  | some .mram => decide (a < 0x20300000)
  | some .dram => inStateHalf s a || inWorkArea s a
  | _ => false

/-- Bytes of the work areas whose form the model does not keep in memory: DIM's group index and loop table, MIR's cancelled
identities, and all of CRV's, whose layout is not given; they read as they happen to (log 1). -/
def openByte (s : State) (a : Nat) : Bool :=
  let lies := fun base lo hi => decide (base + lo ≤ a) && decide (a < base + hi)
  lies (dimWork s) 0x180000 0x1D0000 || lies (mirWork s) 0x60000 0x70000 || lies (regN s .crv 0x048) 0 0x100000

/-! ### Memory accesses -/

/-- A naturally aligned access of a size that an initiator forms (R630). -/
def sizeOk (a len : Nat) : Bool := [1, 2, 4, 8, 16, 32, 64].contains len && a % len == 0

/-- A discarded write (R50): recorded, latched and counted, and no bus error. -/
def writeDiscarded (ini : Ini) (a : Nat) (s : State) : State :=
  let off := if a < 0x40000000 then a - 0x20000000 else a - 0x80000000
  let site := if a < 0x40000000 then 7 else 4
  let loc := locOfMem (serial16 s) site off 0x7F
  raiseIrq .memc 0 (bumpReg .memc 0x058 (setReg .memc 0x054 (word ini.id.val) (setReg .memc 0x050 (word a)
    (recErrAt .memc 0x100 (loc % 2 ^ 32) s))))

/-- A write of bytes to memory that the map and MEMC let through, or not (R21, R50). -/
def memStore (ini : Ini) (a : Nat) (bs : List Byte) (s : State) : State :=
  match regionOf a with
  | some .rom => answer (.err .priv) s
  | some .nor => answer (.err .priv) s
  | some .window => answer (.err .size) s
  | none => answer (.err .unmapped) s
  | _ =>
    match (List.range bs.length).find? fun k => wpByte s (a + k) with
    | some _ => answer .ok (writeDiscarded ini a s)
    | none => answer .ok (memWrite a bs s)

/-- The bytes a read of memory finds; open ones are free. -/
def bytesAt (s : State) (a len : Nat) : List Byte :=
  (List.range len).map fun k => if openByte s (a + k) then (freeB s (k + 1)).getD k 0 else memByte s (a + k)

/-- A read of memory (R20, R21). -/
def memLoad (ini : Ini) (a len : Nat) (s : State) : State :=
  match regionOf a with
  | none => answer (.err .unmapped) s
  | some .window => answer (.err .size) s
  | some r =>
    if (r = .rom ∨ r = .nor) ∧ ini.id ≠ 8 then answer (.err .priv) s
    else answer (.bytes (bytesAt s a len)) (used s)

/-- A store on the bus. -/
def busStore (ini : Ini) (a : Nat) (bs : List Byte) (s : State) : State :=
  if regionOf a = some .window then
    (match pageAt a with
    | none => answer (.err .unmapped) s
    | some _ => if bs.length = 4 then busWrite ini a (word (leNat bs)) s else answer (.err .size) s)
  else if regionOf a = none then answer (.err .unmapped) s
  else if !sizeOk a bs.length then answer (.err .size) s
  else memStore ini a bs s

/-- A load on the bus. -/
def busLoad (ini : Ini) (a len : Nat) (s : State) : State :=
  if regionOf a = some .window then
    (match pageAt a with
    | none => answer (.err .unmapped) s
    | some _ => if len = 4 then busRead ini a s else answer (.err .size) s)
  else if regionOf a = none then answer (.err .unmapped) s
  else if !sizeOk a len then answer (.err .size) s
  else memLoad ini a len s

/-- The 64-bit word of an access that an ECC event concerns; where the access spans several, which of them is open (R53). -/
def eccWord (s : State) (a len : Nat) : Nat :=
  let n := (a % 8 + len + 7) / 8
  a / 8 * 8 + 8 * (if n ≤ 1 then 0 else freeN s % n)

/-- What the check bits of MRAM find in a word at `w` during an access (R53): a corrected bit is written back; of an
uncorrectable word the bytes read are open. -/
def eccOf (e : EccEvent) (w : Nat) (s : State) : State :=
  if regionOf w != some .mram then s
  else match e with
    | .none => s
    | .corrected c => used (eccRecord false 7 (w - 0x20000000) c.val s)
    | .uncorrectable c => used (eccRecord true 7 (w - 0x20000000) c.val s)

/-- The read data of an access from `a` with an uncorrectable word at `w`: that word's bytes are open. -/
def eccSpoils (e : EccEvent) (a w : Nat) (s : State) : State :=
  match e, s.resp with
  | .uncorrectable _, .bytes b =>
    if regionOf a = some .mram then
      used (answer (.bytes ((List.range b.length).map fun k =>
        if (a + k) / 8 * 8 = w then (freeB s b.length).getD k 0 else b.getD k 0)) s)
    else s
  | _, _ => s

/-- The access was carried out: it met no bus error, and MEMC did not discard it (R50, R630). -/
def accessTook (a : Nat) (bs : List Byte) (s t : State) : Bool :=
  (match t.resp with | .err _ => false | _ => true) && !(List.range bs.length).any fun k => wpByte s (a + k)

/-- `MEM_ACCESS`: an access that is refused or discarded reaches no word, and so has no ECC event (R53, R630). -/
def execMemAccess (ini : Ini) (op : MemOp) (ecc : EccEvent) (s : State) : Out :=
  doneTb s (match op with
    | .read a len =>
      let t := busLoad ini a len s
      if accessTook a [] s t then eccSpoils ecc a (eccWord t a len) (eccOf ecc (eccWord t a len) t) else t
    | .write a bs =>
      let t := busStore ini a bs s
      if accessTook a bs s t then eccOf ecc (eccWord t a bs.length) t else t)

/-- `REG_WRITE`. -/
def execRegWrite (ini : Ini) (addr : Nat) (v : Word) (s : State) : Out :=
  doneTb s (busStore ini addr (leBytes 4 v.toNat) s)

/-! ### The end of a block reset -/

/-- A stalled access proceeds (R41). -/
def replay (x : Stalled) (s : State) : State :=
  match x.val with
  | some v => busWrite x.ini x.addr v s
  | none => busRead x.ini x.addr s

/-- READY returns, and the accesses that stalled at the page proceed in their order (R41). -/
def blockResetDone (p : Page) (s : State) : State :=
  if inReset s p then
    let mine := s.stalled.filter fun x => x.addr / 0x1000 * 0x1000 == pageBase p
    let rest := s.stalled.filter fun x => x.addr / 0x1000 * 0x1000 != pageBase p
    let s1 := pageReady p { s with resetting := spPut (fun _ => false) (pageBase p) false s.resetting, stalled := rest }
    forEach replay mine { s1 with tb := s.tb }
  else s

/-- `BLOCK_RESET_DONE`. -/
def execBlockResetDone (p : Page) (s : State) : Out := doneTb s (blockResetDone p s)

end Sys2Proof.Machine
end

