-- ==== Sys2Proof/Machine/Transfers.lean ====
section
/-! DEFINITION. How DMA descriptors and CMDQ entries run: their accesses are bus accesses of the DMA engine, or of the
initiator that pushed the entry (R559-R573). -/
namespace Sys2Proof.Machine

/-! ### Accesses -/

/-- The DMA engine as an initiator (R48). -/
def dmaIni : Ini := { id := 9 }

/-- A run of accesses: the state, what was read last, and how it stopped: an error with its address (none: the page is in
reset and the access stalls, R41).  `ecc` is what the check bits of the MRAM word at `word` find, and `met` says that an access
has reached that word (R53). -/
structure DmaRun where
  st : State
  data : List Byte := []
  stop : Option (Option BusErr × Nat) := none
  ecc : EccEvent := .none
  word : Nat := 0
  met : Bool := false

/-- The access to a page in reset: one that was accepted before the reset ends with BLOCK_RESET, another stalls (R41, R42). -/
def resetStop (early : Bool) (s : State) (a : Nat) : Option (Option BusErr × Nat) :=
  match pageAt a with
  | some p => if inReset s p then some (if early then some .blockReset else none, a) else none
  | none => none

/-- Closes an access: its data, or its error. -/
def dmaEnd (a : Nat) (s : State) : DmaRun :=
  match s.resp with
  | .err e => { st := s, stop := some (some e, a) }
  | .data w => { st := s, data := leBytes 4 w.toNat }
  | .bytes b => { st := s, data := b }
  | _ => { st := s }

/-- One load: a word of the window, or a piece of memory that no 64-byte boundary cuts. -/
def dmaLoad1 (early : Bool) (a len : Nat) (s : State) : DmaRun :=
  match resetStop early s a with
  | some x => { st := s, stop := some x }
  | none => dmaEnd a (if regionOf a = some .window then busLoad dmaIni a len s else memLoad dmaIni a len s)

/-- One store. -/
def dmaStore1 (early : Bool) (a : Nat) (bs : List Byte) (s : State) : DmaRun :=
  match resetStop early s a with
  | some x => { st := s, stop := some x }
  | none => dmaEnd a (if regionOf a = some .window then busStore dmaIni a bs s else memStore dmaIni a bs s)

/-- An access reaches the MRAM word whose check bits tell something (R53). -/
def eccHits (a len : Nat) (x : DmaRun) : Bool :=
  x.ecc != .none && regionOf a == some .mram && decide (a < x.word / 8 * 8 + 8) && decide (x.word / 8 * 8 < a + len)

/-- A run goes on with one more load `y`; of an uncorrectable word the bytes read are open (R53). -/
def dmaTake (a len : Nat) (x y : DmaRun) : DmaRun :=
  let hit := y.stop.isNone && eccHits a len x
  let spoilt := match x.ecc with | .uncorrectable _ => hit | _ => false
  let d := if spoilt then
      (List.range y.data.length).map fun k => if (a + k) / 8 = x.word / 8 then (freeB y.st y.data.length).getD k 0 else y.data.getD k 0
    else y.data
  { x with st := if spoilt then used y.st else y.st, data := x.data ++ d, stop := y.stop, met := x.met || hit }

/-- A run goes on with one more store `y`. -/
def dmaGave (a len : Nat) (x y : DmaRun) : DmaRun :=
  { x with st := y.st, data := [], stop := y.stop, met := x.met || (y.stop.isNone && eccHits a len x) }

/-- The state after a run, with the ECC event it met recorded (R53). -/
def dmaEcc (x : DmaRun) : State := if x.met then eccOf x.ecc (x.word / 8 * 8) x.st else x.st

/-- The length of the next access from an address: words in the window, 64-byte bursts in memory (R562, R567). -/
def dmaPiece (a len : Nat) : Nat := if regionOf a = some .window then min 4 len else min len (64 - a % 64)

/-- Loads `len` bytes; addresses are taken modulo 2^32 (R561). -/
def dmaLoad (early : Bool) : Nat → Nat → Nat → DmaRun → DmaRun
  | 0, _, _, x => x
  | n + 1, a, len, x =>
    if len = 0 || x.stop.isSome then x
    else
      let a' := a % 2 ^ 32
      let m := dmaPiece a' len
      dmaLoad early n (a' + m) (len - m) (dmaTake a' m x (dmaLoad1 early a' m x.st))

/-- Stores bytes. -/
def dmaStore (early : Bool) : Nat → Nat → List Byte → DmaRun → DmaRun
  | 0, _, _, x => x
  | n + 1, a, bs, x =>
    if bs.isEmpty || x.stop.isSome then x
    else
      let a' := a % 2 ^ 32
      let m := dmaPiece a' bs.length
      dmaStore early n (a' + m) (bs.drop m) (dmaGave a' m x (dmaStore1 early a' (bs.take m) x.st))

/-- A load of a few words. -/
def dmaRead (early : Bool) (a len : Nat) (x : DmaRun) : DmaRun := dmaLoad early (len + 1) a len { x with data := [] }

/-- A store of a few bytes. -/
def dmaPut (early : Bool) (a : Nat) (bs : List Byte) (x : DmaRun) : DmaRun := dmaStore early (bs.length + 1) a bs x

/-! ### Descriptors (R560, R561, R566) -/

/-- A descriptor's words. -/
structure DmaDesc where
  mode : Nat
  irq : Bool
  last : Bool
  stopMism : Bool
  len : Nat
  src : Nat
  dst : Nat
  next : Nat
  count : Nat
  strideS : Nat
  strideD : Nat
  bad : Bool
deriving DecidableEq, Repr

/-- A descriptor from its eight words; `bad`: it is invalid (R566). -/
def descOf (ws : List Word) : DmaDesc :=
  let w0 := ws.getD 0 0
  let w4 := ws.getD 4 0
  let mode := fld w0 31 28
  let usesCount := mode == 1 || mode == 2 || mode == 3
  let next := (ws.getD 3 0).toNat
  let list := (ws.getD 5 0).toNat
  { mode := mode
    irq := bit w0 27
    last := bit w0 26
    stopMism := bit w0 25
    len := fld w0 23 0
    src := (ws.getD 1 0).toNat
    dst := (ws.getD 2 0).toNat
    next := next
    count := if usesCount then fld w4 15 0 else 1
    strideS := list
    strideD := (ws.getD 6 0).toNat
    bad := decide (5 < mode) || bit w0 24 || fld w0 23 0 == 0 || (usesCount && (fld w4 15 0 == 0 || fld w4 31 16 != 0))
      || (!bit w0 26 && next % 32 != 0) || ((mode == 2 || mode == 3) && list % 4 != 0) }

/-- A range touches the peripheral window. -/
def touchesWindow (a len : Nat) : Bool := decide (a % 2 ^ 32 < 0x80000000) && decide (0x40000000 < a % 2 ^ 32 + len)

/-- A row or element that would touch the window at an address or a length that is not a multiple of 4 (R562). -/
def misfits (a len : Nat) : Bool := touchesWindow a len && (a % 4 != 0 || len % 4 != 0)

/-- Row r of a descriptor: its source and destination; the offset lists are read as they are needed (R561). -/
def descRow (early : Bool) (d : DmaDesc) (r : Nat) (x : DmaRun) : Nat × Nat × DmaRun :=
  match d.mode with
  | 1 => (d.src + r * d.strideS, d.dst + r * d.strideD, x)
  | 2 => let y := dmaRead early (d.strideS + 4 * r) 4 x; (d.src + leNat y.data, d.dst + r * d.len, y)
  | 3 => let y := dmaRead early (d.strideS + 4 * r) 4 x; (d.src + r * d.len, d.dst + leNat y.data, y)
  | _ => (d.src, d.dst, x)

/-- Bytes k to k + m - 1 of the fill pattern. -/
def fillBytes (pattern k m : Nat) : List Byte := (List.range m).map fun j => (leBytes 4 pattern).getD ((k + j) % 4) 0

/-- The destination of a copy within memory that overlaps its source from above: the result is open (R561). -/
def overlapOpen (src dst len : Nat) : Bool := decide (src < dst) && decide (dst < src + len)

/-- One burst of a row: `k` bytes of it are done, `m` follow.  COMPARE answers the first difference. -/
def descBurst (early : Bool) (d : DmaDesc) (src dst k m : Nat) (x : DmaRun) : DmaRun × Option Nat :=
  match d.mode with
  | 4 => (dmaPut early (dst + k) (fillBytes d.src k m) x, none)
  | 5 =>
    let a := dmaRead early (src + k) m x
    let b := dmaRead early (dst + k) m a
    (b, if b.stop.isSome then none else ((List.range m).find? fun j => a.data.getD j 0 != b.data.getD j 0).map (k + ·))
  | _ =>
    let a := dmaRead early (src + k) m x
    if a.stop.isSome then (a, none)
    else if overlapOpen (src % 2 ^ 32) (dst % 2 ^ 32) d.len then
      (dmaPut early (dst + k) (freeB a.st m) { a with st := used a.st }, none)
    else (dmaPut early (dst + k) a.data a, none)

/-- Runs a descriptor from row r, byte k, for at most `n` bursts; answers the first mismatch. -/
def descRun (early : Bool) (d : DmaDesc) : Nat → Nat → Nat → DmaRun → DmaRun × Option Nat
  | 0, _, _, x => (x, none)
  | n + 1, r, k, x =>
    if x.stop.isSome || d.count ≤ r then (x, none)
    else
      let (src, dst, y) := descRow early d r x
      let window := touchesWindow src d.len || touchesWindow dst d.len
      let bad := (d.mode != 4 && misfits src d.len) || misfits dst d.len
      if y.stop.isSome then (y, none)
      else if bad then ({ y with stop := some (some .size, if d.mode != 4 && misfits src d.len then src % 2 ^ 32 else dst % 2 ^ 32) }, none)
      else
        let m := min (if d.mode = 5 ∧ window then 4 else 64) (d.len - k)
        let z := descBurst early d src dst k m y
        if z.2.isSome then z
        else if d.len ≤ k + m then descRun early d n (r + 1) 0 z.1
        else descRun early d n r (k + m) z.1

/-- Enough bursts for a whole descriptor. -/
def descFuel (d : DmaDesc) : Nat := d.count * (d.len / 4 + 2) + 1

/-- The descriptor a channel is running. -/
def fetchDesc (early : Bool) (c : Nat) (x : DmaRun) : DmaRun := dmaRead early (regN x.st .dma (chOff c 0xC)) 32 x

/-! ### DMA (R563-R568) -/

/-- The code of a bus error in `DMA_STAT` (R569). -/
def busErrCode : BusErr → Nat
  | .unmapped => 1 | .size => 2 | .priv => 3 | .busyQuiesced => 4 | .blockReset => 5 | .disabled => 6 | .cmdqHalt => 7

/-- What the descriptor of another running channel has done when the engine halts: an open part of it (R564). -/
def haltOther (c : Nat) (s : State) : State :=
  if !chRuns s c then s
  else
    let f := fetchDesc false c { st := s }
    let d := descOf (wordsOf f.data)
    if f.stop.isSome || d.bad then s
    else
      let r := (descRun false d (min (freeN s) (descFuel d)) 0 0 { f with data := [] }).1
      used r.st

/-- Channel c meets a bus error: every channel halts (R564). -/
def dmaHalt (c : Nat) (e : BusErr) (a : Nat) (s0 : State) : State :=
  let s := forEach haltOther ((List.range 16).filter (· != c)) s0
  let s1 := forEach (fun k t => setChStat k ((regN t .dma (chOff k 8) &&& 0xB) ||| 4) t) (List.range 16) { s with dmaNext := [] }
  let s2 := setReg .dma 0x044 (word a) (setRegF .dma 0x040 22 20 (busErrCode e) (setRegF .dma 0x040 27 24 c (setRegB .dma 0x040 31 true s1)))
  recErr .dma 0x100 (raiseIrq .dma 0 (if e = .blockReset then recErr .dma errBlockReset s2 else s2))

/-- `CH_EVT` bit. -/
def chEvent (c n : Nat) (s : State) : State := setRegB .dma (chOff c 0x18) n true s

/-- The chain ends: DONE and `CH_EVT.CHAIN` (R563). -/
def chainEnd (c : Nat) (s : State) : State := chEvent c 1 (setChStat c 2 s)

/-- After a descriptor: `CH_EVT.DESC`, and the end of the chain, its hold at a quiesce, or the next descriptor (R563, R568). -/
def descNext (c : Nat) (d : DmaDesc) (mism : Bool) (s : State) : State :=
  let s1 := if d.irq then chEvent c 0 s else s
  if d.last || (d.mode == 5 && d.stopMism && mism) then chainEnd c s1
  else if quiescing s1 .dma then
    setChStat c 0x11 { s1 with dmaNext := spPut (fun _ => 0) c (d.next + 1) s1.dmaNext }
  else setReg .dma (chOff c 0xC) (word d.next) s1

/-- A descriptor runs to its end, with its write-back (R563); an error halts the engine, a page in reset stalls it. -/
def descComplete (early : Bool) (c : Nat) (x : DmaRun) : State × Option (Option BusErr × Nat) :=
  let f := fetchDesc early c x
  let d := descOf (wordsOf f.data)
  if f.stop.isSome then (dmaEcc f, f.stop)
  else if d.bad then (recErr .dma 0x103 (setChStat c 8 (dmaEcc f)), none)
  else
    let r := descRun early d (descFuel d) 0 0 { f with data := [] }
    if r.1.stop.isSome then (dmaEcc r.1, r.1.stop)
    else
      let wb := 2 ^ 31 + (match r.2 with | some k => 2 ^ 30 + k | none => 0)
      let w := dmaPut early (regN x.st .dma (chOff c 0xC) + 28) (leBytes 4 wb) r.1
      if w.stop.isSome then (dmaEcc w, w.stop)
      else
        let t := dmaEcc w
        let s1 := if d.mode = 5 then setReg .dma (chOff c 0x10) (match r.2 with | some k => word k | none => 0xFFFFFFFF) t else t
        (descNext c d r.2.isSome s1, none)

/-- DMA runs: ready, awake and not halted.  A chain it has accepted is completed with EN at 0 too (R631). -/
def dmaGoes (s : State) (c : Nat) : Bool := running s .dma && !dmaHalted s && chRuns s c

/-- `DESC_COMPLETE`; a bus error on the way halts every channel (R564), and an access that stalls leaves the descriptor in
progress (R41). -/
def execDescComplete (c : DescEnd) (s : State) : Out :=
  doneTb s (if !dmaGoes s c.ch.val then s
    else match descComplete false c.ch.val { st := s, ecc := c.ecc, word := c.word } with
      | (t, none) => t
      | (t, some (some e, a)) => dmaHalt c.ch.val e a t
      | (_, some (none, _)) => s)

/-- `DMA_HALT`: the channel's descriptor meets a bus error; `early`: an access of its had been accepted before its page's
reset (R42). -/
def execDmaHalt (c : Fin 16) (early : Bool) (s : State) : Out :=
  doneTb s (if !dmaGoes s c.val then s
    else match descComplete early c.val { st := s } with
      | (t, some (some e, a)) => dmaHalt c.val e a t
      | _ => s)

/-- `CH_GO`. -/
def execChGo (ini : Ini) (c : Fin 16) (s : State) : Out := done s (admitWrite ini .dma (0x114 + 0x20 * c.val) 1 (chGo c.val 1) s)

/-- `CLEAR_HALT`. -/
def execClearHalt (ini : Ini) (s : State) : Out := done s (admitWrite ini .dma 0x048 0xD4000001 (dmaCmdWrite 0xD4000001) s)

/-! ### CMDQ (R571, R572) -/

/-- How an access of the head ends. -/
inductive CqAccess where
  | ok (w : Word)
  | fails (e : BusErr)
  | stalls
deriving DecidableEq, Repr

/-- The access of the head entry, as its initiator's (R571). -/
def cqAccess (early : Bool) (e : CqEntry) (s : State) : State × CqAccess :=
  match resetStop early s e.addr with
  | some (some x, _) => (s, .fails x)
  | some (none, _) => (s, .stalls)
  | none =>
    let t := if e.kind = 0 then busWrite e.ini e.addr e.data s else busRead e.ini e.addr s
    match t.resp with
    | .err x => (t, .fails x)
    | .data w => (t, .ok w)
    | _ => (t, .ok 0)

/-- A WAIT is met (R570). -/
def cqMet (e : CqEntry) (w : Word) : Bool :=
  if e.kind = 1 then (w &&& e.data) == e.data else (w &&& e.data) == 0

/-- The head counts a failed attempt. -/
def cqTried (s : State) : State := onCq (fun q => match q.entries with
  | e :: rest => { q with entries := { e with tries := e.tries + 1 } :: rest }
  | [] => q) s

/-- An access of the head has succeeded: a write, or a WAIT that is met, is done; another WAIT waits.  Success on the one
`retry` is a transient fault (R16, R572). -/
def cqTook (retry : Bool) (e : CqEntry) (w : Word) (s : State) : State :=
  if e.kind = 0 || cqMet e w then cqDone (if retry then noteTransient .cmdq s else s) else cqFlags true false s

/-- A failure of the head's access (R572): held at BUSY_QUIESCED; retried once after the target is READY at BLOCK_RESET, which
CMDQ records (R42); another bus error is retried at once; a failed retry is lasting. -/
def cqFails (e : CqEntry) (x : BusErr) (s : State) : State :=
  if x = .busyQuiesced then cqFlags false true s
  else
    let s1 := if x = .blockReset then recErr .cmdq errBlockReset s else s
    if e.tries ≠ 0 then cqHalt 0x101 s1
    else if x = .blockReset then cqTried s1
    else
      let r := cqAccess false e (cqTried s1)
      match r.2 with
      | .ok w => cqTook true e w r.1
      | .fails .busyQuiesced => cqFlags false true r.1
      | .fails _ => cqHalt 0x101 r.1
      | .stalls => r.1

/-- The head entry's access, if CMDQ runs (with EN at 0 too: the entry had been accepted, R631) and the head is not held by a target that is still quiesced. -/
def cqRun (early : Bool) (s : State) : State :=
  match s.cmdq.entries with
  | [] => s
  | e :: _ =>
    let held := regB s .cmdq 0x044 29 && (match pageAt e.addr with | some p => quiescing s p | none => false)
    if !running s .cmdq || cqHalted s || held then s
    else
      let r := cqAccess early e s
      match r.2 with
      | .ok w => cqTook (e.tries != 0) e w r.1
      | .fails x => cqFails e x r.1
      | .stalls => s

/-- WAITING (R574). -/
def cqWaiting (s : State) : Bool := regB s .cmdq 0x044 30

/-- `CQ_HEAD`: the head's write, or its first read; `early`: the access had been accepted before its page's reset (R42). -/
def execCqHead (early : Bool) (s : State) : Out := doneTb s (if cqWaiting s then s else cqRun early s)

/-- `CQ_WAIT_POLL`. -/
def execCqWaitPoll (s : State) : Out := doneTb s (if cqWaiting s then cqRun false s else s)

/-- `POLL_TMO`: one further POLL_TMO, and then lasting (R572). -/
def execPollTmo (s : State) : Out :=
  done s (match s.cmdq.entries with
    | e :: _ => if !cqWaiting s || cqHalted s || !running s .cmdq then s else if e.tries = 0 then cqTried s else cqHalt 0x102 s
    | [] => s)

/-- `CQ_PUSH`. -/
def execCqPush (ini : Ini) (v : Word) (s : State) : Out := done s (admitWrite ini .cmdq 0x04C v (cqPush ini v) s)

/-- `CQ_RESUME`. -/
def execCqResume (ini : Ini) (s : State) : Out := done s (admitWrite ini .cmdq 0x05C 0x43000001 (cqCmdWrite 0x43000001) s)

/-- `CQ_FLUSH`. -/
def execCqFlush (ini : Ini) (s : State) : Out := done s (admitWrite ini .cmdq 0x05C 0x43000002 (cqCmdWrite 0x43000002) s)

end Sys2Proof.Machine
end

