-- ==== Sys2Proof/Machine/Dispatch.lean ====
section
/-! DEFINITION. One arm per command: a direct call of its meaning. -/
namespace Sys2Proof.Machine

/-- The effect of a command on everything but the queue. -/
def exec (i : Instr) (s : State) : Host.Outcome State Fault Refusal :=
  match i with
  | .regWrite ini addr v => Sys2Proof.Machine.execRegWrite ini addr v s
  | .memAccess ini op ecc => Sys2Proof.Machine.execMemAccess ini op ecc s
  | .blkEnable ini p => Sys2Proof.Machine.execBlkEnable ini p s
  | .blkDisable ini p => Sys2Proof.Machine.execBlkDisable ini p s
  | .quiesceReq ini p => Sys2Proof.Machine.execQuiesceReq ini p s
  | .quiesceRelease ini p => Sys2Proof.Machine.execQuiesceRelease ini p s
  | .quiesced p => Sys2Proof.Machine.execQuiesced p s
  | .sleepReq ini p => Sys2Proof.Machine.execSleepReq ini p s
  | .sleepRelease ini p => Sys2Proof.Machine.execSleepRelease ini p s
  | .irqStatClear ini p v => Sys2Proof.Machine.execIrqStatClear ini p v s
  | .lockKey ini p => Sys2Proof.Machine.execLockKey ini p s
  | .lockMask ini p v => Sys2Proof.Machine.execLockMask ini p v s
  | .blkRstErrors ini p => Sys2Proof.Machine.execBlkRstErrors ini p s
  | .blkRstDatapath ini p => Sys2Proof.Machine.execBlkRstDatapath ini p s
  | .blkRstFull ini p => Sys2Proof.Machine.execBlkRstFull ini p s
  | .badReset ini p reach => Sys2Proof.Machine.execBadReset ini p reach s
  | .blockResetDone p => Sys2Proof.Machine.execBlockResetDone p s
  | .swiSet ini v => Sys2Proof.Machine.execSwiSet ini v s
  | .swiClr ini v => Sys2Proof.Machine.execSwiClr ini v s
  | .irqClaim ini t => Sys2Proof.Machine.execIrqClaim ini t s
  | .irqDone ini t v => Sys2Proof.Machine.execIrqDone ini t v s
  | .coreRel ini v => Sys2Proof.Machine.execCoreRel ini v s
  | .nandRead ini => Sys2Proof.Machine.execNandRead ini s
  | .nandProgram ini => Sys2Proof.Machine.execNandProgram ini s
  | .nandErase ini => Sys2Proof.Machine.execNandErase ini s
  | .nandDone ini r => Sys2Proof.Machine.execNandDone ini r s
  | .arm ini v => Sys2Proof.Machine.execArm ini v s
  | .fire ini v => Sys2Proof.Machine.execFire ini v s
  | .armLapsed => Sys2Proof.Machine.execArmLapsed s
  | .pulseDone c => Sys2Proof.Machine.execPulseDone c s
  | .holdOffEnd c => Sys2Proof.Machine.execHoldOffEnd c s
  | .gpSet ini v => Sys2Proof.Machine.execGpSet ini v s
  | .gpClr ini v => Sys2Proof.Machine.execGpClr ini v s
  | .gpTgl ini v => Sys2Proof.Machine.execGpTgl ini v s
  | .gpioEdge n rising => Sys2Proof.Machine.execGpioEdge n rising s
  | .mbGo ini q v => Sys2Proof.Machine.execMbGo ini q v s
  | .mbResponse q frame framingOk => Sys2Proof.Machine.execMbResponse q frame framingOk s
  | .mbRespTimeout q => Sys2Proof.Machine.execMbRespTimeout q s
  | .mbTurnDone q => Sys2Proof.Machine.execMbTurnDone q s
  | .rawTxWrite ini q v => Sys2Proof.Machine.execRawTxWrite ini q v s
  | .rawRxByte q b => Sys2Proof.Machine.execRawRxByte q b s
  | .rawRxPop ini q => Sys2Proof.Machine.execRawRxPop ini q s
  | .rawRxSilence q => Sys2Proof.Machine.execRawRxSilence q s
  | .epArm ini e v => Sys2Proof.Machine.execEpArm ini e v s
  | .epStall ini e v => Sys2Proof.Machine.execEpStall ini e v s
  | .epDone e data short => Sys2Proof.Machine.execEpDone e data short s
  | .setup bytes => Sys2Proof.Machine.execSetup bytes s
  | .busReset high => Sys2Proof.Machine.execBusReset high s
  | .suspend => Sys2Proof.Machine.execSuspend s
  | .vbusChg present => Sys2Proof.Machine.execVbusChg present s
  | .incCommit ini n v => Sys2Proof.Machine.execIncCommit ini n v s
  | .slewStart ini n v => Sys2Proof.Machine.execSlewStart ini n v s
  | .slewEnd ini n => Sys2Proof.Machine.execSlewEnd ini n s
  | .slewExpire n => Sys2Proof.Machine.execSlewExpire n s
  | .stepAbsolute ini n => Sys2Proof.Machine.execStepAbsolute ini n s
  | .stepOffset ini n => Sys2Proof.Machine.execStepOffset ini n s
  | .stepArm ini n v => Sys2Proof.Machine.execStepArm ini n v s
  | .nowNsRead ini n => Sys2Proof.Machine.execNowNsRead ini n s
  | .trgArm ini u v => Sys2Proof.Machine.execTrgArm ini u v s
  | .triggerFire u => Sys2Proof.Machine.execTriggerFire u s
  | .captureEdge src rising => Sys2Proof.Machine.execCaptureEdge src rising s
  | .capPop ini c => Sys2Proof.Machine.execCapPop ini c s
  | .ptBaseWrite ini v => Sys2Proof.Machine.execPtBaseWrite ini v s
  | .restore ini => Sys2Proof.Machine.execRestore ini s
  | .restoreDone => Sys2Proof.Machine.execRestoreDone s
  | .flushAll ini => Sys2Proof.Machine.execFlushAll ini s
  | .flush ini ix => Sys2Proof.Machine.execFlush ini ix s
  | .flushDone => Sys2Proof.Machine.execFlushDone s
  | .pin ini ix => Sys2Proof.Machine.execPin ini ix s
  | .unpin ini ix => Sys2Proof.Machine.execUnpin ini ix s
  | .ckptAll ini => Sys2Proof.Machine.execCkptAll ini s
  | .ckptAllDone => Sys2Proof.Machine.execCkptAllDone s
  | .inval ini v => Sys2Proof.Machine.execInval ini v s
  | .wpCmd ini => Sys2Proof.Machine.execWpCmd ini s
  | .rdIndex ini v => Sys2Proof.Machine.execRdIndex ini v s
  | .ptLookup who ix wr => Sys2Proof.Machine.execPtLookup who ix wr s
  | .wbSweep => Sys2Proof.Machine.execWbSweep s
  | .ckptCopyDone r => Sys2Proof.Machine.execCkptCopyDone r s
  | .elCtrlWrite ini n v => Sys2Proof.Machine.execElCtrlWrite ini n v s
  | .lbdWindowEnd n => Sys2Proof.Machine.execLbdWindowEnd n s
  | .foreignDrive n => Sys2Proof.Machine.execForeignDrive n s
  | .contention n => Sys2Proof.Machine.execContention n s
  | .backoffEnd n => Sys2Proof.Machine.execBackoffEnd n s
  | .drvOvercurrent n => Sys2Proof.Machine.execDrvOvercurrent n s
  | .ocpRetryWaitEnd n => Sys2Proof.Machine.execOcpRetryWaitEnd n s
  | .drvOvertemp n => Sys2Proof.Machine.execDrvOvertemp n s
  | .drvTempRecover n => Sys2Proof.Machine.execDrvTempRecover n s
  | .undriven n => Sys2Proof.Machine.execUndriven n s
  | .returnPreamble n highs vhi vlo rtt => Sys2Proof.Machine.execReturnPreamble n highs vhi vlo rtt s
  | .peEvaluate n => Sys2Proof.Machine.execPeEvaluate n s
  | .runStart ini n v => Sys2Proof.Machine.execRunStart ini n v s
  | .runStop ini n v => Sys2Proof.Machine.execRunStop ini n v s
  | .cycleStart n => Sys2Proof.Machine.execCycleStart n s
  | .frameFix n => Sys2Proof.Machine.execFrameFix n s
  | .forwardPhaseEnd n => Sys2Proof.Machine.execForwardPhaseEnd n s
  | .handover src k => Sys2Proof.Machine.execHandover src k s
  | .lseqRevoke nupd k => Sys2Proof.Machine.execLseqRevoke nupd k s
  | .lurg n => Sys2Proof.Machine.execLurg n s
  | .returnStream n slots bitErrs => Sys2Proof.Machine.execReturnStream n slots bitErrs s
  | .returnTimeout n => Sys2Proof.Machine.execReturnTimeout n s
  | .lnFreq ini n v => Sys2Proof.Machine.execLnFreq ini n v s
  | .grpCommit ini g v => Sys2Proof.Machine.execGrpCommit ini g v s
  | .pdataStart n delay => Sys2Proof.Machine.execPdataStart n delay s
  | .pswap n delay => Sys2Proof.Machine.execPswap n delay s
  | .keepalive n => Sys2Proof.Machine.execKeepalive n s
  | .pixelReturn n words => Sys2Proof.Machine.execPixelReturn n words s
  | .pcfgPlace n => Sys2Proof.Machine.execPcfgPlace n s
  | .post ini => Sys2Proof.Machine.execPost ini s
  | .release ini => Sys2Proof.Machine.execRelease ini s
  | .revoke ini => Sys2Proof.Machine.execRevoke ini s
  | .setHours ini => Sys2Proof.Machine.execSetHours ini s
  | .requestActed ix p => Sys2Proof.Machine.execRequestActed ix p s
  | .durationEnd ix p => Sys2Proof.Machine.execDurationEnd ix p s
  | .evaluate => Sys2Proof.Machine.execEvaluate s
  | .pendingPassed ix => Sys2Proof.Machine.execPendingPassed ix s
  | .cloSweep => Sys2Proof.Machine.execCloSweep s
  | .luxLoop ix => Sys2Proof.Machine.execLuxLoop ix s
  | .cctLoop ix => Sys2Proof.Machine.execCctLoop ix s
  | .loopIdx ini v => Sys2Proof.Machine.execLoopIdx ini v s
  | .stepPosted p k => Sys2Proof.Machine.execStepPosted p k s
  | .schedStepRelease p k => Sys2Proof.Machine.execSchedStepRelease p k s
  | .dayRoll => Sys2Proof.Machine.execDayRoll s
  | .reload ini v => Sys2Proof.Machine.execReload ini v s
  | .tzOffsetWrite ini v => Sys2Proof.Machine.execTzOffsetWrite ini v s
  | .progEnWrite ini hi v => Sys2Proof.Machine.execProgEnWrite ini hi v s
  | .holdClear ini v => Sys2Proof.Machine.execHoldClear ini v s
  | .detEdge n rising => Sys2Proof.Machine.execDetEdge n rising s
  | .inMsPop ini n => Sys2Proof.Machine.execInMsPop ini n s
  | .detReload ini v => Sys2Proof.Machine.execDetReload ini v s
  | .pairAExpire d => Sys2Proof.Machine.execPairAExpire d s
  | .mirEvent => Sys2Proof.Machine.execMirEvent s
  | .mirTick => Sys2Proof.Machine.execMirTick s
  | .confTimeout c => Sys2Proof.Machine.execConfTimeout c s
  | .trackFree c => Sys2Proof.Machine.execTrackFree c s
  | .trkKill ini v => Sys2Proof.Machine.execTrkKill ini v s
  | .injCmd ini => Sys2Proof.Machine.execInjCmd ini s
  | .trkIdx ini v => Sys2Proof.Machine.execTrkIdx ini v s
  | .trackHandoverRx src ws => Sys2Proof.Machine.execTrackHandoverRx src ws s
  | .trackCancelRx src ws => Sys2Proof.Machine.execTrackCancelRx src ws s
  | .cancelRecordExpire => Sys2Proof.Machine.execCancelRecordExpire s
  | .stripRebuild k => Sys2Proof.Machine.execStripRebuild k s
  | .stripEnable ini k v => Sys2Proof.Machine.execStripEnable ini k v s
  | .stripDisable ini k v => Sys2Proof.Machine.execStripDisable ini k v s
  | .mirModeOff ini => Sys2Proof.Machine.execMirModeOff ini s
  | .mirModeShadow ini => Sys2Proof.Machine.execMirModeShadow ini s
  | .mirModeActive ini => Sys2Proof.Machine.execMirModeActive ini s
  | .observation => Sys2Proof.Machine.execObservation s
  | .lineReport => Sys2Proof.Machine.execLineReport s
  | .proofDue ix => Sys2Proof.Machine.execProofDue ix s
  | .proofReq ini v => Sys2Proof.Machine.execProofReq ini v s
  | .clr ini v => Sys2Proof.Machine.execClr ini v s
  | .burnSecond => Sys2Proof.Machine.execBurnSecond s
  | .radioReportDue ix => Sys2Proof.Machine.execRadioReportDue ix s
  | .diagModeOff ini => Sys2Proof.Machine.execDiagModeOff ini s
  | .diagModeShadow ini => Sys2Proof.Machine.execDiagModeShadow ini s
  | .diagModeActive ini => Sys2Proof.Machine.execDiagModeActive ini s
  | .mfFrame r sets => Sys2Proof.Machine.execMfFrame r sets s
  | .powerSampleEnd => Sys2Proof.Machine.execPowerSampleEnd s
  | .windowEnd r => Sys2Proof.Machine.execWindowEnd r s
  | .winReady => Sys2Proof.Machine.execWinReady s
  | .snap ini v => Sys2Proof.Machine.execSnap ini v s
  | .snapReady => Sys2Proof.Machine.execSnapReady s
  | .totClr ini v => Sys2Proof.Machine.execTotClr ini v s
  | .calChange ini addr v => Sys2Proof.Machine.execCalChange ini addr v s
  | .relearn ini v => Sys2Proof.Machine.execRelearn ini v s
  | .testOutPulse => Sys2Proof.Machine.execTestOutPulse s
  | .attrSelect c => Sys2Proof.Machine.execAttrSelect c s
  | .roundStart c => Sys2Proof.Machine.execRoundStart c s
  | .chipHandover c => Sys2Proof.Machine.execChipHandover c s
  | .attrSolve c => Sys2Proof.Machine.execAttrSolve c s
  | .roundDone c => Sys2Proof.Machine.execRoundDone c s
  | .abort ini v => Sys2Proof.Machine.execAbort ini v s
  | .attrModeOff ini => Sys2Proof.Machine.execAttrModeOff ini s
  | .attrModeShadow ini => Sys2Proof.Machine.execAttrModeShadow ini s
  | .attrModeActive ini => Sys2Proof.Machine.execAttrModeActive ini s
  | .caravanSlot rssi => Sys2Proof.Machine.execCaravanSlot rssi s
  | .status f origin st data gack => Sys2Proof.Machine.execStatus f origin st data gack s
  | .sensor f origin evseq stamp dirUs speed => Sys2Proof.Machine.execSensor f origin evseq stamp dirUs speed s
  | .poll f e => Sys2Proof.Machine.execPoll f e s
  | .joinReq q => Sys2Proof.Machine.execJoinReq q s
  | .keyReq q => Sys2Proof.Machine.execKeyReq q s
  | .reparent f origin parent => Sys2Proof.Machine.execReparent f origin parent s
  | .ergRf pan fc dsn good payload => Sys2Proof.Machine.execErgRf pan fc dsn good payload s
  | .nack f origin camp miss held => Sys2Proof.Machine.execNack f origin camp miss held s
  | .hopAck => Sys2Proof.Machine.execHopAck s
  | .hopAckMiss => Sys2Proof.Machine.execHopAckMiss s
  | .crvHandover src k rev => Sys2Proof.Machine.execCrvHandover src k rev s
  | .ackTmo ix => Sys2Proof.Machine.execAckTmo ix s
  | .lost n => Sys2Proof.Machine.execLost n s
  | .leaseEnd n => Sys2Proof.Machine.execLeaseEnd n s
  | .evict ini v => Sys2Proof.Machine.execEvict ini v s
  | .roll ini v => Sys2Proof.Machine.execRoll ini v s
  | .rollSwitch => Sys2Proof.Machine.execRollSwitch s
  | .rollDone => Sys2Proof.Machine.execRollDone s
  | .heldFrameExpire n => Sys2Proof.Machine.execHeldFrameExpire n s
  | .sesIdx ini v => Sys2Proof.Machine.execSesIdx ini v s
  | .crvModeOff ini => Sys2Proof.Machine.execCrvModeOff ini s
  | .crvModeShadow ini => Sys2Proof.Machine.execCrvModeShadow ini s
  | .crvModeActive ini => Sys2Proof.Machine.execCrvModeActive ini s
  | .start ini => Sys2Proof.Machine.execStart ini s
  | .activate ini => Sys2Proof.Machine.execActivate ini s
  | .nupdAbort ini => Sys2Proof.Machine.execNupdAbort ini s
  | .resume ini => Sys2Proof.Machine.execResume ini s
  | .pause ini => Sys2Proof.Machine.execPause ini s
  | .nupdRoundEnd => Sys2Proof.Machine.execNupdRoundEnd s
  | .nupdArm => Sys2Proof.Machine.execNupdArm s
  | .check => Sys2Proof.Machine.execCheck s
  | .phyRstClear ini n => Sys2Proof.Machine.execPhyRstClear ini n s
  | .restartAn ini n v => Sys2Proof.Machine.execRestartAn ini n v s
  | .linkUp n k => Sys2Proof.Machine.execLinkUp n k s
  | .linkDown n => Sys2Proof.Machine.execLinkDown n s
  | .rxFrame n frame fifo => Sys2Proof.Machine.execRxFrame n frame fifo s
  | .pauseRx n q => Sys2Proof.Machine.execPauseRx n q s
  | .pauseExpire n => Sys2Proof.Machine.execPauseExpire n s
  | .xoffRepeat n fifo => Sys2Proof.Machine.execXoffRepeat n fifo s
  | .rxrTail ini n v => Sys2Proof.Machine.execRxrTail ini n v s
  | .txrTail ini n v => Sys2Proof.Machine.execTxrTail ini n v s
  | .txFrameStart n => Sys2Proof.Machine.execTxFrameStart n s
  | .txDone n => Sys2Proof.Machine.execTxDone n s
  | .wake n frame => Sys2Proof.Machine.execWake n frame s
  | .ergModeOff ini => Sys2Proof.Machine.execErgModeOff ini s
  | .ergModeActive ini => Sys2Proof.Machine.execErgModeActive ini s
  | .ergModeShadow ini => Sys2Proof.Machine.execErgModeShadow ini s
  | .claimHello => Sys2Proof.Machine.execClaimHello s
  | .claimEnd => Sys2Proof.Machine.execClaimEnd s
  | .hello p mac ip m => Sys2Proof.Machine.execHello p mac ip m s
  | .helloInt => Sys2Proof.Machine.execHelloInt s
  | .roadInt => Sys2Proof.Machine.execRoadInt s
  | .pathDown e p => Sys2Proof.Machine.execPathDown e p s
  | .ergAck path m => Sys2Proof.Machine.execErgAck path m s
  | .ergMsg path type m => Sys2Proof.Machine.execErgMsg path type m s
  | .ergSend => Sys2Proof.Machine.execErgSend s
  | .htxTail ini v => Sys2Proof.Machine.execHtxTail ini v s
  | .hrxTail ini v => Sys2Proof.Machine.execHrxTail ini v s
  | .ergAckTmo k => Sys2Proof.Machine.execErgAckTmo k s
  | .nbrReload ini v => Sys2Proof.Machine.execNbrReload ini v s
  | .reassemblyTimeout pan => Sys2Proof.Machine.execReassemblyTimeout pan s
  | .floodRecordExpire => Sys2Proof.Machine.execFloodRecordExpire s
  | .arbPulse => Sys2Proof.Machine.execArbPulse s
  | .arbEdgePeer => Sys2Proof.Machine.execArbEdgePeer s
  | .arbEdgeOwn => Sys2Proof.Machine.execArbEdgeOwn s
  | .clashWaitEnd => Sys2Proof.Machine.execClashWaitEnd s
  | .arbSilent low full => Sys2Proof.Machine.execArbSilent low full s
  | .twHealth ini v => Sys2Proof.Machine.execTwHealth ini v s
  | .healthStale => Sys2Proof.Machine.execHealthStale s
  | .presChange present => Sys2Proof.Machine.execPresChange present s
  | .identityExchange p => Sys2Proof.Machine.execIdentityExchange p s
  | .synced => Sys2Proof.Machine.execSynced s
  | .linkMessage lane seq item => Sys2Proof.Machine.execLinkMessage lane seq item s
  | .linkAckTimeout seq => Sys2Proof.Machine.execLinkAckTimeout seq s
  | .heartbeat => Sys2Proof.Machine.execHeartbeat s
  | .laneDown l => Sys2Proof.Machine.execLaneDown l s
  | .peerLost => Sys2Proof.Machine.execPeerLost s
  | .switch ini => Sys2Proof.Machine.execSwitch ini s
  | .detach ini => Sys2Proof.Machine.execDetach ini s
  | .resync ini => Sys2Proof.Machine.execResync ini s
  | .reclaim => Sys2Proof.Machine.execReclaim s
  | .switchoverT => Sys2Proof.Machine.execSwitchoverT s
  | .lineReleased n => Sys2Proof.Machine.execLineReleased n s
  | .setBin ini => Sys2Proof.Machine.execSetBin ini s
  | .setCal ini => Sys2Proof.Machine.execSetCal ini s
  | .rtcFracRead ini => Sys2Proof.Machine.execRtcFracRead ini s
  | .alarmArm ini v => Sys2Proof.Machine.execAlarmArm ini v s
  | .alarmFire k => Sys2Proof.Machine.execAlarmFire k s
  | .pwake => Sys2Proof.Machine.execPwake s
  | .rest ini => Sys2Proof.Machine.execRest ini s
  | .pwrOnRelease => Sys2Proof.Machine.execPwrOnRelease s
  | .restMinEnd => Sys2Proof.Machine.execRestMinEnd s
  | .tamperSample driven high => Sys2Proof.Machine.execTamperSample driven high s
  | .meshCheck mismatch => Sys2Proof.Machine.execMeshCheck mismatch s
  | .tampStatClear ini v => Sys2Proof.Machine.execTampStatClear ini v s
  | .vbatMeasure mv => Sys2Proof.Machine.execVbatMeasure mv s
  | .syncBusyEnd => Sys2Proof.Machine.execSyncBusyEnd s
  | .backupPor => Sys2Proof.Machine.execBackupPor s
  | .backupPorRelease => Sys2Proof.Machine.execBackupPorRelease s
  | .info ini => Sys2Proof.Machine.execInfo ini s
  | .load ini => Sys2Proof.Machine.execLoad ini s
  | .verify ini => Sys2Proof.Machine.execVerify ini s
  | .commit ini => Sys2Proof.Machine.execCommit ini s
  | .erase ini => Sys2Proof.Machine.execErase ini s
  | .derive ini => Sys2Proof.Machine.execDerive ini s
  | .mac ini => Sys2Proof.Machine.execMac ini s
  | .sign ini => Sys2Proof.Machine.execSign ini s
  | .wrap ini => Sys2Proof.Machine.execWrap ini s
  | .extend ini => Sys2Proof.Machine.execExtend ini s
  | .attest ini => Sys2Proof.Machine.execAttest ini s
  | .nonce ini => Sys2Proof.Machine.execNonce ini s
  | .exec ini => Sys2Proof.Machine.execExec ini s
  | .badOp ini => Sys2Proof.Machine.execBadOp ini s
  | .nonceExpire => Sys2Proof.Machine.execNonceExpire s
  | .mbResRead ini w => Sys2Proof.Machine.execMbResRead ini w s
  | .aesEcb ini => Sys2Proof.Machine.execAesEcb ini s
  | .aesCbc ini => Sys2Proof.Machine.execAesCbc ini s
  | .aesCtr ini => Sys2Proof.Machine.execAesCtr ini s
  | .aesGcm ini => Sys2Proof.Machine.execAesGcm ini s
  | .sha256 ini => Sys2Proof.Machine.execSha256 ini s
  | .sha384 ini => Sys2Proof.Machine.execSha384 ini s
  | .hmacSha256 ini => Sys2Proof.Machine.execHmacSha256 ini s
  | .p256Verify ini => Sys2Proof.Machine.execP256Verify ini s
  | .p384Verify ini => Sys2Proof.Machine.execP384Verify ini s
  | .drbg ini => Sys2Proof.Machine.execDrbg ini s
  | .algInvalid ini => Sys2Proof.Machine.execAlgInvalid ini s
  | .crypDone => Sys2Proof.Machine.execCrypDone s
  | .crKload ini v => Sys2Proof.Machine.execCrKload ini v s
  | .crOutRead ini w => Sys2Proof.Machine.execCrOutRead ini w s
  | .optCommit ini r => Sys2Proof.Machine.execOptCommit ini r s
  | .healthy ini fuse => Sys2Proof.Machine.execHealthy ini fuse s
  | .stage ini => Sys2Proof.Machine.execStage ini s
  | .unstage ini => Sys2Proof.Machine.execUnstage ini s
  | .resetNAssert => Sys2Proof.Machine.execResetNAssert s
  | .resetNRelease => Sys2Proof.Machine.execResetNRelease s
  | .corePor vinLow => Sys2Proof.Machine.execCorePor vinLow s
  | .coreResetRelease b => Sys2Proof.Machine.execCoreResetRelease b s
  | .wdtKick ini v => Sys2Proof.Machine.execWdtKick ini v s
  | .wdtWarn => Sys2Proof.Machine.execWdtWarn s
  | .watchdog window => Sys2Proof.Machine.execWatchdog window s
  | .swRst ini v => Sys2Proof.Machine.execSwRst ini v s
  | .pwrFail => Sys2Proof.Machine.execPwrFail s
  | .pwrOk => Sys2Proof.Machine.execPwrOk s
  | .tcxoLoss => Sys2Proof.Machine.execTcxoLoss s
  | .tcxoValid => Sys2Proof.Machine.execTcxoValid s
  | .pllUnlock p again => Sys2Proof.Machine.execPllUnlock p again s
  | .pllLock p => Sys2Proof.Machine.execPllLock p s
  | .idle ini wfi => Sys2Proof.Machine.execIdle ini wfi s
  | .idlePoll => Sys2Proof.Machine.execIdlePoll s
  | .idleExit => Sys2Proof.Machine.execIdleExit s
  | .dfsReq ini v => Sys2Proof.Machine.execDfsReq ini v s
  | .thermCap temp => Sys2Proof.Machine.execThermCap temp s
  | .avsTick m => Sys2Proof.Machine.execAvsTick m s
  | .chGo ini c => Sys2Proof.Machine.execChGo ini c s
  | .descComplete c => Sys2Proof.Machine.execDescComplete c s
  | .dmaHalt c early => Sys2Proof.Machine.execDmaHalt c early s
  | .clearHalt ini => Sys2Proof.Machine.execClearHalt ini s
  | .cqPush ini v => Sys2Proof.Machine.execCqPush ini v s
  | .cqHead early => Sys2Proof.Machine.execCqHead early s
  | .cqWaitPoll => Sys2Proof.Machine.execCqWaitPoll s
  | .pollTmo => Sys2Proof.Machine.execPollTmo s
  | .cqResume ini => Sys2Proof.Machine.execCqResume ini s
  | .cqFlush ini => Sys2Proof.Machine.execCqFlush ini s
  | .esPush ini k v => Sys2Proof.Machine.execEsPush ini k v s
  | .esPop ini k => Sys2Proof.Machine.execEsPop ini k s
  | .mark ini k => Sys2Proof.Machine.execMark ini k s
  | .rewind ini k => Sys2Proof.Machine.execRewind ini k s
  | .esFlush ini k => Sys2Proof.Machine.execEsFlush ini k s
  | .esEnable ini k v => Sys2Proof.Machine.execEsEnable ini k v s
  | .evrRecord src => Sys2Proof.Machine.execEvrRecord src s
  | .evrWrite r => Sys2Proof.Machine.execEvrWrite r s
  | .evrScan => Sys2Proof.Machine.execEvrScan s
  | .rdSeq ini v => Sys2Proof.Machine.execRdSeq ini v s
  | .opsecTick => Sys2Proof.Machine.execOpsecTick s
  | .mbDone f => Sys2Proof.Machine.execMbDone f s
  | .digestVerified => Sys2Proof.Machine.execDigestVerified s
  | .laneUp l => Sys2Proof.Machine.execLaneUp l s
  | .suspendEnd => Sys2Proof.Machine.execSuspendEnd s

end Sys2Proof.Machine
end

