-- ==== Sys2Proof/Machine/Idle.lean ====
section
/-! DEFINITION. What the block does when no command waits: one cycle of the 250 MHz time-base clock (R70, R485, R64). -/
namespace Sys2Proof.Machine

/-- The time-base clock runs: no reset episode is open, and its PLL is locked (R70, R553). -/
def clockRuns (s : State) : Bool := !s.rst.active && !s.rst.pllDown.testBit 2

/-- Ticks of the 32.768 kHz oscillator in the first n cycles, at the nominal ratio 256 / 1,953,125. -/
def oasTicks (n : Nat) : Nat := n * 256 / 1953125

/-- One cycle: the time bases, the RTC where its tick falls into this cycle, what the engines are told of the point table (R97), and
one byte from each raw transmit FIFO. -/
def idleTick (s : State) : State :=
  if !clockRuns s then s
  else
    let t := { s with tb := tbsTick s }
    let t1 := if oasTicks s.tb.cycles < oasTicks (s.tb.cycles + 1) then oasTick t else t
    rawDrain 1 (rawDrain 0 (settle t1 (ptTell t1)))

end Sys2Proof.Machine
end

