-- ==== Sys2Proof/Machine/Step.lean ====
section
/-! DEFINITION. One step: the command at the front of the queue, or a cycle of the clock where none waits. -/
namespace Sys2Proof.Machine

/-- One step. -/
def step (s : State) : Host.Outcome State Fault Refusal :=
  match s.pending with
  | [] => .next (idleTick s)
  | c :: rest => exec c { s with pending := rest }

/-- No row of the table gives bits, so no word spells a command and the state is unchanged (log 33). -/
def State.withFetchWord (s : State) (_ _ : Nat) : State := s

end Sys2Proof.Machine
end

