-- ==== Sys2Proof/WellFormed.lean ====
section
/-! DEFINITION. When a command is well formed: operands that the syntax holds as plain numbers and lists lie within the widths
the manual gives them. -/
namespace Sys2Proof

/-- A bus access lies in the 32-bit address space and moves at least one byte (R20, R630). -/
def memOpWf : MemOp → Bool
  | .read a len => decide (0 < len) && decide (a + len ≤ 2 ^ 32)
  | .write a bs => decide (0 < bs.length) && decide (a + bs.length ≤ 2 ^ 32)

/-- A level in millivolts that a line's comparators can tell (R144). -/
def mvWf (v : Int) : Bool := decide (-32768 ≤ v) && decide (v < 32768)

/-- A frame counter of 32 bits, a DSN of 8, a key index of 8 (R366). -/
def radioWf (f : RadioRx) : Bool := decide (f.fc < 2 ^ 32) && decide (f.dsn < 2 ^ 8) && decide (f.key < 2 ^ 8)

/-- An EUI-64, a JCTR of 32 bits, FLAGS of 8, POLL_S of 16 (R372). -/
def joinWf (q : JoinReq) : Bool :=
  decide (q.eui < 2 ^ 64) && decide (q.jctr < 2 ^ 32) && decide (q.flags < 2 ^ 8) && decide (q.pollS < 2 ^ 16)

/-- The widths of an Erg header, and its longest payload (R439). -/
def ergWf (m : ErgMessage) : Bool :=
  decide (m.src < 2 ^ 12) && decide (m.dst < 2 ^ 12) && decide (m.ttl < 2 ^ 8) && decide (m.session < 2 ^ 32)
    && decide (m.seq < 2 ^ 32) && decide (m.payload.length ≤ 1008)
    && (match m.flood with | none => true | some (o, q) => decide (o < 2 ^ 12) && decide (q < 2 ^ 20))

/-- The halves of a point are 32 words (R87, R92); a request entry is the 16 or so bytes its sender holds. -/
def linkWf : LinkItem → Bool
  | .heartbeat sec ns _ _ => decide (sec < 2 ^ 48) && decide (ns < 1000000000)
  | .ack seq => decide (seq < 2 ^ 32)
  | .progress _ => true
  | .cfg _ h => decide (h.length = 32)
  | .st _ h => decide (h.length = 32)
  | .request _ _ _ => true
  | .hours _ h => decide (h < 2 ^ 32)
  | .preEmph _ k => decide (k < 16)
  | .session _ _ => true
  | .caravan e n f => decide (e < 2 ^ 64) && decide (n < 2 ^ 32) && decide (f < 2 ^ 32)
  | .track _ _ => true
  | .trackCancel _ _ => true
  | .flood o q => decide (o < 2 ^ 12) && decide (q < 2 ^ 20)
  | .nupd off bs => decide (off + bs.length ≤ 2 ^ 24)
  | .totals _ imp ex => decide (imp < 2 ^ 64) && decide (ex < 2 ^ 64)
  | .handed _ _ => true
  | .seqGiven _ _ _ _ => true
  | .acked _ _ _ => true
  | .revoked _ _ _ => true
  | .lineReleased _ => true
  | .switchReq => true
  | .switchAt _ => true

/-- A command whose operands lie within their widths. -/
def Instr.wf : Instr → Bool
  | .regWrite _ addr _ => decide (addr < 2 ^ 32) && addr % 4 == 0
  | .memAccess _ op _ => memOpWf op
  | .blkEnable .. => true
  | .blkDisable .. => true
  | .quiesceReq .. => true
  | .quiesceRelease .. => true
  | .quiesced .. => true
  | .sleepReq .. => true
  | .sleepRelease .. => true
  | .irqStatClear .. => true
  | .lockKey .. => true
  | .lockMask .. => true
  | .blkRstErrors .. => true
  | .blkRstDatapath .. => true
  | .blkRstFull .. => true
  | .badReset .. => true
  | .blockResetDone .. => true
  | .swiSet .. => true
  | .swiClr .. => true
  | .irqClaim .. => true
  | .irqDone .. => true
  | .coreRel .. => true
  | .nandRead .. => true
  | .nandProgram .. => true
  | .nandErase .. => true
  | .nandDone .. => true
  | .arm .. => true
  | .fire .. => true
  | .armLapsed => true
  | .pulseDone .. => true
  | .holdOffEnd .. => true
  | .gpSet .. => true
  | .gpClr .. => true
  | .gpTgl .. => true
  | .gpioEdge .. => true
  | .mbGo .. => true
  | .mbResponse _ frame _ => decide (frame.length ≤ 256)
  | .mbRespTimeout .. => true
  | .mbTurnDone .. => true
  | .rawTxWrite .. => true
  | .rawRxByte .. => true
  | .rawRxPop .. => true
  | .rawRxSilence .. => true
  | .epArm .. => true
  | .epStall .. => true
  | .epDone _ data _ => decide (data.length ≤ 65536)
  | .setup bytes => decide (bytes.length = 8)
  | .busReset .. => true
  | .suspend => true
  | .vbusChg .. => true
  | .incCommit .. => true
  | .slewStart .. => true
  | .slewEnd .. => true
  | .slewExpire .. => true
  | .stepAbsolute .. => true
  | .stepOffset .. => true
  | .stepArm .. => true
  | .nowNsRead .. => true
  | .trgArm .. => true
  | .triggerFire .. => true
  | .captureEdge .. => true
  | .capPop .. => true
  | .ptBaseWrite .. => true
  | .restore .. => true
  | .restoreDone => true
  | .flushAll .. => true
  | .flush .. => true
  | .flushDone => true
  | .pin .. => true
  | .unpin .. => true
  | .ckptAll .. => true
  | .ckptAllDone => true
  | .inval .. => true
  | .wpCmd .. => true
  | .rdIndex .. => true
  | .ptLookup _ i _ => decide (i < 65536)
  | .wbSweep => true
  | .ckptCopyDone .. => true
  | .elCtrlWrite .. => true
  | .lbdWindowEnd .. => true
  | .foreignDrive .. => true
  | .contention .. => true
  | .backoffEnd .. => true
  | .drvOvercurrent .. => true
  | .ocpRetryWaitEnd .. => true
  | .drvOvertemp .. => true
  | .drvTempRecover .. => true
  | .undriven .. => true
  | .returnPreamble _ highs vhi vlo rtt => decide (highs.length ≤ 64) && mvWf vhi && mvWf vlo && decide (rtt < 2 ^ 32)
  | .peEvaluate .. => true
  | .runStart .. => true
  | .runStop .. => true
  | .cycleStart .. => true
  | .frameFix .. => true
  | .forwardPhaseEnd .. => true
  | .handover _ k => decide (k < 12288)
  | .lseqRevoke _ k => decide (k < 12288)
  | .lurg .. => true
  | .returnStream _ slots _ => slots.all fun x => decide (x.1 < 2 ^ 32) && decide (x.2 < 2 ^ 32)
  | .returnTimeout .. => true
  | .lnFreq .. => true
  | .grpCommit .. => true
  | .pdataStart .. => true
  | .pswap .. => true
  | .keepalive .. => true
  | .pixelReturn _ words => words.all fun x => decide (x.1 < 2 ^ 16)
  | .pcfgPlace .. => true
  | .post .. => true
  | .release .. => true
  | .revoke .. => true
  | .setHours .. => true
  | .requestActed .. => true
  | .durationEnd .. => true
  | .evaluate => true
  | .pendingPassed .. => true
  | .cloSweep => true
  | .luxLoop .. => true
  | .cctLoop .. => true
  | .loopIdx .. => true
  | .stepPosted .. => true
  | .schedStepRelease .. => true
  | .dayRoll => true
  | .reload .. => true
  | .tzOffsetWrite .. => true
  | .progEnWrite .. => true
  | .holdClear .. => true
  | .detEdge .. => true
  | .inMsPop .. => true
  | .detReload .. => true
  | .pairAExpire .. => true
  | .mirEvent => true
  | .mirTick => true
  | .confTimeout .. => true
  | .trackFree .. => true
  | .trkKill .. => true
  | .injCmd .. => true
  | .trkIdx .. => true
  | .trackHandoverRx .. => true
  | .trackCancelRx .. => true
  | .cancelRecordExpire => true
  | .stripRebuild .. => true
  | .stripEnable .. => true
  | .stripDisable .. => true
  | .mirModeOff .. => true
  | .mirModeShadow .. => true
  | .mirModeActive .. => true
  | .observation => true
  | .lineReport => true
  | .proofDue .. => true
  | .proofReq .. => true
  | .clr .. => true
  | .burnSecond => true
  | .radioReportDue .. => true
  | .diagModeOff .. => true
  | .diagModeShadow .. => true
  | .diagModeActive .. => true
  | .mfFrame _ sets => sets.all fun x => x.all fun c => decide (-(2 ^ 23) ≤ c) && decide (c < 2 ^ 23)
  | .powerSampleEnd => true
  | .windowEnd .. => true
  | .winReady => true
  | .snap .. => true
  | .snapReady => true
  | .totClr .. => true
  | .calChange _ addr _ => decide (addr < 2 ^ 32) && addr % 4 == 0
  | .relearn .. => true
  | .testOutPulse => true
  | .attrSelect .. => true
  | .roundStart .. => true
  | .chipHandover .. => true
  | .attrSolve .. => true
  | .roundDone .. => true
  | .abort .. => true
  | .attrModeOff .. => true
  | .attrModeShadow .. => true
  | .attrModeActive .. => true
  | .caravanSlot .. => true
  | .status f _ st data gack => radioWf f && decide (st < 2 ^ 32) && decide (data < 2 ^ 32) && decide (gack < 2 ^ 8)
  | .sensor f _ ev st d sp => radioWf f && decide (ev < 2 ^ 8) && decide (st < 2 ^ 32) && decide (d < 2 ^ 16) && decide (sp < 2 ^ 16)
  | .poll f _ => radioWf f
  | .joinReq q => joinWf q
  | .keyReq q => joinWf q
  | .reparent f _ _ => radioWf f
  | .ergRf pan fc dsn _ pl => decide (pan < 2 ^ 16) && decide (fc < 2 ^ 32) && decide (dsn < 256) && decide (pl.length ≤ 127)
  | .nack f _ camp miss held => radioWf f && decide (camp < 2 ^ 16) && decide (miss < 2 ^ 128) && decide (held < 2 ^ 16)
  | .hopAck => true
  | .hopAckMiss => true
  | .crvHandover _ k _ => decide (k < 12288)
  | .ackTmo .. => true
  | .lost .. => true
  | .leaseEnd .. => true
  | .evict .. => true
  | .roll .. => true
  | .rollSwitch => true
  | .rollDone => true
  | .heldFrameExpire .. => true
  | .sesIdx .. => true
  | .crvModeOff .. => true
  | .crvModeShadow .. => true
  | .crvModeActive .. => true
  | .start .. => true
  | .activate .. => true
  | .nupdAbort .. => true
  | .resume .. => true
  | .pause .. => true
  | .nupdRoundEnd => true
  | .nupdArm => true
  | .check => true
  | .phyRstClear .. => true
  | .restartAn .. => true
  | .linkUp .. => true
  | .linkDown .. => true
  | .rxFrame _ frame fifo => decide (frame.length < 65536) && decide (fifo ≤ 65536)
  | .pauseRx .. => true
  | .pauseExpire .. => true
  | .xoffRepeat _ fifo => decide (fifo ≤ 65536)
  | .rxrTail .. => true
  | .txrTail .. => true
  | .txFrameStart .. => true
  | .txDone .. => true
  | .wake _ frame => decide (frame.length < 65536)
  | .ergModeOff .. => true
  | .ergModeActive .. => true
  | .ergModeShadow .. => true
  | .claimHello => true
  | .claimEnd => true
  | .hello _ hw ip m => decide (hw < 2 ^ 48) && decide (ip < 2 ^ 128) && ergWf m
  | .helloInt => true
  | .roadInt => true
  | .pathDown .. => true
  | .ergAck _ m => ergWf m
  | .ergMsg _ type m => decide (type < 2 ^ 8) && ergWf m
  | .ergSend => true
  | .htxTail .. => true
  | .hrxTail .. => true
  | .ergAckTmo k => decide (k < 65536)
  | .nbrReload .. => true
  | .reassemblyTimeout pan => decide (pan < 2 ^ 16)
  | .floodRecordExpire => true
  | .arbPulse => true
  | .arbEdgePeer => true
  | .arbEdgeOwn => true
  | .clashWaitEnd => true
  | .arbSilent .. => true
  | .twHealth .. => true
  | .healthStale => true
  | .presChange .. => true
  | .identityExchange p => decide (p.order < 2 ^ 32) && decide (p.fabAddr < 2 ^ 12) && decide (p.serial < 2 ^ 48)
  | .synced => true
  | .linkMessage _ seq item => decide (seq < 2 ^ 32) && linkWf item
  | .linkAckTimeout seq => decide (seq < 2 ^ 32)
  | .heartbeat => true
  | .laneDown .. => true
  | .peerLost => true
  | .switch .. => true
  | .detach .. => true
  | .resync .. => true
  | .reclaim => true
  | .switchoverT => true
  | .lineReleased .. => true
  | .setBin .. => true
  | .setCal .. => true
  | .rtcFracRead .. => true
  | .alarmArm .. => true
  | .alarmFire .. => true
  | .pwake => true
  | .rest .. => true
  | .pwrOnRelease => true
  | .restMinEnd => true
  | .tamperSample .. => true
  | .meshCheck .. => true
  | .tampStatClear .. => true
  | .vbatMeasure mv => decide (mv < 65536)
  | .syncBusyEnd => true
  | .backupPor => true
  | .backupPorRelease => true
  | .info .. => true
  | .load .. => true
  | .verify .. => true
  | .commit .. => true
  | .erase .. => true
  | .derive .. => true
  | .mac .. => true
  | .sign .. => true
  | .wrap .. => true
  | .extend .. => true
  | .attest .. => true
  | .nonce .. => true
  | .exec .. => true
  | .badOp .. => true
  | .nonceExpire => true
  | .mbResRead .. => true
  | .aesEcb .. => true
  | .aesCbc .. => true
  | .aesCtr .. => true
  | .aesGcm .. => true
  | .sha256 .. => true
  | .sha384 .. => true
  | .hmacSha256 .. => true
  | .p256Verify .. => true
  | .p384Verify .. => true
  | .drbg .. => true
  | .algInvalid .. => true
  | .crypDone => true
  | .crKload .. => true
  | .crOutRead .. => true
  | .optCommit .. => true
  | .healthy .. => true
  | .stage .. => true
  | .unstage .. => true
  | .resetNAssert => true
  | .resetNRelease => true
  | .corePor .. => true
  | .coreResetRelease .. => true
  | .wdtKick .. => true
  | .wdtWarn => true
  | .watchdog .. => true
  | .swRst .. => true
  | .pwrFail => true
  | .pwrOk => true
  | .tcxoLoss => true
  | .tcxoValid => true
  | .pllUnlock .. => true
  | .pllLock .. => true
  | .idle .. => true
  | .idlePoll => true
  | .idleExit => true
  | .dfsReq .. => true
  | .thermCap .. => true
  | .avsTick .. => true
  | .chGo .. => true
  | .descComplete .. => true
  | .dmaHalt .. => true
  | .clearHalt .. => true
  | .cqPush .. => true
  | .cqHead .. => true
  | .cqWaitPoll => true
  | .pollTmo => true
  | .cqResume .. => true
  | .cqFlush .. => true
  | .esPush .. => true
  | .esPop .. => true
  | .mark .. => true
  | .rewind .. => true
  | .esFlush .. => true
  | .esEnable .. => true
  | .evrRecord .. => true
  | .evrWrite .. => true
  | .evrScan => true
  | .rdSeq .. => true
  | .opsecTick => true
  | .mbDone .. => true
  | .digestVerified => true
  | .laneUp .. => true
  | .suspendEnd => true

end Sys2Proof
end

