-- ==== Sys2Proof/Safety.lean ====
section
/-! DEFINITION. The terms that statements about the block use: when an access reaches its register, when a page takes work,
what a run leaves alone, and the invariants of a run. -/
namespace Sys2Proof.Machine

/-! ### When an access reaches its effect -/

/-- A write reaches the register's own effect: the page is there and admits it, is not in reset, nor asleep for its
block-specific registers, no `LOCK` key is armed that the write would cancel, and no rule ignores it
(R2, R23, R33, R37, R41, R46). -/
def writeOpen (s : State) (ini : Ini) (p : Page) (off : Nat) : Bool :=
  !absentPage p && pageAdmits ini p && writeAdmitted ini p off && !inReset s p && (!asleep s p || decide (off < 0x40))
    && (off == 0x020 || keyHolder s p == 0) && (writeIgnored ini p off).isNone

/-- A read reaches the page (R2, R23, R41). -/
def readOpen (s : State) (ini : Ini) (p : Page) : Bool := !absentPage p && pageAdmits ini p && !inReset s p

/-- A write that requests work reaches a page that is enabled and neither asked to quiesce nor quiesced (R35, R631). -/
def workOpen (s : State) (ini : Ini) (p : Page) (off : Nat) : Bool :=
  writeOpen s ini p off && enabled s p && !quiescing s p

/-! ### The security core's mailbox -/

/-- The request that a write of `MB_GO` makes of an initiator's port (R519, R521). -/
def mbReq (s : State) (ini : Ini) : SecReq :=
  let c := regI s .sec 0x080 ini.id
  { ini := ini.id.val, op := fld c 31 24, slot := fld c 21 16, slot2 := fld c 13 8, flags := fld c 7 0, ptr := (regI s .sec 0x084 ini.id).toNat
    len := fld (regI s .sec 0x088 ini.id) 16 0, args := (List.range 16).map fun k => regI s .sec (0x0C0 + 4 * k) ini.id }

/-- The port is BUSY with its results zeroed: the state in which the security core takes a request that finds it free (R521). -/
def mbTaken (s : State) (ini : Ini) : State :=
  forEach (fun k t => setRegI .sec (0x100 + 4 * k) ini.id 0 t) (List.range 16) (setRegI .sec 0x090 ini.id 1 (answer .ok s))

/-- A served request keeps what it would leave undone (R504, R513). -/
def mbServed (r : SecReq) (s t : State) : State :=
  onSec (fun c => { c with run := c.run.map fun x => { x with undo :=
    { slot := some (r.slot, keySlotOf s r.slot, spGet (fun _ => {}) s.sec.copyA r.slot, spGet (fun _ => {}) s.sec.copyB r.slot)
      shadows := s.sec.shadows
      ma := s.sec.ma
      keys := s.cryp.keys } } }) t

/-- A mailbox port that takes a request with an operation at once: `MB_CMD` holds it, the page takes work, the port and the
security core are free (R521). -/
def mbOpen (s : State) (ini : Ini) (op : Nat) : Bool :=
  fld (regI s .sec 0x080 ini.id) 31 24 == op && workOpen s ini .sec 0x08C && !secBusyOf s ini.id && s.sec.run.isNone && s.sec.queue.isEmpty

/-! ### What a run leaves alone -/

/-- Every byte of memory reads as before. -/
def SameMem (s t : State) : Prop := ∀ a, memByte t a = memByte s a

/-- Every register of another page, each initiator's own too, every byte of memory, every time base and the queue are as
before. -/
def OnlyPage (p : Page) (s t : State) : Prop :=
  (∀ q off, off < 0x1000 → q ≠ p → reg t q off = reg s q off ∧ ∀ i, regI t q off i = regI s q off i) ∧
    SameMem s t ∧ t.tb = s.tb ∧ t.pending = s.pending

/-- The page that a command of the small pages belongs to: such a command touches the registers of no other page. -/
def ownPage : Instr → Option Page
  | .irqStatClear _ p _ => some p
  | .lockKey _ p => some p
  | .lockMask _ p _ => some p
  | .swiSet .. | .swiClr .. | .irqClaim .. | .irqDone .. => some .irqr
  | .coreRel .. => some .sys
  | .nandRead .. | .nandProgram .. | .nandErase .. => some .memc
  | .arm .. | .fire .. | .armLapsed | .pulseDone .. | .holdOffEnd .. => some .cont
  | .gpSet .. | .gpClr .. | .gpTgl .. => some .gpio
  | .rawTxWrite .. | .rawRxByte .. | .rawRxPop .. | .rawRxSilence .. => some .ser485
  | .chGo .. | .clearHalt .. => some .dma
  | .esPush .. | .esPop .. | .mark .. | .rewind .. | .esFlush .. | .esEnable .. => some .evq
  | _ => none

/-- The rows that can move a time base: the time bases' own, block resets, resets of the module, and what writes registers on
behalf of others (R69-R76, R541, R559, R571). -/
def mayMoveTime : Instr → Bool
  | .incCommit .. | .slewStart .. | .slewEnd .. | .slewExpire .. | .stepAbsolute .. | .stepOffset .. | .stepArm .. => true
  | .blkRstErrors .. | .blkRstDatapath .. | .blkRstFull .. | .badReset .. | .blockResetDone .. => true
  | .resetNAssert | .corePor .. | .coreResetRelease .. | .tcxoLoss | .watchdog .. | .swRst .. | .pwrOnRelease | .backupPor => true
  | .regWrite .. | .memAccess .. | .descComplete .. | .dmaHalt .. | .cqHead .. | .cqWaitPoll => true
  | _ => false

/-! ### Invariants -/

/-- A time base shows a legal time and steps by a legal increment: 48 bits of seconds, nanoseconds below 10^9, a 32-bit
fraction, and an increment within 500 ppm of 4 ns, with the slew offset too while a slew runs (R70, R72, R74, R76). -/
def TimeBase.legal (b : TimeBase) : Bool :=
  decide (b.sec < 2 ^ 48) && decide (b.ns < 1000000000) && decide (b.frac < 2 ^ 32) && incInRange (b.inc : Int)
    && (b.slewLeft == 0 || incInRange ((b.inc : Int) + b.slewOff))

/-- A time base's time in units of 2^-32 ns since its zero (R70). -/
def TimeBase.units (b : TimeBase) : Nat := tbNs b * 2 ^ 32 + b.frac

/-- All four time bases are legal. -/
def timeLegal (s : State) : Bool := s.tb.t0.legal && s.tb.t1.legal && s.tb.t2.legal && s.tb.t3.legal

end Sys2Proof.Machine
end

