-- ==== Sys2Proof/Certificates/Slice0/Obligations.lean ====
section
/-! DEFINITION. The statements for the provers. -/
open Sys2Proof Sys2Proof.Machine

/-- The command interface of the block: a step of a state whose queue has the command in front is `exec` of that command on
the state with the rest of the queue (the queue is the model's own, log 33). -/
def Obligations.StepRunsTheCommandInFront : Prop :=
  ∀ (c : Instr) (s : State), step { s with pending := c :: s.pending } = exec c s

/-- What the commands of `BLK_CTRL` do on every page (R28, R29, R35-R37, R631): the bit written, the status bits a release
clears, and, besides these, the page's own hook for the event alone. -/
def Obligations.BlockControlCommandsComplete : Prop :=
  ∀ (s : State) (ini : Ini) (p : Page), writeOpen s ini p 0x004 = true → locked s p 31 = false →
    (enabled s p = false → quiescing s p = false → asleep s p = false →
      exec (.blkEnable ini p) s = .next (settle s (pageEnable p (setReg p 0x004 (setBit (reg s p 0x004) 0 true &&& 7) (answer .ok s))))) ∧
    (enabled s p = true → quiescing s p = false → asleep s p = false →
      exec (.blkDisable ini p) s = .next (settle s (pageDisable p (setReg p 0x004 (setBit (reg s p 0x004) 0 false &&& 7) (answer .ok s))))) ∧
    (quiescing s p = false → asleep s p = false →
      exec (.quiesceReq ini p) s = .next (settle s (pageQuiesce p (setReg p 0x004 (setBit (reg s p 0x004) 2 true &&& 7) (answer .ok s))))) ∧
    (regB s p 0x004 2 = true → regB s p 0x004 1 = false → asleep s p = false →
      exec (.quiesceRelease ini p) s = .next (settle s (pageRelease p (setRegB p 0x008 1 false
        (setReg p 0x004 (setBit (reg s p 0x004) 2 false &&& 7) (answer .ok s)))))) ∧
    (quiescing s p = false → asleep s p = false →
      exec (.sleepReq ini p) s = .next (settle s (pageQuiesce p (setReg p 0x004 (setBit (reg s p 0x004) 1 true &&& 7) (answer .ok s))))) ∧
    (regB s p 0x004 1 = true → regB s p 0x004 2 = false → asleep s p = true →
      exec (.sleepRelease ini p) s = .next (settle s (pageRelease p (setRegB p 0x008 1 false (pageAwake p (setRegB p 0x008 4 false
        (setReg p 0x004 (setBit (reg s p 0x004) 1 false &&& 7) (answer .ok s)))))))) ∧
    (mayQuiesce s p = true → regB s p 0x004 1 = false →
      exec (.quiesced p) s = .next (settle s (raiseIrq p 30 (setRegB p 0x008 1 true (pageQuiesced p s)))))

/-- What the commands of `IRQ_STAT`, `LOCK` and `BLK_RST` do on every page (R31, R33, R39-R42). -/
def Obligations.HeaderStatusCommandsComplete : Prop :=
  ∀ (s : State) (ini : Ini) (p : Page) (v : Word),
    (writeOpen s ini p 0x014 = true → bit v 31 = false →
      exec (.irqStatClear ini p v) s = .next (setReg p 0x014 (reg s p 0x014 &&& ~~~v) (answer .ok s))) ∧
    (writeOpen s ini p 0x014 = true → bit v 31 = true →
      exec (.irqStatClear ini p v) s = .next (setRegB p 0x00C 31 false (setRegB p 0x008 3 false (setReg p 0x01C 0 (setReg p 0x018 0
        (setReg p 0x014 (reg s p 0x014 &&& ~~~v) (answer .ok s))))))) ∧
    (writeOpen s ini p 0x020 = true → keyHolder s p = 0 →
      exec (.lockKey ini p) s = .next { answer .ok s with lockKey := spPut (fun _ => 0) (pageBase p) (ini.id.val + 1) s.lockKey }) ∧
    (writeOpen s ini p 0x020 = true → keyHolder s p = ini.id.val + 1 → v ≠ 0x4C4B →
      exec (.lockMask ini p v) s = .next (setReg p 0x020 (reg s p 0x020 ||| v)
        { answer .ok s with lockKey := spPut (fun _ => 0) (pageBase p) 0 s.lockKey })) ∧
    (writeOpen s ini p 0x024 = true → s.rst.active = false →
      exec (.blkRstErrors ini p) s = .next (setReg p 0x014 0 (setRegB p 0x00C 31 false (setRegB p 0x008 3 false (setReg p 0x01C 0
        (setReg p 0x018 0 (answer .ok s)))))) ∧
      (refusesReset p = false →
        (∃ t, exec (.blkRstDatapath ini p) s = .next t ∧ inReset t p = true ∧ t.pending = s.pending) ∧
        (∃ t, exec (.blkRstFull ini p) s = .next t ∧ inReset t p = true ∧ t.pending = s.pending)) ∧
      (∀ reach : Fin 16, reach ≠ 1 ∧ reach ≠ 2 ∧ reach ≠ 3 ∨ reach ≠ 1 ∧ refusesReset p = true →
        exec (.badReset ini p reach) s = .next (recErr p errBadReset (answer .ok s)))) ∧
    (inReset s p = true → s.stalled = [] →
      exec (.blockResetDone p) s = .next (settle s (pageReady p { s with resetting := spPut (fun _ => false) (pageBase p) false s.resetting })))

/-- IRQR, SYS and GPIO commands that only change registers: each answers this next state, so everything not named in it is as
before (R45, R47, R49, R58). -/
def Obligations.InterruptReleaseAndPinCommandsComplete : Prop :=
  ∀ (s : State) (ini : Ini) (v : Word),
    (writeOpen s ini .irqr 0x040 = true → exec (.swiSet ini v) s = .next { answer .ok s with swi := s.swi ||| fld v 7 0 }) ∧
    (writeOpen s ini .irqr 0x044 = true → exec (.swiClr ini v) s = .next { answer .ok s with swi := s.swi &&& (255 - fld v 7 0) }) ∧
    (∀ t : Fin 9, readOpen s ini .irqr = true → bestSource s t.val = none →
      exec (.irqClaim ini t) s = .next (answer (.data 0x1FF) s)) ∧
    (∀ (t : Fin 9) (n : Nat), readOpen s ini .irqr = true → bestSource s t.val = some n →
      exec (.irqClaim ini t) s = .next { answer (.data (word n)) s with claims := spPut (fun _ => 0) n (t.val + 1) s.claims }) ∧
    (∀ t : Fin 9, writeOpen s ini .irqr (0x604 + 0x10 * t.val) = true → v.toNat < 256 →
      spGet (fun _ => 0) s.claims v.toNat = t.val + 1 →
      exec (.irqDone ini t v) s = .next { answer .ok s with claims := spPut (fun _ => 0) v.toNat 0 s.claims }) ∧
    (writeOpen s ini .sys 0x040 = true → exec (.coreRel ini v) s = .next
      (setReg .sys 0x044 (reg s .sys 0x044 ||| (v &&& 0x1FF)) (setReg .sys 0x040 (reg s .sys 0x040 ||| (v &&& 0x1FF)) (answer .ok s)))) ∧
    (writeOpen s ini .gpio 0x048 = true → exec (.gpSet ini v) s = .next (setReg .gpio 0x044
      ((reg s .gpio 0x044 &&& ~~~(gpWritable s)) ||| ((reg s .gpio 0x044 ||| v) &&& gpWritable s &&& 0xFFFF)) (answer .ok s))) ∧
    (writeOpen s ini .gpio 0x04C = true → exec (.gpClr ini v) s = .next (setReg .gpio 0x044
      ((reg s .gpio 0x044 &&& ~~~(gpWritable s)) ||| (reg s .gpio 0x044 &&& ~~~v &&& gpWritable s &&& 0xFFFF)) (answer .ok s))) ∧
    (writeOpen s ini .gpio 0x050 = true → exec (.gpTgl ini v) s = .next (setReg .gpio 0x044
      ((reg s .gpio 0x044 &&& ~~~(gpWritable s)) ||| ((reg s .gpio 0x044 ^^^ v) &&& gpWritable s &&& 0xFFFF)) (answer .ok s)))

/-- The NAND port, the contactor drivers and the pin inputs (R51, R52, R55, R56, R59). -/
def Obligations.NandContactorAndEdgeCommandsComplete : Prop :=
  ∀ (s : State) (ini : Ini) (v : Word),
    (∀ kind : Fin 4, kind ≠ 0 → workOpen s ini .memc 0x088 = true → nandBusy s ini.id = false →
      (regI s .memc 0x080 ini.id).toNat < 1048576 →
      (kind = 3 ∨ (regI s .memc 0x084 ini.id).toNat % 64 = 0 ∧ inRam (regI s .memc 0x084 ini.id).toNat 4096 = true) →
      (kind = 1 ∨ ini.id.val ∈ nandWriters (regI s .memc 0x080 ini.id).toNat) →
      exec (match kind with | 1 => .nandRead ini | 2 => .nandProgram ini | _ => .nandErase ini) s =
        .next (setRegI .memc 0x08C ini.id 1 { answer .ok s with nand := { s.nand with ops := s.nand.ops ++
          [{ ini := ini.id.val, kind := kind.val, page := (regI s .memc 0x080 ini.id).toNat, buf := (regI s .memc 0x084 ini.id).toNat }] } })) ∧
    (∀ (i : Fin 10) (r : NandResult) (o : NandOp) (rest : List NandOp), s.nand.ops = o :: rest → o.ini = i.val →
      ∃ t, exec (.nandDone i r) s = .next t ∧ t.nand.ops = rest ∧ bit (regI t .memc 0x08C i) 0 = false ∧
        bit (regI t .memc 0x08C i) 1 = true) ∧
    (writeOpen s ini .cont 0x044 = true → fld v 31 24 = 0x41 → quiescing s .cont = false → contReady s (fld v 2 0) = true →
      exec (.arm ini v) s = .next { answer .ok s with cont := { s.cont with armed := some (bit v 4, fld v 2 0) } }) ∧
    (writeOpen s ini .cont 0x048 = true → fld v 31 24 = 0x46 → quiescing s .cont = false → contReady s (fld v 2 0) = true →
      s.cont.armed = some (bit v 4, fld v 2 0) →
      ∃ t, exec (.fire ini v) s = .next t ∧ t.cont.armed = none ∧
        contPulse t (fld v 2 0) = some (bit v 4, regF s .cont 0x040 15 8) ∧
        t.sent = s.sent ++ [.coil (fld v 2 0) (bit v 4) (regF s .cont 0x040 15 8)] ∧ t.mem = s.mem) ∧
    (s.cont.armed.isSome = true →
      exec .armLapsed s = .next (raiseIrq .cont 0 { s with cont := { s.cont with armed := none } })) ∧
    (∀ c : Fin 8, (contPulse s c.val).isSome = true →
      ∃ t, exec (.pulseDone c) s = .next t ∧ contPulse t c.val = none ∧ contHold t c.val = true ∧ regB t .cont 0x014 1 = true ∧
        t.mem = s.mem) ∧
    (∀ c : Fin 8, ∃ t, exec (.holdOffEnd c) s = .next t ∧ contHold t c.val = false ∧ t.regs = s.regs ∧ t.mem = s.mem) ∧
    (∀ (n : Fin 16) (rising : Bool),
      (sees s .gpio = true → ∃ t, exec (.gpioEdge n rising) s = .next t ∧ regB t .gpio 0x054 n.val = rising ∧ t.mem = s.mem) ∧
      (sees s .gpio = false → ∃ t, exec (.gpioEdge n rising) s = .next t ∧ t.regs = s.regs ∧ t.mem = s.mem))

/-- The commands of SER485 (R61-R64). -/
def Obligations.SerialPortCommandsComplete : Prop :=
  ∀ (s : State) (ini : Ini) (q : Fin 2),
    (let r := reg s .ser485 (0x108 + 0x200 * q.val)
     let qty := regF s .ser485 (0x10C + 0x200 * q.val) 15 0
     let f := mbRequest s q.val (fld r 31 24) (fld r 23 16) (fld r 15 0) qty
     workOpen s ini .ser485 (0x110 + 0x200 * q.val) = true → mbBusy s q.val = false → spModbus s q.val = true →
      spEn s q.val = true → inControl s = true → mbValid (fld r 31 24) (fld r 23 16) qty = true →
      exec (.mbGo ini q 1) s = .next (send (.modbus q.val f) (setReg .ser485 (0x114 + 0x200 * q.val) 1
        (putSer q.val { serPort s q.val with txn := some { attempt := 0, fc := fld r 31 24, slave := fld r 23 16, addr := fld r 15 0, qty := qty, frame := f } }
          (answer .ok s))))) ∧
    (∀ (x : MbTxn) (body : List Byte), (serPort s q.val).txn = some x → x.slave ≠ 0 → 2 ≤ body.length → mbMatches x body = true →
      ∃ t, exec (.mbResponse q (rtuFrame body) true) s = .next t ∧ mbBusy t q.val = false ∧
        reg t .ser485 (0x114 + 0x200 * q.val) = word (b01 (x.attempt != 0) * 256 + 2) ∧ t.mem = s.mem) ∧
    (∀ (x : MbTxn) (frame : List Byte), (serPort s q.val).txn = some x → x.slave ≠ 0 → x.attempt = 0 → inControl s = true →
      exec (.mbResponse q frame false) s = .next (send (.modbus q.val x.frame)
        (putSer q.val { serPort s q.val with txn := some { x with attempt := 1 } } s))) ∧
    (∀ x : MbTxn, (serPort s q.val).txn = some x → x.slave ≠ 0 → x.attempt = 0 → inControl s = true →
      exec (.mbRespTimeout q) s = .next (send (.modbus q.val x.frame)
        (putSer q.val { serPort s q.val with txn := some { x with attempt := 1 } } s))) ∧
    (∀ x : MbTxn, (serPort s q.val).txn = some x → x.slave ≠ 0 → x.attempt ≠ 0 →
      ∃ t, exec (.mbRespTimeout q) s = .next t ∧ mbBusy t q.val = false ∧
        reg t .ser485 (0x114 + 0x200 * q.val) = 0x10000002 ∧ t.mem = s.mem) ∧
    (∀ x : MbTxn, (serPort s q.val).txn = some x → x.slave = 0 →
      ∃ t, exec (.mbTurnDone q) s = .next t ∧ mbBusy t q.val = false ∧ reg t .ser485 (0x114 + 0x200 * q.val) = 2 ∧ t.mem = s.mem) ∧
    (∀ v : Word, workOpen s ini .ser485 (0x120 + 0x200 * q.val) = true → spModbus s q.val = false → spEn s q.val = true →
      inControl s = true → (serPort s q.val).tx.length < 256 →
      exec (.rawTxWrite ini q v) s = .next (putSer q.val { serPort s q.val with tx := (serPort s q.val).tx ++ [BitVec.ofNat 8 v.toNat] }
        (answer .ok s))) ∧
    (∀ b : Byte, spModbus s q.val = false → spEn s q.val = true → working s .ser485 = true → (serPort s q.val).rx.length < 256 →
      exec (.rawRxByte q b) s = .next (putSer q.val { serPort s q.val with rx := (serPort s q.val).rx ++ [b], rxSince := true } s)) ∧
    (∀ (b : Byte) (r : List Byte), readOpen s ini .ser485 = true → (serPort s q.val).rx = b :: r →
      exec (.rawRxPop ini q) s = .next (answer (.data (word b.toNat)) (putSer q.val { serPort s q.val with rx := r } s))) ∧
    (readOpen s ini .ser485 = true → (serPort s q.val).rx = [] → exec (.rawRxPop ini q) s = .next (answer (.data 0x100) s)) ∧
    ((serPort s q.val).rxSince = true →
      exec (.rawRxSilence q) s = .next (raiseIrq .ser485 (2 + q.val) (putSer q.val { serPort s q.val with rxSince := false } s)))

/-- The commands of the endpoints of USBD (R66-R68). -/
def Obligations.UsbEndpointCommandsComplete : Prop :=
  ∀ (s : State) (ini : Ini) (e : Fin 6),
    (let buf := regN s .usbd (0x080 + 0x10 * e.val)
     let len := regN s .usbd (0x084 + 0x10 * e.val)
     workOpen s ini .usbd (0x088 + 0x10 * e.val) = true → epArmed s e.val = false → buf % 64 = 0 → inRam buf len = true →
      len ≤ 65536 →
      ∃ t, exec (.epArm ini e 1) s = .next t ∧ reg t .usbd (0x08C + 0x10 * e.val) = 0x10000000 ∧ epArmed t e.val = true ∧
        t.mem = s.mem) ∧
    (workOpen s ini .usbd (0x088 + 0x10 * e.val) = true →
      ∃ t, exec (.epStall ini e 2) s = .next t ∧ spGet (fun _ => false) t.usb.stall e.val = true ∧
        regB t .usbd (0x08C + 0x10 * e.val) 30 = true ∧ t.mem = s.mem) ∧
    (∀ (data : List Byte) (short : Bool), epArmed s e.val = true → spGet (fun _ => false) s.usb.stall e.val = false → e.val % 2 = 0 →
      ∃ t, exec (.epDone e data short) s = .next t ∧ t.mem = s.mem ∧
        reg t .usbd (0x08C + 0x10 * e.val) = word (2 ^ 31 + regN s .usbd (0x084 + 0x10 * e.val)) ∧
        t.sent = s.sent ++ [.usbIn e.val (memRead s (regN s .usbd (0x080 + 0x10 * e.val)) (regN s .usbd (0x084 + 0x10 * e.val)))
          (decide (regN s .usbd (0x084 + 0x10 * e.val) % epPacket s e.val = 0) && !(spGet (fun _ => false) s.usb.noZlp e.val))]) ∧
    (∀ (data : List Byte) (short : Bool), epArmed s e.val = true → spGet (fun _ => false) s.usb.stall e.val = false → e.val % 2 = 1 →
      data.length = regN s .usbd (0x084 + 0x10 * e.val) →
      ∃ t, exec (.epDone e data short) s = .next t ∧ t.sent = s.sent ∧
        reg t .usbd (0x08C + 0x10 * e.val) = word (2 ^ 31 + data.length) ∧
        (∀ k, (hk : k < data.length) → memByte t (regN s .usbd (0x080 + 0x10 * e.val) + k) = data[k]) ∧
        (∀ a, a < regN s .usbd (0x080 + 0x10 * e.val) ∨ regN s .usbd (0x080 + 0x10 * e.val) + data.length ≤ a →
          memByte t a = memByte s a)) ∧
    (∀ bytes : List Byte, bytes.length = 8 → working s .usbd = true → regB s .usbd 0x040 0 = true →
      ∃ t, exec (.setup bytes) s = .next t ∧ reg t .usbd 0x050 = word (leNat (bytes.take 4)) ∧
        reg t .usbd 0x054 = word (leNat (bytes.drop 4)) ∧ regB t .usbd 0x014 6 = true ∧ t.mem = s.mem)

/-- The bus events of USBD (R66-R68, R37). -/
def Obligations.UsbBusEventsComplete : Prop :=
  ∀ s : State,
    (∀ high : Bool, working s .usbd = true → regB s .usbd 0x040 0 = true →
      ∃ t, exec (.busReset high) s = .next t ∧ reg t .usbd 0x048 = 0 ∧ regB t .usbd 0x014 7 = true ∧
        (∀ e, e < 6 → epArmed t e = false) ∧ t.usb.stall = s.usb.stall ∧ t.mem = s.mem) ∧
    (working s .usbd = true → regB s .usbd 0x040 0 = true →
      exec .suspend s = .next (raiseIrq .usbd 8 (setRegB .usbd 0x044 4 true s))) ∧
    (asleep s .usbd = false → exec .suspendEnd s = .next (setRegB .usbd 0x044 4 false s)) ∧
    (∀ present : Bool,
      (let s1 := { s with usb := { s.usb with vbus := present } }
       (sees s .usbd = true → regB s .usbd 0x044 3 ≠ present →
        exec (.vbusChg present) s = .next (raiseIrq .usbd 9 (setRegB .usbd 0x044 3 present s1))) ∧
       (sees s .usbd = false → exec (.vbusChg present) s = .next s1)))

/-- The commands of TB0-TB3 but for the steps (R72, R74-R76, R78). -/
def Obligations.TimeBaseCommandsComplete : Prop :=
  ∀ (s : State) (ini : Ini) (n : Fin 4) (v : Word),
    (let b := tbOf s.tb n
     let inc := regF s (.tb n) 0x060 3 0 * 2 ^ 32 + v.toNat
     writeOpen s ini (.tb n) 0x064 = true → follow s n = 0 → incInRange (Int.ofNat inc) = true →
      incInRange (Int.ofNat inc + (if 0 < b.slewLeft then b.slewOff else 0)) = true →
      exec (.incCommit ini n v) s = .next (putTb n { b with inc := inc } (setReg (.tb n) 0x064 v (answer .ok s)))) ∧
    (writeOpen s ini (.tb n) 0x06C = true → follow s n = 0 → v ≠ 0 →
      incInRange (Int.ofNat (tbOf s.tb n).inc + signed 32 (regN s (.tb n) 0x068)) = true →
      exec (.slewStart ini n v) s = .next (putTb n { tbOf s.tb n with slewOff := signed 32 (regN s (.tb n) 0x068), slewLeft := v.toNat }
        (answer .ok s))) ∧
    (writeOpen s ini (.tb n) 0x06C = true → follow s n = 0 →
      exec (.slewEnd ini n) s = .next (putTb n { tbOf s.tb n with slewLeft := 0 } (answer .ok s))) ∧
    (enabled s (.tb n) = true → exec (.slewExpire n) s = .next (putTb n { tbOf s.tb n with slewLeft := 0 } s)) ∧
    (enabled s (.tb n) = false → exec (.slewExpire n) s = .next (settleTb s s)) ∧
    (writeOpen s ini (.tb n) 0x080 = true →
      exec (.stepArm ini n 0x53544550) s = .next (putTb n { tbOf s.tb n with stepAvail := true } (answer .ok s))) ∧
    (readOpen s ini (.tb n) = true →
      exec (.nowNsRead ini n) s = .next (answer (.data (word (tbOf s.tb n).ns))
        (setRegI (.tb n) 0x050 ini.id (word ((tbOf s.tb n).sec / 2 ^ 32 % 2 ^ 16))
          (setRegI (.tb n) 0x04C ini.id (word ((tbOf s.tb n).sec % 2 ^ 32)) s))))

/-- Steps of a time base (R72, R75): the new time, the used step, and the bases that do not move. -/
def Obligations.StepMovesOneTimeBaseOnce : Prop :=
  ∀ (s : State) (ini : Ini) (n : Fin 4) (offset : Bool), writeOpen s ini (.tb n) 0x070 = true → (tbOf s.tb n).stepAvail = true →
    (n = 1 → tbNs (tbOf s.tb n) ≤ (stepTarget s n offset).1 * 1000000000 + (stepTarget s n offset).2) →
    ∃ t, exec (if offset then .stepOffset ini n else .stepAbsolute ini n) s = .next t ∧
      t.tb = setTb n
        { tbOf s.tb n with sec := (stepTarget s n offset).1, ns := (stepTarget s n offset).2, stepAvail := false, stepped := true }
        s.tb ∧
      (∀ m, m ≠ n → tbOf t.tb m = tbOf s.tb m) ∧ (stepTarget s n offset).2 < 1000000000

/-- The commands of TTRIG (R81-R85). -/
def Obligations.TriggerAndCaptureCommandsComplete : Prop :=
  ∀ (s : State) (ini : Ini),
    (∀ (u : Fin 16) (v : Word), writeOpen s ini .ttrig (0x100 + 0x20 * u.val) = true → locked s .ttrig u.val = false →
      trgReserved (fld v 15 8) = false → bit v 0 = true → trgEn s u.val = false →
      trgTime (tbOf s.tb (Fin.ofNat 4 (fld v 5 4))) ≤ trgInstant s u.val 0 →
      let armed := putTrg u.val { since := trgTime (tbOf s.tb (Fin.ofNat 4 (fld v 5 4))) }
        (setReg .ttrig (0x100 + 0x20 * u.val) (v &&& 0xFF31) (answer .ok s))
      exec (.trgArm ini u v) s = .next (settle s (if 0x80 ≤ fld v 15 8 ∧ fld v 15 8 ≤ 0x87
        then swapKnown (fld v 15 8 - 0x80) (unitSwap armed u.val) armed else armed))) ∧
    (∀ u : Fin 16, trgRuns s = true → trgDue s u.val = true → (trgOf s u.val).crossed = false → trgCollides s u.val = false →
      reg s .ttrig (0x110 + 0x20 * u.val) = 0 →
      exec (.triggerFire u) s = .next (settle s (trgAct (trgTarget s u.val) (unitSwap s u.val).1 (trgInstant s u.val (trgOf s u.val).next) (trgOf s u.val).since
        (putTrg u.val { trgOf s u.val with fired := (trgOf s u.val).fired + 1, next := (trgOf s u.val).next + 1, at1 := s.tb.cycles + 1, crossed := false }
          (setRegB .ttrig (0x114 + 0x20 * u.val) 0 true s))))) ∧
    (∀ (src : Fin 35) (rising : Bool), enabled s .ttrig = true → inReset s .ttrig = false →
      ∃ t, exec (.captureEdge src rising) s = .next t ∧ t.mem = s.mem ∧
        ∀ c, c < 8 → capSelects s c src.val rising = true → (capOf s c).stamps.length < 4 →
          (capOf t c).stamps = (capOf s c).stamps ++
            [((tbOf s.tb (Fin.ofNat 4 (regF s .ttrig (0x400 + c * 0x20) 3 2))).sec,
              (tbOf s.tb (Fin.ofNat 4 (regF s .ttrig (0x400 + c * 0x20) 3 2))).ns)]) ∧
    (∀ (c : Fin 8) (sec ns : Nat) (r : List (Nat × Nat)), readOpen s ini .ttrig = true → (capOf s c.val).stamps = (sec, ns) :: r →
      exec (.capPop ini c) s = .next (answer (.data (word ns)) (setReg .ttrig (0x40C + c.val * 0x20) (word (sec / 2 ^ 32 % 2 ^ 16))
        (setReg .ttrig (0x408 + c.val * 0x20) (word (sec % 2 ^ 32)) (putCap c.val { stamps := r } s))))) ∧
    (∀ c : Fin 8, readOpen s ini .ttrig = true → (capOf s c.val).stamps = [] →
      exec (.capPop ini c) s = .next (answer (.data 0) s))

/-- PT_BASE, RESTORE and its end (R89, R104, R118).  RESTORED keeps its value at the start of a RESTORE (the model's choice, log
160), and the copy is made at the done row (log 53). -/
def Obligations.PointBaseAndRestoreCommandsComplete : Prop :=
  ∀ (s : State) (ini : Ini),
    (∀ v : Word, writeOpen s ini .ptab 0x040 = true → enabled s .ptab = false → locked s .ptab 0 = false →
      0x80000000 ≤ v.toNat / 4096 * 4096 → v.toNat / 4096 * 4096 ≤ 0xBFD00000 →
      ∃ t, exec (.ptBaseWrite ini v) s = .next t ∧ reg t .ptab 0x040 = v &&& 0xFFFFF000 ∧ t.ptab.cache = [] ∧
        t.mem = (ptWriteBackAll (answer .ok s)).mem) ∧
    (writeOpen s ini .ptab 0x054 = true → restoring s = false →
      exec (.restore ini) s = .next (setRegB .ptab 0x048 0 true (answer .ok s))) ∧
    (restoring s = true → exec .restoreDone s = .next (settle s (lineSafeGo (ptResume (restoreDone s))))) ∧
    restoring (ptRestore s) = false ∧ regB (ptRestore s) .ptab 0x048 1 = true ∧ regB (ptRestore s) .ptab 0x014 2 = true

/-- The flushes, the pins and the checkpoint of PTAB (R100, R102, R104, R115, R116, R119).  A flush reaches its entries when it is
accepted (the model's reading, log 53). -/
def Obligations.PointCacheCommandsComplete : Prop :=
  ∀ (s : State) (ini : Ini) (i : Fin 16384),
    (writeOpen s ini .ptab 0x054 = true → restoring s = false →
      (exec (.flushAll ini) s = .next (settle s (setRegB .ptab 0x048 2 true (ptWriteBackAll (answer .ok s))))) ∧
      (i.val < 12288 → exec (.flush ini i) s = .next (settle s (setRegB .ptab 0x048 2 true (ptWriteBack i.val (answer .ok s))))) ∧
      (i.val < 12288 → ptPinned s i.val = false → ptPinsInSet s i.val < 4 →
        ∃ t, exec (.pin ini i) s = .next t ∧ ptPinned t i.val = true) ∧
      (i.val < 12288 → ∃ t, exec (.unpin ini i) s = .next t ∧ ptPinned t i.val = false ∧ t.mem = s.mem ∧ t.regs = s.regs) ∧
      (exec (.ckptAll ini) s = .next (setRegB .ptab 0x048 3 true (answer .ok s)))) ∧
    (regB s .ptab 0x048 2 = true → exec .flushDone s = .next (raiseIrq .ptab 3 (setRegB .ptab 0x048 2 false s))) ∧
    (regB s .ptab 0x048 3 = true → ∃ t, exec .ckptAllDone s = .next t ∧ regB t .ptab 0x048 3 = false ∧
      t.mem = (forEach ckptCopy (List.range 12288) s).mem) ∧
    (exec .wbSweep s = .next (settle s (forEach ptWriteBack (ptCached s) s))) ∧
    (∀ (j : Nat × List Word) (rest : List (Nat × List Word)), s.ptab.ckptQ = j :: rest → s.ptab.wait = [] →
      ∃ t, exec (.ckptCopyDone .ok) s = .next t ∧ t.ptab.ckptQ = rest ∧
        t.mem = (memWriteWords (0x20140000 + 128 * j.1) j.2 s).mem)

/-- The ports of PTAB and the engines' lookups (R99, R107, R111, R113); a changed half is mirrored (R469). -/
def Obligations.PointPortCommandsComplete : Prop :=
  ∀ (s : State) (ini : Ini) (v : Word),
    (let i := (regI s .ptab 0x060 ini.id).toNat
     let c := wpMerged s ini.id i
     writeOpen s ini .ptab 0x068 = true → restoring s = false → bit (regI s .ptab 0x06C ini.id) 0 = false →
      regB s .pwr 0x044 31 = false → i < 12288 → cfgValid c = true → (cfgEn (ptHalf s i) && cfgIdentityDiffers (ptHalf s i) c) = false →
      s.ptab.ckptQ.length < 16 →
      exec (.wpCmd ini) s = .next (settle s (cfgTell i (pointChanged i (ptBefore s i)
        (wpDone ini.id (ckptQueue (ini.id.val + 1) i c (ptCheck i (ptGen i (ptPutHalf i c (answer .ok s)))))))))) ∧
    (writeOpen s ini .ptab 0x058 = true → restoring s = false → fld v 13 0 < 12288 →
      exec (.inval ini v) s = .next (settle s (cfgTell (fld v 13 0) (pointChanged (fld v 13 0) (ptBefore s (fld v 13 0))
        (ckptQueue 0 (fld v 13 0) (memWords s (ptAddr s (fld v 13 0)) 32) (ptGen (fld v 13 0) (ptCheck (fld v 13 0) (match ptLine s (fld v 13 0) with
          | some l => putLine (fld v 13 0) (some { l with words := memWords s (ptAddr s (fld v 13 0)) 32 ++ l.words.drop 32 }) (answer .ok s)
          | none => answer .ok s)))))))) ∧
    (writeOpen s ini .ptab 0x070 = true → restoring s = false → fld v 13 0 < 12288 →
      ∃ t, exec (.rdIndex ini v) s = .next t ∧ regI t .ptab 0x074 ini.id = word (2 + 4 * b01 (ptLine s (fld v 13 0)).isSome) ∧
        regB t .ptab 0x014 1 = true) ∧
    (∀ (who : Page) (i : Nat), ptReady s = true → i < 12288 → (ptLine s i).isSome = true →
      exec (.ptLookup who i none) s = .next (answer (.bytes (bytesOfWords ((List.range 64).map (ptShown s i)))) (bumpReg .ptab 0x04C s))) ∧
    (∀ (who : Page) (i : Nat) (w : Fin 64) (x : Word), ptReady s = true → i < 12288 → (ptLine s i).isSome = true →
      ptMayWrite s who i w.val = true → exec (.ptLookup who i (some (w, x))) s = .next (settle s (stTell i (ptPoke i w.val x (bumpReg .ptab 0x04C s)))))

/-- The mode register and the events of a line port (R135, R136, R139, R144, R147-R149, R151, R152). -/
def Obligations.LinePortCommandsComplete : Prop :=
  ∀ (s : State) (ini : Ini) (n : Fin 64) (v : Word),
    (writeOpen s ini (.line n) 0x040 = true → writeTaken (.line n) 0x040 v s = true →
      exec (.elCtrlWrite ini n v) s = .next (settle s (elApply n.val (portMode s n.val) (lineRate s n.val)
        (plainWrite ini (.line n) 0x040 v (answer .ok s))))) ∧
    ((lineOf s n.val).port.lbd = true → elBit s n.val 2 = false → ∃ t, exec (.lbdWindowEnd n) s = .next t ∧ driving t n.val = true ∧
      elBit t n.val 1 = false ∧ elBit t n.val 2 = true ∧ (lineOf t n.val).port.lbd = false ∧ t.mem = s.mem) ∧
    (portMode s n.val ≠ 0 → driving s n.val = false → (lineOf s n.val).port.lbd = true → (lineOf s n.val).port.retry = false →
      ∃ t, exec (.foreignDrive n) s = .next t ∧ driving t n.val = false ∧ elBit t n.val 5 = true ∧ elBit t n.val 3 = true ∧
        elBit t n.val 2 = true ∧ (lineOf t n.val).port.lbd = false ∧ t.mem = s.mem) ∧
    (drives s n.val = true → contEn s n.val = true → (lineOf s n.val).port.retry = false →
      ∃ t, exec (.contention n) s = .next t ∧ driving t n.val = false ∧ elBit t n.val 4 = true ∧ elBit t n.val 3 = true ∧
        (lineOf t n.val).wire = none ∧ t.mem = s.mem) ∧
    (elBit s n.val 3 = true → exec (.backoffEnd n) s =
      .next (settle s (startDrive n.val (setPort n.val (fun p => { p with retry := true }) (setEl n.val 3 false s))))) ∧
    (drives s n.val = true → (lineOf s n.val).port.ocpRetry = false →
      ∃ t, exec (.drvOvercurrent n) s = .next t ∧ driving t n.val = false ∧ elBit t n.val 6 = true ∧
        (lineOf t n.val).port.ocpWait = true ∧ t.mem = s.mem) ∧
    ((lineOf s n.val).port.ocpWait = true → exec (.ocpRetryWaitEnd n) s =
      .next (settle s (startDrive n.val (setPort n.val (fun p => { p with ocpWait := false, ocpRetry := true }) s)))) ∧
    ((lineOf s n.val).port.hot = false → ∃ t, exec (.drvOvertemp n) s = .next t ∧ driving t n.val = false ∧ elBit t n.val 7 = true ∧
      (lineOf t n.val).port.hot = true ∧ t.mem = s.mem) ∧
    ((lineOf s n.val).port.hot = true → exec (.drvTempRecover n) s =
      .next (settle s (startDrive n.val (setPort n.val (fun p => { p with hot := false }) s)))) ∧
    (drives s n.val = false → exec (.undriven n) s = .next (setEl n.val 1 true (setEl n.val 2 false s))) ∧
    (∀ (highs : List Nat) (vhi vlo : Int) (rtt : Nat), portMode s n.val ≠ 0 → working s (.line n) = true →
      preambleBits highs ≠ preamble →
      ∃ t, exec (.returnPreamble n highs vhi vlo rtt) s = .next t ∧
        reg t (.line n) 0x060 = word (satInc 0xFFFFFFFF (regN s (.line n) 0x060)) ∧ reg t (.line n) 0x05C = reg s (.line n) 0x05C ∧
        (lineOf t n.val).preOk = false ∧ t.mem = s.mem) ∧
    (∀ (highs : List Nat) (vhi vlo : Int) (rtt : Nat), portMode s n.val ≠ 0 → working s (.line n) = true →
      preambleBits highs = preamble →
      ∃ t, exec (.returnPreamble n highs vhi vlo rtt) s = .next t ∧
        reg t (.line n) 0x05C = word (satInc 0xFFFFFFFF (regN s (.line n) 0x05C)) ∧ reg t (.line n) 0x060 = reg s (.line n) 0x060 ∧
        reg t (.line n) 0x064 = word (min 0xFFFFFFFF (regN s (.line n) 0x064 + badHighs highs)) ∧
        ((lineOf s n.val).back.isSome = true → reg t (.line n) 0x09C = word rtt ∧ regB t (.line n) 0x084 6 = false) ∧
        elBit t n.val 8 = elBit s n.val 8 ∧ (lineOf t n.val).preOk = true ∧ t.mem = s.mem) ∧
    (portMode s n.val = 1 → regB s (.line n) 0x040 17 = false → regB s (.line n) 0x050 31 = false → regB s (.line n) 0x058 27 = true →
      regF s (.line n) 0x058 31 28 ≤ regF s (.line n) 0x054 11 8 → (lineOf s n.val).port.peStep < regF s (.line n) 0x050 27 24 →
      regF s (.line n) 0x054 31 24 ≤ (lineOf s n.val).port.peCount → peKept s n.val = false →
      exec (.peEvaluate n) s = .next (setRegB (.line n) 0x058 27 false
        (peSet n.val ((lineOf s n.val).port.peStep + 1) (setPort n.val (fun q => { q with peCount := 0 }) s))))

/-- The commands of LSEQ up to the return phase (R162, R172, R188, R191, R192, R195, R196, R199, R203). -/
def Obligations.SequencerCommandsComplete : Prop :=
  ∀ (s : State) (ini : Ini) (n : Fin 64) (v : Word),
    (writeOpen s ini (.line n) 0x080 = true →
      (lineRun s n.val = true ∨
        (if locked s (.line n) 1 then linePixel s n.val else bit (v ||| 1) 1) = (lineRate s n.val == 2)) →
      let w := plainWrite ini (.line n) 0x080 (v ||| 1) (answer .ok s)
      exec (.runStart ini n v) s = .next (settle s (if lineRun s n.val && !lineRun w n.val then unfix n.val w else w))) ∧
    (writeOpen s ini (.line n) 0x080 = true →
      let w := plainWrite ini (.line n) 0x080 (v &&& ~~~1) (answer .ok s)
      exec (.runStop ini n v) s = .next (settle s (if lineRun s n.val && !lineRun w n.val then unfix n.val w else w))) ∧
    (∀ f, regB s (.line n) 0x080 4 = false → idleMode s = false → atCycleStart s n.val = true → lineSends s n.val = true →
      linePixel s n.val = false → pairBusy s n.val = false → liveFix s n.val = some f →
      ∃ t, exec (.cycleStart n) s = .next t ∧ t.sent.getLast? = some (.wadi n.val (f.head ++ f.slots)) ∧
        (lineOf t n.val).wire = some { f with again := (lineOf s n.val).again } ∧ (lineOf t n.val).fixed = none ∧
        (f.gives = [] → t.sent = s.sent ++ [.wadi n.val (f.head ++ f.slots)] ∧ t.mem = s.mem)) ∧
    (lineSends s n.val = true → linePixel s n.val = false → (lineOf s n.val).fixed = none →
      exec (.frameFix n) s = .next (settle s (fixFrame n.val s))) ∧
    (∀ f, lineSends s n.val = true → linePixel s n.val = false → pairBusy s n.val = false → urgWaiting s n.val = true →
      ptReady s = true → (fixUrgent n.val (urgTop s n.val) (mapLook n.val s)).1 = some f →
      exec (.lurg n) s = .next (settle s (wireSend n.val f (fixUrgent n.val (urgTop s n.val) (mapLook n.val s)).2))) ∧
    (∀ f, (lineOf s n.val).wire = some f → f.ret = true → f.ftype ≠ 4 → trailOf s n.val f = 0 →
      ∃ t, exec (.forwardPhaseEnd n) s = .next t ∧ (lineOf t n.val).wire = none ∧
        (lineOf t n.val).back = some { f with marked := firstSent s n.val f } ∧
        t.sent = s.sent ++ [.wadi n.val (frameEnd f trailTurn)] ∧ t.mem = s.mem) ∧
    (∀ (src : Fin 3) (k : Nat) (c : Cmd) (l : Nat) (ps : List Nat), offerAt s src.val k = some c →
      cmdPlaces s c.point = some (l, ps) → accepting s .lseq = true → accepting s (linePage l) = true → ptReady s = true →
      c.members = [] → inControl s = true → (src.val = 2 → nuSends s = true) →
      (let c1 := { c with src := src.val, since := tbNs s.tb.t0 / 1000 }
       let s0 := setOffers src.val (dropAt (offersOf s src.val) k) s
       (src.val < 2 → ptServed s c.point = false → exec (.handover src k) s = .next (settle s s0)) ∧
       ((src.val < 2 → ptServed s c.point = true) → c.op = 4 →
         exec (.handover src k) s = .next (settle s (putRevokes l (cmdOnly c ps) c1 s0))) ∧
       ((src.val < 2 → ptServed s c.point = true) → c.op ≠ 4 → roomFor s l (cmdOnly c ps) c1 = true →
         (let s1 := putQueued l (cmdOnly c ps) c1 s0
          exec (.handover src k) s = .next (settle s (if src.val = 0 then dimHanded c1 s1 else s1)))))) ∧
    (∀ (nupd : Bool) (k i cause l : Nat) (ps : List Nat), (revsOf s nupd)[k]? = some (i, cause) → cmdPlaces s i = some (l, ps) →
      accepting s .lseq = true → accepting s (linePage l) = true → ptReady s = true → (nupd = true → nuSends s = true) →
      (ps.any fun p => revokeWaits nupd s l p i cause) = false →
      exec (.lseqRevoke nupd k) s = .next (settle s (forEach (fun p t => revokeAt nupd l p i cause t) ps (dropRev nupd k s)))) ∧
    (workOpen s ini (.line n) 0x098 = true → (lineOf s n.val).fw = none →
      fld v 31 28 = (if linePixel s n.val then 5 else 1) → reg s (.line n) 0x0A0 ≠ 0 →
      exec (.lnFreq ini n v) s = .next (putLine' n.val
        { lineOf s n.val with fw := some (fld v 18 16, min (if linePixel s n.val then 1024 else 64) (fld v 10 0)) }
        (answer .ok s)))

/-- Return phases and the pixel commands (R178, R201, R202, R205-R208, R211). -/
def Obligations.ReturnAndPixelCommandsComplete : Prop :=
  ∀ (s : State) (ini : Ini) (n : Fin 64) (v : Word),
    (∀ (f : LFrame) (slots : List (Nat × Nat)) (bitErrs : Nat), (lineOf s n.val).back = some f → (lineOf s n.val).preOk = true →
      (f.ftype = 1 ∨ f.ftype = 5) → inControl s = true →
      exec (.returnStream n slots bitErrs) s = .next (settle s (handStep (returnStream n.val slots bitErrs s))) ∧
        (lineOf (returnStream n.val slots bitErrs s) n.val).back = none) ∧
    (∀ f, (lineOf s n.val).back = some f → (lineOf s n.val).preOk = false →
      exec (.returnTimeout n) s = .next (settle s (handStep (phaseLost n.val f s))) ∧ (lineOf (phaseLost n.val f s) n.val).back = none) ∧
    (∀ g : Fin 8, workOpen s ini .pixb (0x104 + 0x20 * g.val) = true → groupLines s g.val ≠ [] → (pixGroup s g.val).wait = none →
      (if bit v 16 then (pixGroup s g.val).busyB else (pixGroup s g.val).busyA) = false →
      (∀ m ∈ groupLines s g.val, pixBuf s m (bit v 16) % 64 = 0 ∧ inDram (pixBuf s m (bit v 16)) (6 * pixCount s m) = true) →
      exec (.grpCommit ini g v) s = .next (putGroup g.val
        { pixGroup s g.val with
          wait := some (bit v 16, fld v 15 0, (List.range 4).map (baseNow s))
          sentOn := []
          busyA := (pixGroup s g.val).busyA || !bit v 16
          busyB := (pixGroup s g.val).busyB || bit v 16 }
        (answer .ok s))) ∧
    (∀ (delay : Nat) (i : Nat × Nat) (buf : Bool × Nat),
      (let u := tellDelay n.val delay s
       let want := retWanted u n.val i
       let fits := startFits u n.val i true
       let s1 := putLine' n.val { lineOf u n.val with periods := periodOf u n.val i, counted := some i }
         (if want then setRegB (.line n) 0x084 8 (!fits) u else u)
       let r := choosePix n.val (swapGroup u n.val) i s1
       pixSends u n.val = true → nextSwap u (swapGroup u n.val) = some i →
       ((8 ≤ (lineOf s1 n.val).pcfgWait ∧ pcfgWaits s1 n.val = true) →
        exec (.pdataStart n delay) s = .next (settle s (pcfgSend n.val s1))) ∧
       (¬ (8 ≤ (lineOf s1 n.val).pcfgWait ∧ pcfgWaits s1 n.val = true) → r.1 = some buf →
        exec (.pdataStart n delay) s =
         .next (settle s (lineSend n.val (pdataFrame r.2 n.val buf (want && fits)) (fixLook n.val r.2)))))) ∧
    (∀ buf, pixSends s n.val = true → (lineOf s n.val).lastBuf = some buf →
      exec (.keepalive n) s = .next (settle s (lineSend n.val (pdataFrame s n.val buf false) s))) ∧
    (∀ (delay : Nat) (i : Nat × Nat), (let u := tellDelay n.val delay s
      pixSends u n.val = true → nextSwap u (swapGroup u n.val) = some i → knownLate u n.val i = false →
      exec (.pswap n delay) s = .next (settle s (wireSend n.val (pswapFrame u n.val) u)))) ∧
    (pixSends s n.val = true → pcfgWaits s n.val = true → placeFits s n.val (pcfgBits (pcfgCount s n.val)) = true → exec (.pcfgPlace n) s = .next (settle s (pcfgSend n.val s))) ∧
    (∀ (f : LFrame) (words : List (Nat × Nat)), (lineOf s n.val).back = some f → (lineOf s n.val).preOk = true → f.ftype = 4 →
      ∃ t, exec (.pixelReturn n words) s = .next t ∧ (lineOf t n.val).back = none)

/-- The request port of DIM, its events and its loops (R216, R217, R221, R222, R224, R226, R230, R232, R235-R237). -/
def Obligations.DimmingCommandsComplete : Prop :=
  ∀ (s : State) (ini : Ini) (i : Fin 12288) (v : Word),
    (∀ op : Fin 5, op ≠ 0 → writeOpen s ini .dim 0x090 = true → quiescing s .dim = false → rqBusy s ini.id = false →
      dimFull s = false → (let s1 := setRegI .dim 0x090 ini.id (word op.val) (answer .ok s)
        dimRefusal s1 0 op.val (regI s .dim 0x080 ini.id) (regI s .dim 0x084 ini.id) (regI s .dim 0x08C ini.id) = none →
        (let s2 := dimRequest 0 op.val (regI s .dim 0x080 ini.id) (regI s .dim 0x084 ini.id) (regI s .dim 0x088 ini.id)
           (regI s .dim 0x08C ini.id) s1 (some ini.id.val)
         exec (match op with | 1 => .post ini | 2 => .release ini | 3 => .revoke ini | _ => .setHours ini) s =
          .next (settle s (if portIn ini.id.val 0 s2.dim.queue then setRegI .dim 0x094 ini.id 2 s2
            else setRegI .dim 0x094 ini.id 1 { s2 with dim := { s2.dim with entering := s2.dim.entering ++ [ini.id.val] } }))))) ∧
    (∀ p : Fin 8, p ≠ 0 → inControl s = true → (reqOf s i.val p.val).valid = true → (reqOf s i.val p.val).acted = false →
      isDue (reqOf s i.val p.val).act (nowMs s) = true →
      exec (.requestActed i p) s = .next (settle s (dimQueue { points := [i.val], mir := p.val == 4 }
        (putReq i.val p.val { reqOf s i.val p.val with acted := true } s)))) ∧
    (∀ p : Fin 8, p ≠ 0 → inControl s = true → (reqOf s i.val p.val).valid = true → (reqOf s i.val p.val).hasRel = true →
      isDue (reqOf s i.val p.val).rel (nowMs s) = true →
      exec (.durationEnd i p) s = .next (settle s (dimQueue { points := [i.val], mir := p.val == 4 } (endReq i.val p.val (reqOf s i.val p.val).rel s)))) ∧
    (∀ (e : DimEval) (rest : List DimEval), serving s .dim = true → ptReady s = true → s.dim.queue = e :: rest →
      exec .evaluate s = .next (settle s (rqWaiting (portsIn (dimBacklog (dimEval e { s with dim := { s.dim with queue := rest } })))))) ∧
    (serving s .dim = true → exec (.pendingPassed i) s = .next (settle s (dimPassed i.val s))) ∧
    (accepting s .dim = true → inControl s = true →
      exec .cloSweep s = .next { s with dim := { s.dim with sweep := some 0 } }) ∧
    (serving s .dim = true → ptReady s = true → wantsLoop s i.val = true → (dimPt s i.val).loop = true → regB s .dim 0x040 1 = true →
      (dimPt s i.val).newLux = true → trimMoves s i.val (ptHalf s i.val) = true →
      ∃ t, exec (.luxLoop i) s = .next t ∧ (dimPt t i.val).trim =
        clampInt (-16384) 16384 ((dimPt s i.val).trim + trimDelta s i.val (ptHalf s i.val)) ∧
        t.dim.queue = dimInsert { points := [i.val] } s.dim.queue) ∧
    (serving s .dim = true → ptReady s = true → exec (.cctLoop i) s = .next (settle s (dimCct i.val s))) ∧
    (writeOpen s ini .dim 0x0A0 = true → fld v 13 0 < 12288 → exec (.loopIdx ini v) s = .next (setReg .dim 0x0A4
      (word (if (dimPt s (fld v 13 0)).loop then 2 ^ 31 + unsigned 16 (dimPt s (fld v 13 0)).trim else 0)) (answer .ok s)))

/-- The commands of SCHED (R240, R242-R246). -/
def Obligations.ScheduleCommandsComplete : Prop :=
  ∀ (s : State) (ini : Ini) (v : Word) (hi : Bool),
    (∀ (p : Fin 64) (k : Fin 32) (rel : Bool) (l : Int), schedPosts s = true → progEn s p.val = true →
      (sstepOf s p.val k.val).valid = true → (sstepOf s p.val k.val).bad = false → (sstepOf s p.val k.val).release = rel →
      instantNear s p.val k.val (if rel then 0 else regF s .sched 0x040 31 16) = some l →
      exec (if rel then .schedStepRelease p k else .stepPosted p k) s = .next (settle s (progStat p.val l (raiseIrq .sched 1
        (schedSend (stepPost p.val k.val (sstepOf s p.val k.val)) (actOfLocal s l) (pointsOfStep s p.val k.val l) s))))) ∧
    (working s .sched = true → localTime s % 86400 = 0 → exec .dayRoll s = .next (raiseIrq .sched 2 s)) ∧
    (workOpen s ini .sched 0x04C = true → bit v 6 = true →
      exec (.reload ini v) s = .next (settle s (schedRedoAll (forEach schedRead (List.range 64) (answer .ok s))))) ∧
    (writeOpen s ini .sched 0x048 = true → writeTaken .sched 0x048 v s = true →
      exec (.tzOffsetWrite ini v) s = .next (settle s (schedRedoAll (plainWrite ini .sched 0x048 v (answer .ok s))))) ∧
    (writeOpen s ini .sched (if hi then 0x054 else 0x050) = true → v &&& ~~~(reg s .sched (if hi then 0x054 else 0x050)) = 0 →
      exec (.progEnWrite ini hi v) s = .next (settle s (schedRedoAll
        (setReg .sched (if hi then 0x054 else 0x050) v (answer .ok s))))) ∧
    (writeOpen s ini .sched 0x040 = true → regB s .sched 0x040 0 = true →
      regB (plainWrite ini .sched 0x040 (setBit v 0 false) (answer .ok s)) .sched 0x040 0 = false →
      exec (.holdClear ini v) s =
        .next (settle s (schedRedoAll (plainWrite ini .sched 0x040 (setBit v 0 false) (answer .ok s)))))

/-- The commands of DET (R251, R252, R255, R256).  An empty read answers 0 beside EMPTY (the model's choice, log 7), and a reload
drops the A edges that wait at the definition (the model's choice, log 187). -/
def Obligations.DetectorCommandsComplete : Prop :=
  ∀ (s : State) (ini : Ini) (n : Fin 16) (d : Fin 512) (v : Word),
    (∀ rising : Bool, (let s1 := captureEdge (3 + n.val) rising (setRegB .det (0x10C + 0x10 * n.val) 16 rising s)
      let st := (nowMs s1, s1.tb.t0.ns / 1000 % 1000)
      let s2 := detCopy n.val st rising (putInput n.val { detInput s1 n.val with last := some s1.tb.cycles } s1)
      exec (.detEdge n rising) s =
        .next (settle s (if detTakes s1 n.val rising then forEach (defEdge n.val st) (defsLoaded s2) s2 else s1)))) ∧
    (∀ (ms us : Nat) (l : Bool) (rest : List (Nat × Nat × Bool)), readOpen s ini .det = true →
      (detInput s n.val).fifo = (ms, us, l) :: rest →
      exec (.inMsPop ini n) s = .next (answer (.data (word ms)) (setReg .det (0x108 + 0x10 * n.val) (word (b01 l * 2 ^ 31 + us))
        (putInput n.val { detInput s n.val with fifo := rest } s)))) ∧
    (readOpen s ini .det = true → (detInput s n.val).fifo = [] →
      exec (.inMsPop ini n) s = .next (answer (.data 0) (setReg .det (0x108 + 0x10 * n.val) 0x40000000 s)) ∧
      bit (0x40000000 : Word) 30 = true) ∧
    (let ws := memWords s (regN s .det 0x040 + 32 * d.val) 8
     writeOpen s ini .det 0x044 = true → bit v 9 = false → fld v 8 0 = d.val →
      ∃ t, exec (.detReload ini v) s = .next t ∧ edgesOf t d.val = [] ∧ t.mem = s.mem ∧
        (bit (wordAt ws 0) 31 = false → defOf t d.val = []) ∧
        (bit (wordAt ws 0) 31 = true → defGood s ws = true → defOf t d.val = ws) ∧
        (bit (wordAt ws 0) 31 = true → defGood s ws = false → defOf t d.val = [])) ∧
    (exec (.pairAExpire d) s = .next (putEdges d.val
      ((edgesOf s d.val).filter (edgeLive (defOf s d.val) (nowMs s, s.tb.t0.ns / 1000 % 1000))) s))

/-- The events, tracks and messages of MIR (R256, R258, R260, R262, R263, R268, R272, R273, R278, R280). -/
def Obligations.TrackCommandsComplete : Prop :=
  ∀ (s : State) (ini : Ini) (c : Fin 256) (v : Word),
    (∀ e, working s .mir = true → mirMode s ≠ 0 → s.mir.queue.find? (fun e => !s.mir.rebuild.contains e.strip) = some e →
      exec .mirEvent s = .next (settle s (mirLatency e s.dim.nextId
        (eventRun e { s with mir := { s.mir with queue := s.mir.queue.erase e } })))) ∧
    (working s .mir = true → mirMode s ≠ 0 → enabled s (.tb 0) = true → nowMs s % 10 = 0 →
      exec .mirTick s = .next (settle s (forEach trackRun (liveTracks (mirDrain s)) (mirDrain s)))) ∧
    (let u := mirDrain s
     working u .mir = true → (trackOf u c.val).st = 1 → (trackOf u c.val).tent = true →
      (stripConf u (trackOf u c.val).strip : Int) ≤ actDiff (nowMs u) (trackOf u c.val).birth →
      ∃ t, exec (.confTimeout c) s = .next t ∧ t = settle s (trackCancel c.val 1 u) ∧ (trackOf t c.val).st = 0) ∧
    ((trackOf s c.val).st = 3 → (trackOf s c.val).tent = false → (trackOf s c.val).lastRel = none →
      ∃ t, exec (.trackFree c) s = .next t ∧ trackOf t c.val = { gen := (trackOf s c.val).gen } ∧ t.regs = s.regs) ∧
    (writeOpen s ini .mir 0x088 = true → fld v 31 24 = 0xC4 → trackLive (trackOf s (fld v 7 0)) = true →
      ∃ t, exec (.trkKill ini v) s = .next t ∧ t = settle s (trackCancel (fld v 7 0) 2 (answer .ok s)) ∧
        (trackOf t (fld v 7 0)).st = 0) ∧
    (let ws := defOf s (regI s .mir 0x090 ini.id).toNat
     let aux := regI s .mir 0x098 ini.id
     workOpen s ini .mir 0x09C = true → ws ≠ [] → defKind ws = 3 →
      exec (.injCmd ini) s = .next (settle s (mirOffer (defEvent s ws (fld aux 31 30) (regI s .mir 0x094 ini.id).toNat
        (fld aux 25 16) (if fld aux 11 0 = 0 then none else some (fld aux 11 0))) (answer .ok s)))) ∧
    (writeOpen s ini .mir 0x080 = true → ∃ t, exec (.trkIdx ini v) s = .next t ∧ regI t .mir 0x084 ini.id = 2 ∧
      regI t .mir 0x0C4 ini.id = word (trackOf s (fld v 7 0)).id ∧ regI t .mir 0x0C8 ini.id = word (trackOf s (fld v 7 0)).x ∧
      regI t .mir 0x0D0 ini.id = word (trackOf s (fld v 7 0)).v ∧ t.mir = s.mir ∧ t.mem = s.mem) ∧
    (∀ (src : Fin 4096) (ws : List Word), mirOn s = true → quiescing s .mir = false → inReset s .mir = false →
      exec (.trackHandoverRx src ws) s = .next (settle s (trackHandover src.val ws s)) ∧
      exec (.trackCancelRx src ws) s = .next (settle s (trackCancelRx src.val ws s))) ∧
    (exec .cancelRecordExpire s = .next
      { s with mir := { s.mir with cancelled := s.mir.cancelled.filter fun x => decide (actDiff (nowMs s) x.2 < 60000) } })

/-- The strips and the modes of MIR (R248-R250, R277, R282). -/
def Obligations.StripAndModeCommandsComplete : Prop :=
  ∀ (s : State) (ini : Ini) (k : Fin 64) (v : Word),
    (let off := 0x800 + 0x20 * k.val
     let s1 := plainWrite ini .mir off (setBit v 31 true) (answer .ok s)
     writeOpen s ini .mir off = true → stripEn s k.val = false → stripGood s k.val (setBit v 31 true) = true →
      stripEn s1 k.val = true → exec (.stripEnable ini k v) s = .next (settle s (needRebuild k.val s1))) ∧
    (let off := 0x800 + 0x20 * k.val
     let s1 := plainWrite ini .mir off (setBit v 31 false) (answer .ok s)
     writeOpen s ini .mir off = true → stripEn s k.val = true → stripEn s1 k.val = false →
      exec (.stripDisable ini k v) s = .next (settle s (defSilence k.val (forEach trackExit
        ((liveTracks s1).filter fun c => (trackOf s1 c).strip == k.val)
        { s1 with mir := { s1.mir with
                           maps := spPut (fun _ => []) k.val [] s1.mir.maps
                           rebuild := s1.mir.rebuild.filter (· != k.val) } })))) ∧
    (k.val ∈ s.mir.rebuild → ptReady s = true → inReset s .mir = false →
      ∃ t, exec (.stripRebuild k) s = .next t ∧ k.val ∉ t.mir.rebuild ∧ (stripEn s k.val = false → mapOfStrip t k.val = [])) ∧
    (writeOpen s ini .mir 0x040 = true →
      (∃ t, exec (.mirModeOff ini) s = .next t ∧ mirMode t = 0 ∧ t.mem = s.mem) ∧
      (∃ t, exec (.mirModeShadow ini) s = .next t ∧ mirMode t = 2 ∧ t.mem = s.mem) ∧
      (mirMode s ≠ 2 → ∃ t, exec (.mirModeActive ini) s = .next t ∧ mirMode t = 1 ∧ t.mem = s.mem) ∧
      (mirMode s = 2 → exec (.mirModeActive ini) s = .next (settle s (mirPromote (setRegF .mir 0x040 1 0 1
        (plainWrite ini .mir 0x040 (setFld (setFld (reg s .mir 0x040) 1 0 1) 1 0 2) (answer .ok s)))))))

/-- The commands of DIAG (R283, R289, R290, R292, R294-R296, R298, R299, R304, R305). -/
def Obligations.DiagnosisCommandsComplete : Prop :=
  ∀ (s : State) (ini : Ini) (i : Fin 12288) (v : Word),
    (∀ (o : DiagObs) (rest : List DiagObs), s.diag.obs = o :: rest → accepting s .diag = true → ptReady s = true →
      exec .observation s = .next (settle s (observe o { s with diag := { s.diag with obs := rest } }))) ∧
    (∀ (r : DiagRep) (rest : List DiagRep), s.diag.reps = r :: rest → accepting s .diag = true → ptReady s = true → diagMode s = 1 →
      exec .lineReport s = .next (settle s (lineReport r { s with diag := { s.diag with reps := rest } }))) ∧
    (accepting s .diag = true → ptReady s = true → diagMode s = 1 → proofDue s i.val = true →
      (cfgRadio (ptHalf s i.val) = true →
        exec (.proofDue i) s = .next (settle s (proofHand i.val (nowMs s + proofLead s) s))) ∧
      (cfgRadio (ptHalf s i.val) = false → proofsOn s (cfgLine (ptHalf s i.val)) < regF s .diag 0x040 15 12 →
        (∀ j, j < i.val → cfgRadio (ptHalf s j) = false → cfgLine (ptHalf s j) = cfgLine (ptHalf s i.val) → proofDue s j = false) →
        (let s1 := proofHand i.val (nowMs s + proofLead s) s
         let n := cfgLine (ptHalf s i.val)
         exec (.proofDue i) s = .next (settle s
           { s1 with diag := { s1.diag with proofs := spPut (fun _ => 0) n (proofsOn s n + 1) s1.diag.proofs } })))) ∧
    (let u := ptUse (fld v 13 0) (answer .ok s)
     writeOpen s ini .diag 0x060 = true → fld v 13 0 < 12288 → ptReady s = true → diagMode u = 1 → enabled u .diag = true →
      diagServes u (fld v 13 0) = true → isLantern (ptHalf u (fld v 13 0)) = true → curLevel u (fld v 13 0) ≠ 0 →
      exec (.proofReq ini v) s = .next (settle s (proofHand (fld v 13 0) (nowMs u + proofLead u) u))) ∧
    (writeOpen s ini .diag 0x064 = true → fld v 31 24 = 0xD1 → fld v 13 0 < 12288 → diagMode s ≠ 2 →
      (let s1 := dropSus (fld v 13 0) (fun u => (fld v 23 16).testBit u.flag) (answer .ok s)
       let s2 := forEach (fun f t => if (fld v 23 16).testBit f && faultSet t (fld v 13 0) f then diagClear (fld v 13 0) f 0xE t else t)
         (List.range 8) s1
       exec (.clr ini v) s = .next (settle s (if (fld v 23 16).testBit 2 then
         putDiag (fld v 13 0) { diagPt s2 (fld v 13 0) with vref := 0, vsum := 0, vcount := 0 } s2 else s2)))) ∧
    (working s .diag = true → diagMode s = 1 →
      (ptReady s = true → exec .burnSecond s = .next (settle s (forEach burnPt (List.range 12288) s))) ∧
      (ptReady s = false → exec .burnSecond s = .next { s with diag := { s.diag with burns := s.diag.burns + 1 } })) ∧
    (accepting s .diag = true → diagMode s = 1 → diagServes s i.val = true → cfgKind (ptHalf s i.val) = kindRadio →
      ((diagPt s i.val).heard = false → exec (.radioReportDue i) s = .next
        { s with diag := { s.diag with asks := (s.diag.asks.filter (· != i.val)) ++ [i.val] } }) ∧
      ((diagPt s i.val).heard = true → exec (.radioReportDue i) s = .next (settle s
        (putDiag i.val { diagPt s i.val with heard := false } s)))) ∧
    (writeOpen s ini .diag 0x040 = true →
      (∃ t, exec (.diagModeOff ini) s = .next t ∧ diagMode t = 0 ∧ t.mem = s.mem) ∧
      (∃ t, exec (.diagModeShadow ini) s = .next t ∧ diagMode t = 2 ∧ t.mem = s.mem) ∧
      (∃ t, exec (.diagModeActive ini) s = .next t ∧ diagMode t = 1 ∧ t.diag.reps = s.diag.reps))

/-- The commands of MET (R309, R312, R318, R321, R322, R324, R327, R331, R333). -/
def Obligations.MetrologyCommandsComplete : Prop :=
  ∀ (s : State) (ini : Ini) (v : Word),
    (∀ (r : CopyResult) (sets : List (List Int)), metRuns s = true →
      exec (.mfFrame r sets) s = .next (settle s (metFrame r sets s))) ∧
    (∀ (k : Nat) (sum : Int) (rest : List (Nat × Int)), s.met.ended = (k, sum) :: rest →
      exec .powerSampleEnd s = .next (settle s (addEnergy k sum (onMet (fun m => { m with ended := rest }) s)))) ∧
    (∀ (r : CopyResult) (w : MetWin) (rest : List MetWin), s.met.closed = w :: rest →
      (let s0 := onMet (fun m => { m with closed := rest }) s
       let s1 := used (forEach (rcmEnd s0 w) (List.range 2) (forEach (addReactive s0 w) (List.range 24) (winCompute w s0)))
       let s2 := if regF s .met 0x040 3 1 ≤ s1.met.persistCnt + 1 then persist r s1
         else onMet (fun m => { m with persistCnt := s1.met.persistCnt + 1 }) s1
       exec (.windowEnd r) s = .next (settle s (if intervalDue s w then metLatch 2 w.endSec w.endNs s2 else s2)))) ∧
    (∀ l, s.met.pend = some l → quiescing s .met = false → metRuns s = true →
      ∃ t, exec .winReady s = .next t ∧ reg t .met 0x3C0 = reg s .met 0x3C0 + 1 ∧ reg t .met 0x3C4 = 1 ∧ t.met.pend = none ∧
        t.mem = s.mem) ∧
    (workOpen s ini .met 0x050 = true → v = 1 →
      exec (.snap ini v) s = .next (settle s (metLatch 1 s.tb.t0.sec s.tb.t0.ns (answer .ok s)))) ∧
    (∀ (l : MetLatch) (rest : List MetLatch), s.met.latches = l :: rest → quiescing s .met = false → metRuns s = true →
      ∃ t, exec .snapReady s = .next t ∧ reg t .met 0x7C0 = reg s .met 0x7C0 + 1 ∧
        reg t .met 0x7C4 = word (l.src * 2 ^ 8 + b01 rest.isEmpty) ∧ t.met.latches = rest ∧ t.mem = s.mem) ∧
    (writeOpen s ini .met 0x054 = true → ∃ t, exec (.totClr ini v) s = .next t ∧
      (∀ k, k < 24 → bit v k = true → totOf t k = { wrap := (totOf s k).wrap, impAdd := (totOf t k).impAdd, expAdd := (totOf t k).expAdd } ∧
        (totOf t k).impAdd = (totOf s k).impAdd + (native (totOf s k).imp - (totOf s k).impAt) ∧
        (totOf t k).expAdd = (totOf s k).expAdd + (native (totOf s k).exp - (totOf s k).expAt)) ∧ (∀ k, bit v k = false → totOf t k = totOf s k)) ∧
    (∀ (addr : Nat) (p : Page), pageAt addr = some p → (calOffsets p).contains (addr % 0x1000) = true →
      writeOpen s ini p (addr % 0x1000) = true → writeTaken p (addr % 0x1000) v s = true → locked s p 0 = false →
      (let s1 := plainWrite ini p (addr % 0x1000) v (answer .ok s)
       exec (.calChange ini addr v) s = .next (settle s (evrOffer p 0x0203 (leBytes 4 (pageBase p + addr % 0x1000) ++
         leBytes 4 (regN s p (addr % 0x1000)) ++ leBytes 4 (regN s1 p (addr % 0x1000)))
         (setReg .met 0x060 (reg s1 .met 0x060 + 1) s1))))) ∧
    (writeOpen s ini .met 0x220 = true → fld v 31 24 = 0xB7 → bit v 1 = true →
      exec (.relearn ini v) s = .next (putRcm (fld v 0 0) { trans := (rcmOf s (fld v 0 0)).trans } (answer .ok s))) ∧
    (let k := regF s .met 0x068 15 0
     let n := regF s .met 0x068 19 16
     regB s .met 0x068 31 = true → k ≠ 0 → 1000000 * 2 ^ 40 ≤ s.met.testAcc * k → testPin s n = true → pinDrives s n = true →
      exec .testOutPulse s = .next (send (.testPulse n) (onMet (fun m => { m with testAcc := m.testAcc - 1000000 * 2 ^ 40 / k }) s)))

/-- The commands of ATTR (R339-R342, R345-R347, R350, R352, R353, R355). -/
def Obligations.AttributionCommandsComplete : Prop :=
  ∀ (s : State) (ini : Ini) (c : Fin 24) (v : Word),
    (let r := attrRound s c.val
     let lead := regF s .attr 0x044 31 16
     let lans := (attrPick s c.val).zipIdx.map fun x => attrLan s (attrStart s lead) x.1 x.2
     attrMode s = 1 → accepting s .attr = true → regB s .attr 0x048 c.val = true → (r.state = 0 ∨ r.state = 4) → ptReady s = true →
      attrWinOk s = true → lans ≠ [] →
      exec (.attrSelect c) s = .next (settle s (forEach attrMark lans
        (putRound c.val { state := 1, s := attrStart s lead, lead := lead, lans := lans, cause := r.cause } s)))) ∧
    ((attrRound s c.val).state = 1 → (attrRound s c.val).s * 1000000000 ≤ tbNs s.tb.t0 → attrWinOk s = true →
      (let s1 := forEach (lanFix c.val) (attrRound s c.val).lans s
       exec (.roundStart c) s = .next (settle s (putRound c.val { attrRound s1 c.val with state := 2 } s1)))) ∧
    (let r := attrRound s c.val
     let s1 := forEach (chipHand c.val r.next) r.lans s
     attrRunning r = true → r.next ≤ 63 → accepting s .dim = true →
      (r.s + 2 * r.next) * 1000000000 ≤ tbNs s.tb.t0 + r.lead * 1000000 →
      exec (.chipHandover c) s = .next (settle s (putRound c.val { attrRound s1 c.val with next := r.next + 1 } s1))) ∧
    (let r := { attrRound s c.val with heard := 63 }
     let u := putRound c.val r s
     let lost := lostMost r (r.lans.filter fun l => l.inval.isNone)
     r.state = 2 → (r.s + 126) * 1000000000 ≤ tbNs s.tb.t0 →
      (regF s .attr 0x040 15 8 < lost → exec (.attrSolve c) s = .next (settle s (attrVoid c.val 1 u))) ∧
      (lost ≤ regF s .attr 0x040 15 8 → exec (.attrSolve c) s = .next (settle s
        (forEach (fun l t => putChip l.point 0 t) r.lans
          (setRegB .attr 0x104 0 false (putRound c.val { r with state := 3, view := [] } u)))))) ∧
    (let u := forEach (attrWriteResult c.val ((List.range 3).flatMap (slotFit (attrRound s c.val)))) (attrRound s c.val).lans s
     (attrRound s c.val).state = 3 →
      (ptReady s = false → exec (.roundDone c) s = .next (settle s (putRound c.val { attrRound s c.val with waits := true } s))) ∧
      (ptReady s = true → ∃ t, exec (.roundDone c) s = .next t ∧
        reg t .attr 0x100 = reg u .attr 0x100 + 1 ∧
        reg t .attr 0x104 = word (c.val * 2 ^ 16 + (attrRound u c.val).lans.length * 2 ^ 8 + 1) ∧
        reg t .attr 0x108 = word ((attrRound u c.val).s % 2 ^ 32) ∧ (attrRound t c.val).state = 4 ∧ regB t .attr 0x014 0 = true ∧
        t.mem = u.mem)) ∧
    (writeOpen s ini .attr 0x058 = true → fld v 31 24 = 0xA7 → fld v 4 0 ≤ 23 → attrOpen (attrRound s (fld v 4 0)) = true →
      exec (.abort ini v) s = .next (settle s (attrVoid (fld v 4 0) 4 (answer .ok s)))) ∧
    (writeOpen s ini .attr 0x040 = true →
      (∃ t, exec (.attrModeOff ini) s = .next t ∧ attrMode t = 0) ∧ (∃ t, exec (.attrModeShadow ini) s = .next t ∧ attrMode t = 2) ∧
      (∃ t, exec (.attrModeActive ini) s = .next t ∧ attrMode t = 1 ∧ t.mem = s.mem))

/-- The frames a radio receives from Caravan's members (R366-R376, R381-R386, R402). -/
def Obligations.RadioFramesReceivedComplete : Prop :=
  ∀ (s : State) (f : RadioRx) (o : Option (Fin 4096)),
    (let took := rfAck f.src.val (putSes f.src.val
        { sesOf s f.src.val with
          fc := f.fc % 2 ^ 32
          dsn := f.dsn % 256
          fcMs := nowMs s } (bumpReg (rfPage s) 0x074 s))
     crvRuns s = true → f.fcs = true → f.kindOk = true → f.good = true → keyAccepted s f.key = true → (sesOf s f.src.val).valid = true →
      f.src ≠ 0 → (sesOf s f.src.val).fc < f.fc →
      (∀ st data gack, exec (.status f o st data gack) s = .next (settle s (radioStatus (rxOrigin f o) st data gack took))) ∧
      (∀ evseq stamp dirUs speed, exec (.sensor f o evseq stamp dirUs speed) s =
        .next (settle s (radioSensor (rxOrigin f o) evseq stamp dirUs speed took))) ∧
      (∀ e, exec (.poll f e) s = .next (settle s (crvPoll f.src.val e took))) ∧
      (∀ camp miss held, exec (.nack f o camp miss held) s = .next (settle s (crvNack (rxOrigin f o) camp miss held took))) ∧
      (∀ parent, exec (.reparent f o parent) s = .next (settle s (reparent (rxOrigin f o) parent.val took)))) ∧
    (∀ (q : JoinReq) (n : Nat) (pt : Option Nat), crvRuns s = true → enabled s .crv = true → ptReady s = true → crvMode s = 1 →
      joinAddr s q.eui = some (n, pt) → joinFresh s q = true → ((sesOf s n).valid = true → (sesOf s n).eui = q.eui) →
      (q.via ≠ 0 ∨ q.flags.testBit 1 = false ∨ otherSleepy s n < 32) →
      exec (.joinReq q) s = .next (settle s (joinRsp 9 q 0 n (admitNode q n pt (bumpReg (rfPage s) 0x074 s))))) ∧
    (∀ (q : JoinReq) (n : Nat) (x : CrvSes), crvRuns s = true → crvMode s = 1 →
      (s.crv.ses.find? fun y => y.2.valid && y.2.eui == q.eui && y.1 != 0) = some (n, x) → joinFresh s q = true →
      exec (.keyReq q) s = .next (settle s (joinRsp 11 q 0 n (crvContact n (putSes n
        { x with ngen := if s.crv.roll = 1 then nextGen (crvNgen s) else crvNgen s }
        (joinKeep q (bumpReg (rfPage s) 0x074 s)))))))

/-- The commands of CRV but for received frames (R361, R362, R370, R373, R375, R377, R379, R382, R384, R386, R387, R391). -/
def Obligations.CaravanCommandsComplete : Prop :=
  ∀ (s : State) (ini : Ini) (v : Word) (n : Fin 4096),
    (∀ rssi, crvRuns s = true → enabled s (.tb 0) = true → nowMs s % 10 = 0 → rfShed s = false → crvMode s = 1 → ptReady s = true →
      exec (.caravanSlot rssi) s = .next (settle s (match slotUse (crvSlot s) with
        | .coordBeacon => beaconSlot (crvSlot s / 50) s
        | .routerBeacon => s
        | .corridor => corridorSlot s
        | .data => listenDown (dataSlot rssi s)))) ∧
    (∀ x, s.crv.tx = some x → x.onAir = true →
      (x.second = false → exec .hopAck s = .next (settle s (frameTaken x.frame (onCrv (fun c => { c with tx := none }) s)))) ∧
      (x.second = true → exec .hopAck s = .next (settle s (frameTaken x.frame (onCrv (fun c => { c with tx := none }) (noteTransient .crv s))))) ∧
      (x.second = false → exec .hopAckMiss s = .next (settle s
        (onCrv (fun c => { c with tx := some { x with second := true, busy := 0, defer := 0, onAir := false } }) s))) ∧
      (x.second = true → exec .hopAckMiss s = .next (settle s (frameLost x.frame (onCrv (fun c => { c with tx := none }) s))))) ∧
    (∀ (src : Fin 3) (k : Nat) (c : Cmd), offerAt s src.val k = some c → accepting s .crv = true → ptReady s = true →
      cfgRadio (ptHalf s c.point) = true → inControl s = true → c.members = [] → (src = 2 → nuSends s = true) →
      (src.val < 2 → ptServed s c.point = false →
        exec (.crvHandover src k false) s = .next (settle s (setOffers src.val (dropAt (offersOf s src.val) k) s))) ∧
      (¬ (src.val < 2 ∧ ptServed s c.point = false) → c.op = 4 →
       (let gone := setOffers src.val (dropAt (offersOf s src.val) k) s
        exec (.crvHandover src k false) s = .next (settle s (radioKick c.point (putRpos c.point
          { rposOf gone c.point with revokes := (rposOf gone c.point).revokes ++ [{ c with src := src.val, uid := s.dim.nextId }] }
          { gone with dim := { gone.dim with nextId := s.dim.nextId + 1 } }))))) ∧
      (¬ (src.val < 2 ∧ ptServed s c.point = false) → c.op ≠ 4 →
       let c1 := { c with src := src.val, since := tbNs s.tb.t0 / 1000, uid := s.dim.nextId, jrn := jrnWaits s }
       ∀ q, enqueue c1 (rposOf s c.point).queue = some q →
        (let s1 := putRpos c.point { rposOf s c.point with queue := q } (setOffers src.val (dropAt (offersOf s src.val) k)
          { s with dim := { s.dim with nextId := s.dim.nextId + 1 } })
         exec (.crvHandover src k false) s = .next (settle s
          (radioKick c.point (jrnTell (jrnHanded 0 c1) (if src.val = 0 then dimHanded c1 s1 else s1))))))) ∧
    (∀ (ix : Fin 12288) (c : Cmd), crvRuns s = true → s.crv.groups = [] →
      (allCmds (rposOf s ix.val)).filter (·.sent) = [c] →
      exec (.ackTmo ix) s = .next (settle s (radioAsk ix.val (radioAttempt ix.val c.uid s)))) ∧
    (crvRuns s = true → ownSleepy s n.val = true → (sesOf s n.val).valid = true → (sesOf s n.val).lost = false →
      ((sesOf s n.val).misses < 2 →
        exec (.lost n) s = .next (putSes n.val { sesOf s n.val with misses := (sesOf s n.val).misses + 1 } s)) ∧
      (2 ≤ (sesOf s n.val).misses →
        (let s1 := raiseIrq .crv 4 (bumpRegF .crv 0x06C 31 16 (putSes n.val { sesOf s n.val with misses := 3, lost := true } s))
         exec (.lost n) s = .next (settle s (match shortPoint s1 n.val with
           | some i => diagReport (.lost i) s1
           | none => s1))))) ∧
    (n ≠ 0 → (sesOf s n.val).valid = true → 0 ≤ signed 32 (nowSec s + 2 ^ 32 - (sesOf s n.val).lease % 2 ^ 32) →
      exec (.leaseEnd n) s = .next (freeSes n.val s)) ∧
    (writeOpen s ini .crv 0x070 = true → fld v 31 24 = 0xE9 → fld v 11 0 ≠ 0 → (sesOf s (fld v 11 0)).valid = true →
      exec (.evict ini v) s = .next (freeSes (fld v 11 0) (answer .ok s))) ∧
    (writeOpen s ini .crv 0x074 = true → fld v 31 24 = 0x6E → bit v 0 = true → s.crv.roll = 0 →
      exec (.roll ini v) s = .next (onCrv (fun c => { c with roll := 1 }) (answer .ok s))) ∧
    (s.crv.roll = 1 → exec .rollSwitch s = .next (onCrv (fun c => { c with roll := 2 })
      (caravanTell (setRegF .crv 0x04C 7 0 (nextGen (crvNgen s)) s)))) ∧
    (s.crv.roll = 2 → exec .rollDone s = .next (raiseIrq .crv 1 (onCrv (fun c => { c with roll := 0 }) s))) ∧
    (∀ h l, (sesOf s n.val).held = h :: l → crvRuns s = true → 64000 ≤ actDiff (nowMs s) h.since →
      exec (.heldFrameExpire n) s = .next (settle s (frameLost h.frame s))) ∧
    (writeOpen s ini .crv 0x080 = true → ∃ t, exec (.sesIdx ini v) s = .next t ∧ regI t .crv 0x084 ini.id = 2 ∧ t.mem = s.mem) ∧
    (writeOpen s ini .crv 0x040 = true → crvRadio s = 0 → 1 ≤ crvDepth s → crvDepth s ≤ 8 → regF s (.rf 0) 0x040 5 4 ≠ 0 →
      (let v := fun m => setFld (reg s .crv 0x040) 1 0 m
       let s1 := fun m => plainWrite ini .crv 0x040 (setFld (v m) 1 0 (crvMode s)) (answer .ok s)
       exec (.crvModeOff ini) s = .next (settle s (crvModeSet 0 (s1 0))) ∧
       (modeRefusal (s1 2) 2 = none → exec (.crvModeShadow ini) s = .next (settle s (crvModeSet 2 (s1 2)))) ∧
       (modeRefusal (s1 1) 1 = none → exec (.crvModeActive ini) s = .next (settle s (crvModeSet 1 (s1 1))))))

/-- The commands of NUPD (R394, R395, R403-R406, R409, R410). -/
def Obligations.NodeUpdateCommandsComplete : Prop :=
  ∀ (s : State) (ini : Ini),
    (workOpen s ini .nupd 0x05C = true →
      ((nuState s = 0 ∨ nuState s = 7 ∨ nuState s = 9) → inControl s = true → nuRangeOk s = true →
        (let camp := if nuCamp s = 255 then 1 else nuCamp s + 1
         let s1 := setRegF .nupd 0x044 19 16 0 (setRegB .nupd 0x044 0 false (setRegF .nupd 0x044 31 24 camp (answer .ok s)))
         exec (.start ini) s = .next (settle s
          (nuListed (nuGo 1 { s1 with nupd := { digest := nuDigest s1, rets := s1.nupd.rets } }))))) ∧
      (nuState s = 4 → ((regF s .nupd 0x060 31 16 + 1) * 1000 : Nat) ≤ actDiff (regN s .nupd 0x058) (nowMs s) →
        exec (.activate ini) s = .next (settle s (nuGo 5 (answer .ok s)))) ∧
      (nuState s = 1 → exec (.nupdAbort ini) s = .next (settle s (raiseIrq .nupd 3 (nuGo 9 (answer .ok s))))) ∧
      (2 ≤ nuState s → nuState s ≤ 6 →
        (let s0 := nuUnoffered s.nupd.offers { answer .ok s with nupd := { s.nupd with offers := [], queue := [], asks := [] } }
         let ts := s0.nupd.targets
         let s1 := { s0 with nupd := { s0.nupd with revs := s0.nupd.revs ++ (ts.filter (nuPendingAct s0)).map fun t => (t.idx, 0) } }
         let s2 := forEach (nuCmd 3 0) (ts.filter fun t => nuEligible s1 t.idx) (nuGo 9 s1)
         exec (.nupdAbort ini) s = .next (settle s
          (raiseIrq .nupd 3 (forEach (fun t u => if nuPendingAct s0 t then u else nuFail t.idx 8 u) ts s2))))) ∧
      (1 ≤ nuState s → nuState s ≤ 6 → exec (.pause ini) s = .next (settle s
        (nuGo 8 { answer .ok s with nupd := { s.nupd with resumeTo := nuState s } }))) ∧
      (nuState s = 8 → s.nupd.digest = nuDigest s →
        (let st := s.nupd.resumeTo
         exec (.resume ini) s = .next (settle s
          (if st = 6 ∨ (st = 5 ∧ isDue (regN s .nupd 0x058) (nowMs s)) then nuCheckStart (answer .ok s)
           else nuAgain st (nuGo st (answer .ok s))))))) ∧
    (nuState s = 1 → working s .nupd = true → ptReady s = true → nuImageOk s = true →
      (let s1 := nuListed s
       let ts := s1.nupd.targets.map fun t => if t.pstate = 0 then { t with pstate := 1 } else t
       let s2 := { s1 with nupd := { s1.nupd with digest := nuDigest s1, targets := ts } }
       exec .digestVerified s = .next (settle s (nuAdvance (nuOpenAll (nuPutAll (nuGo 2 s2))))))) ∧
    (nuState s = 3 → working s .nupd = true → ptReady s = true → nuPassesOver s = true →
      (let s1 := forEach nuJudge s.nupd.targets s
       exec .nupdRoundEnd s = .next (settle s
        (if s1.nupd.targets.any fun t => t.pstate == 2 && !nuNoRoom s1 t then nuRound (regF s1 .nupd 0x044 19 16 + 1) s1
         else raiseIrq .nupd 1 (nuGo 4 (forEach (fun t u => if nuNoRoom u t then nuFail t.idx 6 u else u) s1.nupd.targets s1)))))) ∧
    (nuState s = 5 → working s .nupd = true → ptReady s = true →
      actDiff (regN s .nupd 0x058) (nowMs s) ≤ (regF s .nupd 0x060 31 16 * 1000 : Nat) →
      exec .nupdArm s = .next (settle s (forEach (fun t u => if t.pstate = 3 ∧ t.asked = 0
        then nuCmd 2 (regN s .nupd 0x058) t (nuPut (nuOnAll u (fun n => { n with act := 1 }) { t with asked := 1 }) u) else u) s.nupd.targets s))) ∧
    (nuState s = 6 → working s .nupd = true → ptReady s = true →
      (let s1 := forEach nuAsk s.nupd.targets s
       exec .check s = .next (settle s
        (if nuState s1 = 6 ∧ s1.nupd.targets.all (fun t => !nuOpen t) = true then raiseIrq .nupd 2 (nuGo 7 s1) else s1))))

/-- The commands of an Ethernet port (R413-R430). -/
def Obligations.EthernetPortCommandsComplete : Prop :=
  ∀ (s : State) (ini : Ini) (n : Fin 2) (v : Word),
    (writeOpen s ini (ethPage n) 0x048 = true →
      (let w := setBit (reg s (ethPage n) 0x048) 31 false
       regB s (ethPage n) 0x048 31 = true → exec (.phyRstClear ini n) s = .next (settle s
        (ethNegotiate (fld w 10 8) n (plainWrite ini (ethPage n) 0x048 (setBit w 0 false) (answer .ok s))))) ∧
      (let w := setBit v 0 true
       bit v 31 = false → exec (.restartAn ini n v) s = .next (settle s
        (ethNegotiate (fld w 10 8) n (plainWrite ini (ethPage n) 0x048 (setBit w 0 false) (answer .ok s)))))) ∧
    (∀ k : EthPartner, phyOn s n = true → k.fullDuplex = true → (ethOf s n).adv.testBit k.speed = true →
      exec (.linkUp n k) s = .next (settle s (ethPump n (flushPause n (raiseIrq (ethPage n) 6
        (setReg (ethPage n) 0x04C (linkStat s n k) s)))))) ∧
    (ethLink s n = true → exec (.linkDown n) s = .next (settle s
      (ergLinkDown n (raiseIrq (ethPage n) 6 (setReg (ethPage n) 0x04C 0 (putEth n { ethOf s n with pause := none } s)))))) ∧
    (∀ frame fifo k, (let s1 := putEth n { ethOf s n with rxFifo := fifo } s
      let b := frame.take (frame.length - 4)
      working s1 (ethPage n) = true → quiescing s1 (ethPage n) = false → ethLink s1 n = true →
      64 ≤ frame.length → frame.length ≤ regF s1 (ethPage n) 0x058 13 0 → fcsGood frame = true → pauseOf s1 n b = none →
      ethMatch s1 n (b.take 6) = some k → vidPass s1 n b = true → regB s1 (ethPage n) 0x040 20 = false →
      exec (.rxFrame n frame fifo) s = .next (settle s (pauseEval false n (rxQueue0 n k 0 b s1))))) ∧
    (∀ q : Fin 65536, working s (ethPage n) = true → ethLink s n = true → regB s (ethPage n) 0x060 0 = true →
      (let s1 := bumpReg (ethPage n) 0x0D4 s
       let start := if (ethOf s1 n).air.isSome then none else some s.tb.cycles
       exec (.pauseRx n q) s = .next (settle s (raiseIrq (ethPage n) 5
        (putEth n { ethOf s1 n with pause := if q.val = 0 then none else some (q.val, start) } s1))))) ∧
    exec (.pauseExpire n) s = .next (putEth n { ethOf s n with pause := none } s) ∧
    (∀ fifo, exec (.xoffRepeat n fifo) s = .next (settle s (pauseEval true n (putEth n { ethOf s n with rxFifo := fifo } s)))) ∧
    (writeOpen s ini (ethPage n) 0x088 = true →
      exec (.rxrTail ini n v) s = .next (settle s (pauseEval false n (plainWrite ini (ethPage n) 0x088 v (answer .ok s))))) ∧
    (writeOpen s ini (ethPage n) 0x098 = true →
      exec (.txrTail ini n v) s = .next (settle s (ethPump n (plainWrite ini (ethPage n) 0x098 v (answer .ok s))))) ∧
    (let s1 := ethPump n s
     working s1 (ethPage n) = true → quiesced s1 (ethPage n) = false → quiescing s1 (ethPage n) = false →
      ethLink s1 n = true → ethPaused s1 n = false → (ethOf s1 n).air = none →
      (∀ f r, (ethOf s1 n).erg = f :: r → exec (.txFrameStart n) s = .next (settle s
        (putEth n { ethOf s1 n with erg := r, air := some none } (send (.eth n f) s1)))) ∧
      (∀ f, (ethOf s1 n).erg = [] → (ethOf s1 n).fifo = some f → exec (.txFrameStart n) s = .next (settle s (txStart n f s1)))) ∧
    (let pz := match (ethOf s n).pause with | some (q, none) => some (q, some s.tb.cycles) | y => y
     let s1 := bumpReg (ethPage n) 0x0D8 (putEth n { ethOf s n with air := none, pause := pz } s)
     ((ethOf s n).air = some none → exec (.txDone n) s = .next (settle s (ethPump n (flushPause n s1)))) ∧
     (∀ f sec ns, (ethOf s n).air = some (some (f, sec, ns)) → f.stamp = false →
      exec (.txDone n) s = .next (settle s (ethPump n (flushPause n (raiseIrq (ethPage n) 1 (txBack n f.descs 0 none s1))))))) ∧
    (∀ frame : List Byte, (let b := frame.take (frame.length - 4)
      asleep s (ethPage n) = true → regB s (ethPage n) 0x300 31 = true → fcsGood frame = true → wakeBits s n b ≠ 0 →
      regB s (ethPage n) 0x304 31 = false →
      exec (.wake n frame) s = .next (settle s (raiseIrq (ethPage n) 7 (setReg (ethPage n) 0x304 (word (2 ^ 31 + wakeBits s n b))
        (forEach (fun x t => setReg (ethPage n) (0x380 + 4 * x.2) x.1 t) (wordsOf (takePad 128 b)).zipIdx s))))))

/-- The commands of ERG (R437, R440-R443, R445-R448, R450-R452). -/
def Obligations.FabricCommandsComplete : Prop :=
  ∀ (s : State) (ini : Ini) (v : Word),
    (writeOpen s ini .erg 0x040 = true →
      (let s1 := fun m => plainWrite ini .erg 0x040 (setFld (setFld (reg s .erg 0x040) 1 0 m) 1 0 (ergMode s)) (answer .ok s)
       exec (.ergModeOff ini) s = .next (settle s (radioSee (ergModeSet 0 (s1 0)))) ∧
       exec (.ergModeActive ini) s = .next (settle s (radioSee (ergModeSet 1 (s1 1)))) ∧
       exec (.ergModeShadow ini) s = .next (settle s (radioSee (ergModeSet 2 (s1 2)))))) ∧
    (ergRuns s = true → ergMode s = 1 →
      (ergState s = 1 → exec .claimHello s = .next (settle s (helloAll 1 (helloAll 0 s)))) ∧
      (ergState s = 1 → fabAddr s ≠ 0 → exec .claimEnd s = .next (settle s (ergPump (setRegF .erg 0x044 31 28 2 s)))) ∧
      (ergState s = 2 ∨ ergState s = 3 → exec .helloInt s = .next (settle s (helloAll 1 (helloAll 0 s)))) ∧
      (ergState s = 2 → exec .roadInt s = .next (settle s (forEach (fun x t => helloTo 1 x.2 (helloTo 0 x.2 t))
        (s.erg.nbrs.filter fun x => x.2.valid && bit x.2.word0 30) s)))) ∧
    (∀ (e : Fin 64) (p : Fin 2), ergRuns s = true → exec (.pathDown e p) s = .next (settle s (setPath e.val p.val false s))) ∧
    (∀ (p : Fin 2) (mac ip e : Nat) (m : ErgMessage), ergRuns s = true → (m.dst = fabAddr s ∨ m.dst = 0) → m.payload.length = 12 →
      m.src ≠ fabAddr s → nbrFor s m.src = some e →
      exec (.hello p mac ip m) s = .next (settle s (helloSession m.src m.session (setPath e p.val true (nbrLearn e p.val mac ip s))))) ∧
    (∀ (path : Fin 3) (m : ErgMessage), ergRuns s = true → ergState s ≠ 1 → ergState s ≠ 3 → m.dst = fabAddr s →
      exec (.ergAck path m) s = .next (settle s (ergAck path.val (msgOf m 2) s))) ∧
    (∀ (path : Fin 3) (ty e : Nat) (m : ErgMessage), ergHeld s = true → quiescing s .erg = false → m.dst = fabAddr s →
      (ty = 0x10 ∨ ty = 0x11 ∨ (0x40 ≤ ty ∧ ty ≤ 0x7F)) → nbrFor s m.src = some e → m.ackReq = true →
      seqClass (peerOf s m.src) (msgOf m ty) = 0 → (needsSlot s (msgOf m ty) = true → hrxFull s = false) →
      exec (.ergMsg path ty m) s = .next (settle s (ergDeliver path.val (msgOf m ty) (ergAckTo path.val (nbrOf s e) (msgOf m ty)
        (putPeer m.src (seqAccept (peerOf s m.src) (msgOf m ty)) s))))) ∧
    (∀ (m : MirMsg) (r : List MirMsg) (e : Nat), s.mir.out = m :: r → ergHeld s = true → quiescing s .erg = false → nbrFor s m.dst = some e →
      (let s1 := used (setReg .erg 0x09C (word (max (regN s .erg 0x09C) (freeN s % 2 ^ 32))) { s with mir := { s.mir with out := r } })
       let msg : ErgMsg := { ackReq := true, flood := none, type := if m.cancel then 0x11 else 0x10, src := 0, dst := m.dst, ttl := 0
                             session := 0, seq := 0, payload := m.words.flatMap (beBytes 4) }
       exec .ergSend s = .next (settle s (ergPump (ergSendTo e msg (.mir (m.words.headD 0) m.again) s1))))) ∧
    (writeOpen s ini .erg 0x078 = true →
      exec (.htxTail ini v) s = .next (settle s (ergPump (plainWrite ini .erg 0x078 v (answer .ok s))))) ∧
    (writeOpen s ini .erg 0x068 = true →
      (let s1 := plainWrite ini .erg 0x068 v (answer .ok s)
       exec (.hrxTail ini v) s = .next (settle s (setRegB .erg 0x044 1 (regB s1 .erg 0x044 1 && hrxFull s1) s1)))) ∧
    (∀ (k : Nat) (o : ErgOut), running s .erg = true → s.erg.out[k]? = some o →
      (let s1 := onErg (fun g => { g with out := g.out.eraseIdx k }) s
       exec (.ergAckTmo k) s = .next (settle s
        (if o.second then ergPump (ergFail o 2 s1) else ergPump (ergAttempt { o with second := true } s1))))) ∧
    (writeOpen s ini .erg 0x05C = true → (let s1 := onErg (fun g => { g with local' := memRead s (regN s .erg 0x058 + 16384) 32 }) (answer .ok s)
      exec (.nbrReload ini v) s = .next (settle s
        (if bit v 6 then forEach (fun e t => nbrLoad e (nbrOf s e) t) (List.range 64) (onErg (fun g => { g with nbrs := [] }) s1)
         else nbrLoad (fld v 5 0) (nbrOf s (fld v 5 0)) s1)))) ∧
    (∀ (pan fc dsn : Nat) (seg : Byte) (rest : List Byte), crvRuns s = true → (spGet (fun _ => (0, 0, 0)) s.crv.ergFc pan).1 < fc → seg = 0 →
      (let s1 := rfAck 0 (onCrv (fun c => { c with ergFc := spPut (fun _ => (0, 0, 0)) pan (fc % 2 ^ 32, dsn % 256, nowMs s) c.ergFc })
        (bumpReg (rfPage s) 0x074 s))
       exec (.ergRf pan fc dsn true (seg :: rest)) s = .next (settle s
        (ergReceive 2 0 0 rest (onCrv (fun c => { c with ergRx := spPut (fun _ => []) pan [] c.ergRx }) s1))))) ∧
    (∀ pan, exec (.reassemblyTimeout pan) s = .next (onCrv (fun c => { c with ergRx := spPut (fun _ => []) pan [] c.ergRx }) s)) ∧
    exec .floodRecordExpire s = .next
      (onErg (fun g => { g with floods := g.floods.filter fun f => decide (actDiff (nowMs s) f.2.2 < 60000) }) s)

/-- The commands of TWIN for arbitration and pairing (R462-R468, R473). -/
def Obligations.TwinArbitrationCommandsComplete : Prop :=
  ∀ (s : State) (ini : Ini) (v : Word),
    (twinOn s = true → twinCtrl s = true → twinHealthy s = true → exec .arbPulse s = .next (send (.arb (roleB s)) s)) ∧
    (twinOn s = true → (let s1 := setRegB .twin 0x044 13 false (setRegB .twin 0x044 12 true s)
      (twinCtrl s = false → exec .arbEdgePeer s = .next s1) ∧
      (twinCtrl s = true → arbIgnored s = false → (let s2 := raiseIrq .twin 7 (recErr .twin 0x102 s1)
        exec .arbEdgePeer s = .next (settle s (if roleB s then twinYield 1 s2 else s2)))))) ∧
    (twinOn s = true → (let s1 := recErr .twin 0x101 (onTwin (fun t => { t with ownEdge := some s.tb.cycles }) s)
      (twinCtrl s = false ∨ lowerSerial s = true → exec .arbEdgeOwn s = .next s1) ∧
      (twinCtrl s = true → lowerSerial s = false → exec .arbEdgeOwn s = .next (settle s
        (twinYield 1 (onTwin (fun t => { t with clashWait := s.twin.ident.isNone }) s1)))))) ∧
    exec .clashWaitEnd s = .next (onTwin (fun t => { t with clashWait := false }) s) ∧
    (twinOn s = true → (let s1 := setRegB .twin 0x044 13 false (setRegB .twin 0x044 12 false s)
      (twinState s = 3 → s.twin.lost = true → mayTake s1 = true →
        exec (.arbSilent false false) s = .next (settle s (twinTake 1 (nowMs s) s1))) ∧
      (twinState s ≠ 3 → twinState s ≠ 2 → mayTake s1 = true →
        exec (.arbSilent false true) s = .next (settle s (twinTake 1 (nowMs s) s1))) ∧
      (twinState s ≠ 3 → twinState s ≠ 2 → exec (.arbSilent false false) s = .next s1))) ∧
    (writeOpen s ini .twin 0x050 = true → fld v 31 24 = 0x7E →
      exec (.twHealth ini v) s = .next (setRegB .twin 0x044 8 true (answer .ok s))) ∧
    (twinCtrl s = true → exec .healthStale s = .next (settle s (twinYield 1 (setRegB .twin 0x044 8 false s)))) ∧
    (twinCtrl s = false → ∃ t, exec .healthStale s = .next t ∧ regB t .twin 0x044 8 = false ∧ t.mem = s.mem) ∧
    (exec (.presChange true) s = .next (setRegB .twin 0x044 11 true s)) ∧
    (twinEn s = true → exec (.presChange false) s = .next (settle s (setTwinState 0 (setRegF .twin 0x044 10 9 0 (onTwin (fun t =>
      { t with ident := none, agreed := false, clash := false, peerCtrl := false, syncing := false, peerReady := false, out := [], left := false, switchT := none })
      (setRegB .twin 0x044 11 false s)))))) ∧
    (∀ p : TwinIdent, twinOn s = true → twinPres s = true → laneUp s 0 = true → laneUp s 1 = true → s.twin.left = false →
      p.order = regF s .ident 0x044 7 0 → p.fabAddr = fabAddr s → p.sameVersion = true → p.roleB = !roleB s →
      (let s1 := setReg .twin 0x064 (word (p.serial / 2 ^ 32)) (setReg .twin 0x060 (word (p.serial % 2 ^ 32)) s)
       exec (.identityExchange p) s = .next (settle s (pairGoes (setTwinState 1 (onTwin (fun t =>
        { t with ident := some p, agreed := true, clash := false, peerCtrl := p.ctrl, lost := false, seqRx := [] }) s1)))))) ∧
    (twinOn s = true → ofsWithin s 100000 = true →
      (twinState s = 2 → regF s .twin 0x07C 7 0 = 100 → exec .synced s = .next (settle s (raiseIrq .twin 0 (setTwinState 3 s)))) ∧
      (twinState s = 5 → s.twin.syncing = true → jrnLate s = false → exec .synced s = .next (settle s (raiseIrq .twin 0 (setTwinState 4
        (setReg .twin 0x07C 100 (onTwin (fun t => { t with peerReady := true, syncing := false }) s))))))) ∧
    (∀ l : Fin 2, twinOn s = true → twinPres s = true → exec (.laneUp l) s = .next (setRegB .twin 0x044 (9 + l.val) true s))

/-- The commands of TWIN's link and of a switchover (R464, R469-R471, R473, R475, R476, R478). -/
def Obligations.TwinLinkCommandsComplete : Prop :=
  ∀ (s : State) (ini : Ini),
    (∀ (lane : Fin 2) (seq : Nat) (item : LinkItem), twinOn s = true → laneUp s lane.val = true → s.twin.ident.isNone = false →
      (∀ q, item = .ack q → exec (.linkMessage lane seq item) s = .next (settle s (ackRx q s))) ∧
      ((∀ q, item ≠ .ack q) → s.twin.seqRx.contains seq = false →
        (let s1 := send (.link lane.val (s.twin.seqTx + 1) (.ack seq)) (onTwin (fun t => { t with seqTx := (t.seqTx + 1) % 2 ^ 32 }) s)
         exec (.linkMessage lane seq item) s = .next (settle s
          (linkApply item (onTwin (fun t => { t with seqRx := (seq :: t.seqRx).take 64 }) s1)))))) ∧
    (∀ (q : Nat) (o : LinkOut), (s.twin.out.find? fun o => o.seq == q) = some o →
      (o.second = false → (let lane := if laneUp s 0 && laneUp s 1 then 1 - lane1st s else lane1st s
        exec (.linkAckTimeout q) s = .next (send (.link lane q o.item) (bumpRegF .twin 0x074 15 0 (onTwin (fun t =>
          { t with out := t.out.map fun x => if x.seq = q then { x with second := true } else x }) s))))) ∧
      (o.second = true → twinCtrl s = true → exec (.linkAckTimeout q) s = .next (settle s (linkFails s)))) ∧
    (twinOn s = true → twinHealthy s = true → s.twin.ident.isSome = true →
      exec .heartbeat s = .next (settle s (heartbeatTx 1 (heartbeatTx 0 s)))) ∧
    (∀ l : Fin 2, laneUp s l.val = true → s.twin.switchT = none → exec (.laneDown l) s = .next
      (raiseIrq .twin 2 (bumpRegF .twin 0x074 31 16 (setRegB .twin 0x044 (9 + l.val) false s)))) ∧
    (twinOn s = true → s.twin.handing = false → (let s1 := raiseIrq .twin 6 (onTwin (fun t =>
        { t with lost := true, peerCtrl := false, peerReady := false, syncing := false, switchT := none }) s)
      (twinState s = 3 → regB s .twin 0x044 12 = true → exec .peerLost s = .next (settle s (recErr .twin 0x104 (setTwinState 1 s1)))) ∧
      (twinState s = 3 → regB s .twin 0x044 12 = false → mayTake s1 = true →
        exec .peerLost s = .next (settle s (twinTake 1 (nowMs s) s1))) ∧
      (twinState s = 4 → (let s2 := setTwinState 5 (jrnFree (fun _ => true) (onTwin (fun t => { t with out := [] }) s1))
        exec .peerLost s = .next (settle s (if s.twin.switchT.isSome then recErr .twin 0x103 s2 else s2)))))) ∧
    (writeOpen s ini .twin 0x054 = true →
      (twinState s = 4 → twinCtrl s = true → s.twin.switchT = none →
        exec (.switch ini) s = .next (settle s (switchChoose (answer .ok s)))) ∧
      (twinState s = 3 → exec (.switch ini) s = .next (settle s (linkSend .switchReq (answer .ok s)))) ∧
      exec (.detach ini) s = .next (settle s (setTwinState 0 (onTwin (fun t =>
        { t with left := true, agreed := false, peerCtrl := false, syncing := false, peerReady := false, out := [], switchT := none }) (answer .ok s)))) ∧
      (inControl s = false → exec (.resync ini) s = .next (settle s
        (pairGoes (setTwinState 1 (onTwin (fun t => { t with left := false }) (answer .ok s))))))) ∧
    (twinOn s = true → regB s .twin 0x040 3 = true → roleB s = false → twinState s = 3 → twinHealthy s = true →
      exec .reclaim s = .next (settle s (linkSend .switchReq s))) ∧
    (∀ t, s.twin.switchT = some t → twinOn s = true → isDue t (nowMs s) = true → s.twin.handing = false →
      (twinCtrl s = true → exec .switchoverT s = .next (settle s
        (handStep (onTwin (fun x => { x with handing := true, toRelease := twinLines s }) s)))) ∧
      (twinCtrl s = false → twinState s = 3 → exec .switchoverT s = .next (settle s
        (twinTake 0 t (onTwin (fun x => { x with switchT := none, lastT := some s.tb.cycles, peerCtrl := false }) s))))) ∧
    (∀ n : Fin 64, s.twin.toDrive.contains n.val = true → exec (.lineReleased n) s = .next (settle s
      (setPortMode n.val 1 (onTwin (fun t => { t with toDrive := t.toDrive.filter (· != n.val) }) s))))

/-- The commands of OASIS (R484, R486, R487, R489-R494, R497, R498, R500, R541). -/
def Obligations.OasisCommandsComplete : Prop :=
  ∀ (s : State) (ini : Ini) (v : Word),
    (let fly := fun off v => onOas (fun o => { o with flight := some { ini := ini, addr := pageBase .oasis + off, val := some v } }) (answer .ok s)
     s.oas.flight = none →
      (writeOpen s ini .oasis 0x05C = true → exec (.setBin ini) s = .next (fly 0x05C 0x52000001) ∧
        exec (.setCal ini) s = .next (fly 0x05C 0x52000002)) ∧
      (writeOpen s ini .oasis 0x080 = true → exec (.alarmArm ini v) s = .next (fly 0x080 v)) ∧
      (writeOpen s ini .oasis 0x0C4 = true → exec (.rest ini) s = .next (fly 0x0C4 0xDE000001)) ∧
      (writeOpen s ini .oasis 0x104 = true → exec (.tampStatClear ini v) s = .next (fly 0x104 v))) ∧
    (∀ i : Ini, (s.stalled.find? fun y => y.addr / 0x1000 == 0x40150) = none →
      (s.oas.flight = some { ini := i, addr := 0x4015005C, val := some 0x52000001 } →
        ∃ t, exec .syncBusyEnd s = .next t ∧ t.rtc = (regN s .oasis 0x054 * 2 ^ 32 + regN s .oasis 0x050) * 2 ^ 15 + regN s .oasis 0x058 ∧
          regB t .oasis 0x040 0 = true ∧ t.oas.flight = none ∧ t.mem = s.mem) ∧
      (s.oas.flight = some { ini := i, addr := 0x4015005C, val := some 0x52000002 } →
        (let date := reg s .oasis 0x06C
         let time := reg s .oasis 0x070
         calPossible date time = true → ∃ t, exec .syncBusyEnd s = .next t ∧
          t.rtc = (dayNumber (fld date 23 16) (fld date 11 8) (fld date 4 0) * 86400 + fld time 20 16 * 3600 + fld time 13 8 * 60 + fld time 5 0) * 2 ^ 15 ∧
          regB t .oasis 0x074 0 = false ∧ t.oas.flight = none ∧ t.mem = s.mem))) ∧
    (readOpen s ini .oasis = true → ∃ t, exec (.rtcFracRead ini) s = .next t ∧ t.resp = .data (word (s.rtc % 2 ^ 15)) ∧
      regI t .oasis 0x048 ini.id = word (rtcSec s % 2 ^ 32) ∧ regI t .oasis 0x04C ini.id = word (rtcSec s / 2 ^ 32) ∧
      regI t .oasis 0x064 ini.id = calDate (rtcSec s) ∧ regI t .oasis 0x068 ini.id = calTime (rtcSec s) ∧ t.mem = s.mem) ∧
    (∀ k : Fin 2, almArmed s k.val = true → almInstant s k.val ≤ s.rtc →
      exec (.alarmFire k) s = .next (settle s (almFire k.val (s.oas.passed.testBit k.val) s))) ∧
    (regB s .oasis 0x0B0 31 = true → exec .pwake s = .next (settle s
      (wakeSource 2 (raiseIrq .oasis 3 (onOas (fun o => { o with pwakeN := regF s .oasis 0x0B0 23 0 }) s))))) ∧
    (regB s .oasis 0x040 4 = true → exec .pwrOnRelease s = .next (settleTb s (corePor (2 ^ 8) (setRegB .oasis 0x040 8 true
      (setRegB .oasis 0x040 4 false (onOas (fun o => { o with minHold := true, wakes := 0, woke := 0 }) { s with railsOn := false })))))) ∧
    (s.oas.minHold = true →
      (s.oas.wakes = 0 → exec .restMinEnd s = .next (onOas (fun o => { o with minHold := false }) s)) ∧
      (s.oas.wakes ≠ 0 → exec .restMinEnd s = .next (pwrOnAssert s.oas.wakes s))) ∧
    (∀ driven high : Fin 16, (let r := tamperSample driven.val high.val s
      exec (.tamperSample driven high) s = .next (settle s (if r.1.isEmpty then r.2 else tamperResponse r.2)))) ∧
    (∀ b, regB s .oasis 0x100 8 = true → (let s1 := onOas (fun o => { o with meshPrev := b }) s
      exec (.meshCheck b) s = .next (settle s
        (if b && s.oas.meshPrev && !regB s .oasis 0x104 4 then tamperResponse (tamperLatch 4 s1) else s1)))) ∧
    (∀ mv : Nat, regB s .oasis 0x040 8 = false → exec (.vbatMeasure mv) s = .next (settle s
      (levelIrq .oasis 0 (decide (mv < 2200)) (setRegB .oasis 0x040 2 (decide (mv < 2200)) s)))) ∧
    (∃ t, exec .backupPor s = .next t ∧ t.oas = {} ∧ t.rtc = 0 ∧ t.rst.backup = true ∧ t.rst.active = true) ∧
    (s.rst.backup = true → exec .backupPorRelease s = .next (onRst (fun r => { r with backup := false }) (pwrOnAssert 1 s)))

/-- The requests of the security core's mailbox (R507, R511-R513, R515-R521). -/
def Obligations.SecurityRequestsComplete : Prop :=
  ∀ (s : State) (ini : Ini),
    (let r := mbReq s ini
     let s1 := mbTaken s ini
     let k := keySlotOf s r.slot
     let ends := fun c t => exec c s = .next (settle s (mbServed r s1 t))
     (mbOpen s ini 1 = true → (restricted s1 = true → bit k.attr 26 = true) → (ownerAdmits k.attr r.ini = true ∨ r.slot = 0) →
      ends (.info ini) (secOk r [k.attr, word (2 * b01 (shadowOf s1 r.slot).isSome + b01 k.bad), word k.gen] s1)) ∧
     (mbOpen s ini 2 = true → loadRefuses s1 r.slot r.ini (argOf r 15) = none →
      (r.flags = 0 → ends (.load ini) (secDrew (shadowLoad r r.slot (argOf r 15) (freeB s1 32) true false s1))) ∧
      (r.flags = 2 → r.ini = 8 → ends (.load ini)
        (shadowLoad r r.slot (argOf r 15) (argBytes r 0 8) (kType (argOf r 15) == 3 || kType (argOf r 15) == 4) false s1))) ∧
     (∀ x, mbOpen s ini 3 = true → slotBarred s1 r.slot r.ini false = none → shadowNamed s1 r.slot (argOf r 8) = some x →
      takePad 16 (Config.hmacSha256 x.value (ascii ['G', 'L', 'F', '-', 'K', 'A', 'T'] ++ argBytes r 0 4)) = argBytes r 4 4 →
      ends (.verify ini) (secOk r [] (putShadow r.slot (some { x with verified := true }) s1))) ∧
     (∀ x, mbOpen s ini 4 = true → slotBarred s1 r.slot r.ini false = none → bit k.attr 7 = false → shadowNamed s1 r.slot (argOf r 0) = some x →
      x.verified = true → restricted s1 = false → ends (.commit ini)
        (onSec (fun c => { c with run := c.run.map fun y => { y with heals := false } })
          (secOk r [] (putShadow r.slot none (slotCommit r.slot x.value x.attr s1))))) ∧
     (mbOpen s ini 5 = true → slotBarred s1 r.slot r.ini true = none → bit k.attr 7 = false →
      ends (.erase ini) (secOk r [] (slotCommit r.slot (List.replicate 32 0) 0 s1))) ∧
     (mbOpen s ini 6 = true → slotRefuses s1 r.slot r.ini 4 0 = none → secInput r 1 256 = true → bit k.attr 5 = false → r.flags = 0 →
      4 ≤ r.slot2 → r.slot2 ≤ 7 → (let key := takePad 32 (Config.hmacSha256 k.value (memRead s1 r.ptr r.len))
       ends (.derive ini) (secOk r [] (onCryp (fun c => { c with keys := spPut (fun _ => none) r.slot2 (some (key, true)) c.keys }) s1)))) ∧
     (mbOpen s ini 7 = true → slotRefuses s1 r.slot r.ini 2 1 = none → secInput r 0 65536 = true →
      ends (.mac ini) (secOk r (wordsOf (takePad 32 (Config.hmacSha256 k.value (memRead s1 r.ptr r.len)))) s1)) ∧
     (mbOpen s ini 8 = true → slotRefuses s1 r.slot r.ini 3 2 = none →
      ends (.sign ini) (secDrew (secOk r (wordsOf (takePad 64 (Config.ecdsaSign k.value (argBytes r 0 8) (freeB s1 32)))) s1))) ∧
     (mbOpen s ini 9 = true → slotRefuses s1 r.slot r.ini 6 0 = none → slotRefuses s1 r.slot2 r.ini 0 1 = none →
      ends (.wrap ini) (secOk r (wordsOf (takePad 40 (Config.keyWrap (keySlotOf s r.slot2).value k.value))) s1)) ∧
     (mbOpen s ini 10 = true → (4 ≤ r.slot % 8 ∨ (regB s1 .sec 0x040 31 = false ∧ r.ini = 8)) →
      (let ma := takePad 48 (Config.sha384 (maOf s1 (r.slot % 8) ++ argBytes r 0 12))
       ends (.extend ini) (secOk r [] (onSec (fun c => { c with ma := spPut (fun _ => []) (r.slot % 8) ma c.ma }) s1)))) ∧
     (mbOpen s ini 11 = true → slotRefuses s1 r.slot r.ini 2 1 = none →
      ends (.attest ini) (secOk r (wordsOf (takePad 32 (Config.hmacSha256 k.value (attestMessage r s1)))) s1)) ∧
     (mbOpen s ini 12 = true → ends (.nonce ini) (secDrew (secOk r (wordsOf (freeB s1 32)) (onSec (fun c => { c with nonce := some (freeB s1 32) }) s1)))) ∧
     (let t := memRead s1 r.ptr 128
      let n := (t.getD 5 0).toNat
      mbOpen s ini 13 = true → inRam r.ptr 128 = true → t.take 4 = [0x47, 0x53, 0x49, 0x47] → t.getD 4 0 = 1 →
      leNat ((t.drop 8).take 8) = regN s1 .ident 0x04C * 2 ^ 32 + regN s1 .ident 0x048 → s1.sec.nonce = some ((t.drop 16).take 32) →
      slotBarred s1 (n % 64) r.ini false = none → tokenSigned t (keySlotOf s1 (n % 64)) = some true →
      ends (.exec ini) (secOk r [] (totClr (word (leNat ((t.drop 48).take 4)) &&& 0xFFFFFF) (onSec (fun c => { c with nonce := none }) s1)))) ∧
     (∀ op, (op = 0 ∨ 13 < op) → mbOpen s ini op = true → ends (.badOp ini) (secFail r 0x10C s1)))

/-- The ends of mailbox requests, and the commands of CRYP (R513, R518, R521-R523). -/
def Obligations.EngineCommandsComplete : Prop :=
  ∀ (s : State) (ini : Ini) (v : Word) (w : Fin 16),
    (∀ x, s.sec.run = some x → x.err = 0 →
      (x.req.op ≠ 4 → x.req.op ≠ 5 → exec (.mbDone .none) s = .next (settle s (secNext (secEnd x 0 s)))) ∧
      ((x.req.op = 4 ∨ x.req.op = 5) →
        exec (.mbDone .none) s = .next (settle s (secNext (secEnd x 0 (secHeals x (copyBoth x.req.slot s))))) ∧
        exec (.mbDone .retried) s = .next (settle s (secNext (secEnd x 0 (secHeals x (copyBoth x.req.slot (noteTransient .sec s)))))))) ∧
    exec .nonceExpire s = .next (onSec (fun c => { c with nonce := none }) s) ∧
    (readOpen s ini .sec = true → bit (regI s .sec 0x090 ini.id) 1 = true →
      exec (.mbResRead ini w) s = .next (answer (.data (regI s .sec (0x100 + 4 * w.val) ini.id)) s)) ∧
    (let c := reg s .cryp 0x040
     let alg := fld c 3 0
     let key := (crypKey s (fld c 10 8)).getD ([], false)
     let bytes := if alg ≤ 3 then takePad (if bit c 12 then 32 else 16) key.1 else if alg = 6 then key.1 else []
     let job : CrypJob :=
      { alg := alg
        dec := bit c 4
        key := bytes
        src := regN s .cryp 0x048
        dst := regN s .cryp 0x04C
        len := regN s .cryp 0x050
        aad := regN s .cryp 0x054
        iv := (List.range 4).flatMap fun n => leBytes 4 (regN s .cryp (0x060 + 4 * n))
        tag := (List.range 4).flatMap fun n => leBytes 4 (regN s .cryp (0x070 + 4 * n)) }
     let starts := fun x => exec x s = .next (settle s (setReg .cryp 0x044 1 (forEach (fun n t => setReg .cryp (0x100 + 4 * n) 0 t) (List.range 16)
      (onCryp (fun x => { x with job := some job }) (answer .ok s)))))
     workOpen s ini .cryp 0x058 = true → s.cryp.job = none →
      (9 < alg → exec (.algInvalid ini) s = .next (settle s (recErr .cryp 0x103 (setReg .cryp 0x044 4 (answer .ok s))))) ∧
      ((crypKey s (fld c 10 8)).isSome = true →
        (alg = 0 → starts (.aesEcb ini)) ∧ (alg = 1 → starts (.aesCbc ini)) ∧ (alg = 2 → starts (.aesCtr ini)) ∧ (alg = 3 → starts (.aesGcm ini)) ∧
        (alg = 6 → starts (.hmacSha256 ini))) ∧
      (alg = 4 → starts (.sha256 ini)) ∧ (alg = 5 → starts (.sha384 ini)) ∧ (alg = 7 → starts (.p256Verify ini)) ∧
      (alg = 8 → starts (.p384Verify ini)) ∧ (alg = 9 → starts (.drbg ini))) ∧
    (∀ j, s.cryp.job = some j → running s .cryp = true → crypReach j = true →
      exec .crypDone s = .next (settle s (crypEnd (crypWork j s).1 (crypWork j s).2))) ∧
    (writeOpen s ini .cryp 0x0A0 = true → fld v 2 0 < 4 →
      (let k := (List.range 8).flatMap fun n => leBytes 4 (spGet (fun _ => (0 : Word)) s.cryp.data n).toNat
       exec (.crKload ini v) s = .next (onCryp (fun c =>
        { c with data := [], keys := spPut (fun _ => none) (fld v 2 0) (some (if bit v 8 then k else takePad 16 k, bit v 8)) c.keys }) (answer .ok s)))) ∧
    (readOpen s ini .cryp = true → regB s .cryp 0x044 1 = true →
      exec (.crOutRead ini w) s = .next (answer (.data (reg s .cryp (0x100 + 4 * w.val))) s))

/-- The commands of OPTB, and those of RSTCLK and PWR that reset and supply the module (R529, R533, R537, R541-R544, R551, R554). -/
def Obligations.UpdateAndResetCommandsComplete : Prop :=
  ∀ (s : State) (ini : Ini),
    (writeOpen s ini .optb 0x100 = true →
      (let d := (List.range 16).flatMap fun k => leBytes 4 (regN s .optb (0x0C0 + 4 * k))
       let gen := if regF s .optb 0x040 5 4 = 2 then 0 else optGen s.opt
       let body := ([0x47, 0x4F, 0x50, 0x54] : List Byte) ++ leBytes 4 (gen + 1) ++ (d.drop 8).take 52
       optNewValid s d = true → exec (.optCommit ini .ok) s = .next
        (memWrite (optAddr (regF s .optb 0x040 5 4 == 0)) (body ++ leBytes 4 (crc32 body)) (answer .ok s)))) ∧
    (writeOpen s ini .optb 0x108 = true → s.boot.st = 2 →
      (let ret := s.boot.changed.foldl (fun m c => spPut (fun _ => {}) c (actOf s c) m) s.boot.ret
       let s1 := onBoot (fun b => { b with minSvn := max b.minSvn b.svn }) (answer .ok s)
       let s2 := if 2 ≤ s.boot.trials then noteTransient .optb s1 else s1
       exec (.healthy ini .ok) s = .next (settle s (onBoot (fun b => { b with ret := ret, changed := [], staged := false, st := 3 })
        { s2 with nand := nandCopied 2 s2.nand })))) ∧
    (writeOpen s ini .optb 0x110 = true → s.boot.st ≠ 2 →
      exec (.stage ini) s = .next (onBoot (fun b => { b with staged := true, st := 1 }) (answer .ok s)) ∧
      exec (.unstage ini) s = .next (onBoot (fun b => { b with staged := false, st := 0 }) (answer .ok s))) ∧
    exec .resetNAssert s = .next (settleTb s (onRst (fun r => { r with resetN := true }) (episode (2 ^ 13) false s))) ∧
    exec .resetNRelease s = .next (onRst (fun r => { r with resetN := false }) s) ∧
    exec (.corePor false) s = .next (settleTb s (corePor 0 s)) ∧
    exec (.corePor true) s = .next (settleTb s (setRegB .oasis 0x040 8 true (onRst (fun r => { r with vin := false }) (corePor 0 s)))) ∧
    (∀ b : BootFacts, s.rst.active = true → s.rst.resetN = false → s.rst.tcxo = false → s.rst.backup = false → s.railsOn = true →
      (let s1 := setRegB .oasis 0x040 8 false (reasonWrite s)
       let rst := { s1.rst with active := false, por := false, porReach := false, seen := 0, vin := true }
       let evr := { s1.evr with pcyc := if s.rst.porReach then (s1.evr.pcyc + 1) % 2 ^ 24 else s1.evr.pcyc }
       let s3 := setRegB .evr 0x044 0 true (setReg .memc 0x040 1 (pllBoot { s1 with tb := {}, rst := rst, evr := evr }))
       exec (.coreResetRelease b) s = .next (settleTb s
        { metRestore (dfsApply (bootChain b (optRead (identRead b.identFails.val s3)))) with tb := {} }))) ∧
    exec .tcxoLoss s = .next (settleTb s (setRegB .rstclk 0x054 0 false (onRst (fun r => { r with tcxo := true }) (episode (2 ^ 12) false s)))) ∧
    exec .tcxoValid s = .next (setRegB .rstclk 0x054 0 true (onRst (fun r => { r with tcxo := false }) s)) ∧
    (writeOpen s ini .rstclk 0x044 = true → ini.id.val < 9 →
      exec (.wdtKick ini 0x4B49434B) s = .next (setRegB .rstclk 0x048 (16 + ini.id.val) true (answer .ok s))) ∧
    (unkicked s ≠ 0 → exec .wdtWarn s = .next (raiseIrq .rstclk 0 (setRegB .rstclk 0x048 31 true s))) ∧
    (s.rst.active = false →
      (unkicked s = 0 → exec (.watchdog false) s = .next (setReg .rstclk 0x048 0 s)) ∧
      (unkicked s ≠ 0 → exec (.watchdog false) s = .next (settleTb s (episode (2 ^ 12) false s))) ∧
      (s.boot.st = 2 → exec (.watchdog true) s = .next (settleTb s (episode (2 ^ 12) false s))) ∧
      (regB s .pwr 0x044 31 = false →
        (let s1 := setRegB .pwr 0x044 30 true (setRegB .pwr 0x044 31 true (bumpRegF .pwr 0x060 15 0 s))
         exec .pwrFail s = .next (settle s (raiseIrq .pwr 3 (evrPowerFail (metPowerFail (dfsApply
          (used (setReg .pwr 0x05C (word (freeN s % 65536)) s1))))))))) ) ∧
    (writeOpen s ini .rstclk 0x04C = true → exec (.swRst ini 0x57525354) s = .next (settleTb s (episode (2 ^ 12) false (answer .ok s)))) ∧
    (regB s .pwr 0x044 31 = true → exec .pwrOk s = .next (settle s (raiseIrq .pwr 2 (dfsApply
      (setRegB .pwr 0x044 30 false (setRegB .pwr 0x044 31 false (bumpRegF .pwr 0x060 31 16 s)))))))

/-- The commands of the PLLs, of IDLE and of frequency and voltage (R549, R553, R555, R556). -/
def Obligations.ClockAndPowerStateCommandsComplete : Prop :=
  ∀ (s : State) (ini : Ini) (v : Word),
    (∀ p : Fin 8, p.val < 6 → pllOn s p.val = true →
      (let s1 := raiseIrq .rstclk 1 (pllHold p.val true (setRegB .rstclk 0x050 p.val false s))
       exec (.pllUnlock p false) s = .next (onRst (fun r => { r with relock := r.relock ||| 2 ^ p.val }) s1) ∧
       exec (.pllUnlock p true) s = .next (evrOffer .rstclk 0x0011 (leBytes 1 p.val)
        (onRst (fun r => { r with pllOff := r.pllOff ||| 2 ^ p.val, relock := r.relock &&& (63 - 2 ^ p.val) })
          (setRegB .rstclk 0x050 (8 + p.val) false s1)))) ∧
      (let s2 := pllRelocked p.val (pllHold p.val false (setRegB .rstclk 0x050 p.val true s))
       exec (.pllLock p) s = .next (settle s (if p.val = 3 then forEach startDrive (List.range 64) s2 else s2)))) ∧
    (∀ (p : Fin 8) (again : Bool), 6 ≤ p.val →
      (let r : Fin 2 := Fin.ofNat 2 p.val
       let x := rfOf s r.val
       let s1 := raiseIrq (.rf r) 0 (putRf r.val { x with unlocked := true, off := again } s)
       (crvMode s ≠ 0 → crvRadio s = r.val → x.off = false → enabled s (.rf r) = true →
        exec (.pllUnlock p again) s = .next (if again then evrOffer .rstclk 0x0011 (leBytes 1 p.val) s1 else s1)) ∧
       (x.unlocked = true → x.off = false →
        exec (.pllLock p) s = .next (noteTransient (.rf r) (putRf r.val { x with unlocked := false } s))))) ∧
    (writeOpen s ini .pwr 0x048 = true → ini.id.val < 4 →
      ((lanternLines s).any fun n => decide (regF s (linePage n) 0x094 12 0 < 25 * regF s .pwr 0x040 25 16)) = false →
      exec (.idle ini 15) s = .next (settle s (forEach unfix (lanternLines s)
        (setRegB .memc 0x040 3 true (setRegF .pwr 0x044 25 24 1 (answer .ok s)))))) ∧
    (idleMode s = true →
      exec .idlePoll s = .next (settle s (forEach cycleStart (lanternLines s) s)) ∧
      ((List.range 4).any (anyInterrupt s) = true →
        exec .idleExit s = .next (setRegB .memc 0x040 3 false (setRegF .pwr 0x044 25 24 0 s)))) ∧
    (writeOpen s ini .pwr 0x04C = true → ∃ t, exec (.dfsReq ini v) s = .next (settle s (dfsApply t)) ∧ t = plainWrite ini .pwr 0x04C v (answer .ok s)) ∧
    (∀ temp : Int,
      let was := s.rst.therm
      let cap := if 1250 < temp then 0 else if was = 0 ∧ 1200 < temp then 0 else if 1100 < temp then 1 else if was ≤ 1 ∧ 1050 < temp then 1 else 3
      let t := dfsApply (setReg .pwr 0x058 (word (unsigned 16 temp)) (onRst (fun r => { r with therm := cap }) s))
      exec (.thermCap temp) s = .next (settle s (if cap = was then t else raiseIrq .pwr 0 t))) ∧
    (∀ m : Fin 256, regB s .pwr 0x050 31 = false →
      (let step := regF s .pwr 0x054 5 0
       let s0 := setRegF .pwr 0x054 23 16 m.val s
       let put := fun (n h : Nat) => setRegF .pwr 0x054 5 0 n (onRst (fun r => { r with avsHi := h, avsLo := 0 }) s0)
       (regF s .pwr 0x050 7 0 ≤ m.val → m.val ≤ regF s .pwr 0x050 15 8 → exec (.avsTick m) s = .next (put step 0)) ∧
       (m.val < regF s .pwr 0x050 7 0 → step < 50 → exec (.avsTick m) s = .next (put (step + 1) 0)) ∧
       (regF s .pwr 0x050 7 0 ≤ m.val → regF s .pwr 0x050 15 8 < m.val → s.rst.avsHi = 15 →
        exec (.avsTick m) s = .next (put (max (startStep (regF s .pwr 0x04C 17 16)) (step - 1)) 0))))

/-- The commands of the DMA engine (R559, R563-R565). -/
def Obligations.DmaCommandsComplete : Prop :=
  ∀ (s : State) (ini : Ini) (c : Fin 16),
    (workOpen s ini .dma (0x114 + 0x20 * c.val) = true → dmaHalted s = false → chBit s c.val 0 = false →
      exec (.chGo ini c) s = .next (setChStat c.val 1 (setReg .dma (chOff c.val 0xC) (reg s .dma (chOff c.val 0)) (answer .ok s)))) ∧
    (dmaGoes s c.val = true →
      (∀ (ecc : EccEvent) (word' : Nat),
       (let x : DmaRun := { st := s, ecc := ecc, word := word' }
       let f := fetchDesc false c.val x
       let d := descOf (wordsOf f.data)
       f.stop = none →
        (d.bad = true → exec (.descComplete ⟨c, ecc, word'⟩) s = .next (settleTb s (recErr .dma 0x103 (setChStat c.val 8 (dmaEcc f))))) ∧
        (d.bad = false →
          (let r := descRun false d (descFuel d) 0 0 { f with data := [] }
           let wb := 2 ^ 31 + (match r.2 with | some k => 2 ^ 30 + k | none => 0)
           let w := dmaPut false (regN s .dma (chOff c.val 0xC) + 28) (leBytes 4 wb) r.1
           let t := if d.mode = 5 then setReg .dma (chOff c.val 0x10) (match r.2 with | some k => word k | none => 0xFFFFFFFF) (dmaEcc w) else dmaEcc w
           (r.1.stop = none → w.stop = none → exec (.descComplete ⟨c, ecc, word'⟩) s = .next (settleTb s (descNext c.val d r.2.isSome t))) ∧
           (∀ e a, r.1.stop = some (some e, a) →
            exec (.descComplete ⟨c, ecc, word'⟩) s = .next (settleTb s (dmaHalt c.val e a (dmaEcc r.1)))))))) ∧
      (∀ early e a, (fetchDesc early c.val { st := s }).stop = some (some e, a) →
        exec (.dmaHalt c early) s = .next (settleTb s (dmaHalt c.val e a (dmaEcc (fetchDesc early c.val { st := s })))))) ∧
    (writeOpen s ini .dma 0x048 = true → dmaHalted s = true →
      exec (.clearHalt ini) s = .next (settle s (forEach (fun k t => setChStat k (regN t .dma (chOff k 8) &&& 0xA) t) (List.range 16)
        (setRegB .dma 0x040 31 false { answer .ok s with dmaNext := [] }))))

/-- The commands of CMDQ (R570-R574). -/
def Obligations.QueueCommandsComplete : Prop :=
  ∀ (s : State) (ini : Ini) (v : Word),
    (workOpen s ini .cmdq 0x04C = true → cqGood v = true →
      (let e : CqEntry := { addr := v.toNat / 4 * 4, kind := fld v 1 0, data := regI s .cmdq 0x048 ini.id, ini := ini }
       (s.cmdq.entries.length < 32 → exec (.cqPush ini v) s = .next (settle s (cqJoin e (answer .ok s)))) ∧
       (32 ≤ s.cmdq.entries.length →
        exec (.cqPush ini v) s = .next (answer .stalled (onCq (fun q => { q with stalled := q.stalled ++ [e] }) s))))) ∧
    (∀ e rest early, s.cmdq.entries = e :: rest → running s .cmdq = true → cqHalted s = false → regB s .cmdq 0x044 29 = false →
      resetStop early s e.addr = none →
      let fin := fun x => cqDone (if e.tries != 0 then noteTransient .cmdq x else x)
      (e.kind = 0 → cqWaiting s = false → (busWrite e.ini e.addr e.data s).resp = .ok →
        exec (.cqHead early) s = .next (settleTb s (fin (busWrite e.ini e.addr e.data s)))) ∧
      (∀ w, e.kind ≠ 0 → (busRead e.ini e.addr s).resp = .data w →
        (cqWaiting s = false →
          exec (.cqHead early) s = .next (settleTb s (if cqMet e w then fin (busRead e.ini e.addr s) else cqFlags true false (busRead e.ini e.addr s)))) ∧
        (cqWaiting s = true → early = false →
          exec .cqWaitPoll s = .next (settleTb s (if cqMet e w then fin (busRead e.ini e.addr s) else cqFlags true false (busRead e.ini e.addr s)))))) ∧
    (∀ e rest, s.cmdq.entries = e :: rest → cqWaiting s = true → cqHalted s = false → running s .cmdq = true →
      (e.tries = 0 → exec .pollTmo s = .next (onCq (fun q => { q with entries := { e with tries := 1 } :: rest }) s)) ∧
      (e.tries ≠ 0 → exec .pollTmo s = .next (settle s (cqHalt 0x102 s)))) ∧
    (writeOpen s ini .cmdq 0x05C = true →
      (∀ e rest, s.cmdq.entries = e :: rest → cqHalted s = true →
        exec (.cqResume ini) s = .next (setRegB .cmdq 0x044 31 false (cqFlags false false
          (onCq (fun q => { q with entries := { e with tries := 0 } :: rest }) (answer .ok s))))) ∧
      (s.cmdq.stalled = [] → s.cmdq.entries ≠ [] →
        exec (.cqFlush ini) s = .next (settle s (raiseIrq .cmdq 0 (cqFlags false false (onCq (fun q => { q with entries := [] }) (answer .ok s)))))))

/-- The commands of EVQ (R575-R579). -/
def Obligations.StreamCommandsComplete : Prop :=
  ∀ (s : State) (ini : Ini) (k : Fin 8) (v : Word),
    (workOpen s ini .evq (0x120 + 0x40 * k.val) = true → bit (esCfg s k.val) 31 = true → fld v 31 28 ≠ 15 →
      (let item := v.toNat * 2 ^ 32 + (regI s .evq (0x11C + 0x40 * k.val) ini.id).toNat
       (esCount (evStream s k.val) < 4096 →
        exec (.esPush ini k v) s = .next (settle s (esLevel k.val (esCount (evStream s k.val)) (esStore k.val item (answer .ok s))))) ∧
       (4096 ≤ esCount (evStream s k.val) → bit (esCfg s k.val) 16 = true →
        (let s1 := esStore k.val item (answer .ok s)
         let t1 := evStream s1 k.val
         exec (.esPush ini k v) s = .next (settle s (bumpRegF .evq (0x128 + 0x40 * k.val) 31 16 (putStream k.val { t1 with r := (t1.r + 1) % 8192 } s1))))))) ∧
    (readOpen s ini .evq = true → bit (esCfg s k.val) 31 = true → esCount (evStream s k.val) ≠ 0 →
      (let t := evStream s k.val
       let item := spGet (fun _ => 0) t.items (t.r % 4096)
       exec (.esPop ini k) s = .next (answer (.data (word (item % 2 ^ 32))) (setRegI .evq (0x118 + 0x40 * k.val) ini.id (word (item / 2 ^ 32))
        (putStream k.val { t with r := (t.r + 1) % 8192 } s))))) ∧
    (writeOpen s ini .evq (0x124 + 0x40 * k.val) = true →
      (let t := evStream s k.val
       (bit (esCfg s k.val) 16 = true →
        exec (.mark ini k) s = .next (putStream k.val { t with mark := some t.r, lost := false } (answer .ok s)) ∧
        (∀ m, t.lost = false → t.mark = some m →
          exec (.rewind ini k) s = .next (settle s (esLevel k.val (esCount t) (putStream k.val { t with r := m } (answer .ok s))))) ∧
        (t.lost = true → exec (.rewind ini k) s = .next (settle s (esLevel k.val (esCount t)
          (putStream k.val { t with r := esOldest t } (recErr .evq 0x100 (answer .ok s))))))) ∧
       exec (.esFlush ini k) s = .next (putStream k.val { t with r := t.w } (answer .ok s)))) ∧
    (writeOpen s ini .evq (0x100 + 0x40 * k.val) = true → bit (esCfg s k.val) 31 = false →
      (let t := plainWrite ini .evq (0x100 + 0x40 * k.val) (v ||| 0x80000000) (answer .ok s)
       bit (esCfg t k.val) 31 = true → exec (.esEnable ini k v) s = .next (settle s (putStream k.val {} t))))

/-- The commands of EVR (R584-R590). -/
def Obligations.RecorderCommandsComplete : Prop :=
  ∀ (s : State) (ini : Ini) (v : Word),
    (∀ r rest, s.evr.offers = r :: rest → evrAccepts s = true →
      exec (.evrRecord .engine) s = .next { s with evr := { s.evr with offers := rest, queue := s.evr.queue ++ [r] } }) ∧
    (workOpen s ini .evr 0x0B4 = true → bit (regI s .evr 0x0B8 ini.id) 0 = false → fld (regI s .evr 0x080 ini.id) 21 16 ≤ 36 →
      (4 ≤ ini.id.val ∨ 0x8000 ≤ fld (regI s .evr 0x080 ini.id) 15 0) → s.evr.queue.length < 64 →
      (let pay := ((List.range 9).flatMap fun k => leBytes 4 (regI s .evr (0x090 + 4 * k) ini.id).toNat).take (fld (regI s .evr 0x080 ini.id) 21 16)
       let r : EvrRec := { code := fld (regI s .evr 0x080 ini.id) 15 0, pay := pay, src := ini.id.val, loc := locOfIni (serial16 s) ini.id, port := ini.id.val + 1 }
       let t := setRegI .evr 0x0B8 ini.id 1 (answer .ok s)
       exec (.evrRecord (.port ini)) s = .next { t with evr := { s.evr with queue := s.evr.queue ++ [r] } })) ∧
    (∀ h rest, s.evr.queue = h :: rest → evrScanning s = false →
      (let seq := (s.evr.n + 1) % 2 ^ 32
       (s.evr.gap = none → s.evr.waiting = [] → h.port = 0 →
        (let t := memWrite (evrBase + 64 * evrSlot (seq - s.evr.c)) (evrBytes s h seq) s
         exec (.evrWrite .ok) s = .next { t with evr := { s.evr with n := seq, queue := rest } } ∧
         exec (.evrWrite .okOnRetry) s = .next (noteTransient .evr { t with evr := { s.evr with n := seq, queue := rest } }))) ∧
       exec (.evrWrite .failed) s = .next (settle s (evrPop (evrWriteLost h s))))) ∧
    (evrScanning s = true →
      (let v := evrValidSlots s
       let zero := evrRead s 0
       let s0 := setRegB .evr 0x044 0 false s
       let ends := fun s1 =>
        (let bad := (evrHeldSeqs s1.evr).filter fun q => !evrValid (evrRead s1 (evrSlot (q - s1.evr.c)))
         let s2 := evrReseed (setReg .evr 0x05C (word bad.length) s1) v
         exec .evrScan s = .next (settle s { s2 with evr := { s2.evr with queue := evrStart s2 :: s2.evr.queue } }))
       (v = [] → ends (memWrite evrBase (evrBytes s (evrOwn s 0x0004 (leBytes 4 0 ++ leBytes 4 0 ++ leBytes 1 0 ++ leBytes 1 1)) 0)
          { s0 with evr := { s0.evr with c := 0, n := 0 } })) ∧
       (v ≠ [] → evrValid zero = true → evrCode zero = 0x0004 →
        ends { s0 with evr := { s0.evr with c := evrSeq zero, n := listMax (v.map (·.2)) } }))) ∧
    (writeOpen s ini .evr 0x0C0 = true → evrHeld s.evr v.toNat = true →
      (let b := evrRead s (evrSlot (v.toNat - s.evr.c))
       evrValid b = true → evrSeq b = v.toNat →
        exec (.rdSeq ini v) s = .next (settle s (setRegI .evr 0x0C4 ini.id 2
          (forEach (fun k t => setRegI .evr (0x100 + 4 * k) ini.id (word (leNat ((b.drop (4 * k)).take 4))) t) (List.range 16) (answer .ok s)))))) ∧
    (s.railsOn = true → exec .opsecTick s = .next { s with evr := { s.evr with opsec := (s.evr.opsec + 1) % 2 ^ 40 } })

/-- The bus accesses of REG_WRITE and MEM_ACCESS (R20-R25, R630). -/
def Obligations.BusAccessCommandsComplete : Prop :=
  ∀ (s : State) (ini : Ini) (a : Nat) (v : Word),
    (∀ bs r, regionOf a = some r → (r = .sram ∨ r = .mram ∨ r = .dram) → sizeOk a bs.length = true → (∀ k < bs.length, wpByte s (a + k) = false) →
      exec (.memAccess ini (.write a bs) .none) s = .next (answer .ok (memWrite a bs s)) ∧
      (bs = leBytes 4 v.toNat → exec (.regWrite ini a v) s = .next (setMem32 a v (answer .ok s)))) ∧
    (∀ len r, regionOf a = some r → r ≠ .window → ((r = .rom ∨ r = .nor) → ini.id = 8) → sizeOk a len = true →
      exec (.memAccess ini (.read a len) .none) s = .next (answer (.bytes (bytesAt s a len)) (used s))) ∧
    (∀ p, pageAt a = some p → a % 4 = 0 →
      (writeOpen s ini p (a % 0x1000) = true →
        exec (.regWrite ini a v) s = .next (settleTb s (regWrite ini p (a % 0x1000) v (answer .ok s))) ∧
        (a % 0x1000 = 0x010 → exec (.regWrite ini a v) s = .next (setReg p 0x010 (v &&& irqMask p) (answer .ok s)))) ∧
      (readOpen s ini p = true → readPriv ini p (a % 0x1000) = false →
        exec (.memAccess ini (.read a 4) .none) s = .next (settleTb s (regRead ini p (a % 0x1000) s))))

/-- Legal time is an invariant of every step (R70, R72, R74-R76). -/
def Obligations.EveryStepKeepsTimeLegal : Prop :=
  ∀ s t : State, timeLegal s = true → step s = .next t → timeLegal t = true

/-- No command stops, none touches the queue, and only the rows that can move time do (R70, R71). -/
def Obligations.EveryCommandAnswersAndKeepsTheQueue : Prop :=
  ∀ (c : Instr) (s : State), ∃ t, exec c s = .next t ∧ t.pending = s.pending ∧ (mayMoveTime c = false → t.tb = s.tb)

/-- Reset (R26, R28, R70-R73). -/
def Obligations.ResetLeaves : Prop :=
  let s := State.reset
  s.pending = [] ∧ timeLegal s = true ∧ Memory.wf s.mem = true ∧
    (∀ n, (tbOf s.tb n).units = 0 ∧ (tbOf s.tb n).inc = 4 * 2 ^ 32 ∧ (tbOf s.tb n).stepAvail = true ∧ (tbOf s.tb n).stepped = false ∧
      follow s n = (if n = 2 then 1 else 0)) ∧
    (∀ p, reg s p 0x010 = 0 ∧ reg s p 0x014 = 0 ∧ reg s p 0x018 = 0 ∧ reg s p 0x020 = 0) ∧
    enabled s .sys = true ∧ (∀ n, enabled s (.tb n) = true) ∧ enabled s .ttrig = true ∧ enabled s .oasis = true ∧ enabled s .sec = true ∧
    enabled s .memc = true ∧ enabled s .dim = false ∧ enabled s .mir = false ∧ (∀ n, enabled s (.line n) = false)

/-- A cycle of the 250 MHz clock (R70). -/
def Obligations.CycleAddsTheIncrement : Prop :=
  (∀ (s : State) (n : Fin 4), timeLegal s = true → s.pending = [] → clockRuns s = true →
    ∃ t, step s = .next t ∧
      (enabled s (.tb n) = true → (tbOf t.tb n).ns < 1000000000 ∧ (tbOf t.tb n).frac < 2 ^ 32 ∧
        (tbOf t.tb n).units = ((tbOf s.tb n).units + effInc s 4 n) % (2 ^ 48 * 1000000000 * 2 ^ 32) ∧
        (tbOf t.tb n).sec = (if (tbOf s.tb n).ns + ((tbOf s.tb n).frac + effInc s 4 n) / 2 ^ 32 < 1000000000 then (tbOf s.tb n).sec else ((tbOf s.tb n).sec + 1) % 2 ^ 48)) ∧
      (enabled s (.tb n) = false → tbOf t.tb n = tbOf s.tb n)) ∧
  (∀ (s : State) (n : Fin 4), follow s n = 0 → (tbOf s.tb n).slewLeft = 0 → effInc s 4 n = (tbOf s.tb n).inc) ∧
  (∀ (s t : State) (ini : Ini) (n : Fin 4) (v : Word), writeOpen s ini (.tb n) 0x064 = true → follow s n = 0 → (tbOf s.tb n).slewLeft = 0 →
    incInRange ((regF s (.tb n) 0x060 3 0 * 2 ^ 32 + v.toNat : Nat) : Int) = true → exec (.incCommit ini n v) s = .next t →
    (tbOf t.tb n).inc = regF s (.tb n) 0x060 3 0 * 2 ^ 32 + v.toNat) ∧
  (∀ (s t : State) (b : BootFacts) (n : Fin 4), s.rst.active = true → s.rst.resetN = false → s.rst.tcxo = false → s.rst.backup = false → s.railsOn = true →
    exec (.coreResetRelease b) s = .next t → (tbOf t.tb n).units = 0 ∧ (tbOf t.tb n).inc = 4 * 2 ^ 32)

/-- A refused access (R23). -/
def Obligations.RefusedAccessHasNoEffect : Prop :=
  (∀ (s : State) (ini : Ini) (p : Page) (off : Nat) (v : Word), off < 0x1000 → off % 4 = 0 → absentPage p = false →
    ((pageAdmits ini p = false ∨ writeAdmitted ini p off = false) → exec (.regWrite ini (pageBase p + off) v) s = .next (answer (.err .priv) s)) ∧
    ((pageAdmits ini p = false ∨ readPriv ini p off = true) → exec (.memAccess ini (.read (pageBase p + off) 4) .none) s = .next (answer (.err .priv) s))) ∧
  (∃ ini p, pageAdmits ini p = false) ∧ (∃ ini p off, writeAdmitted ini p off = false) ∧ (∃ ini p off, readPriv ini p off = true)

/-- The peripheral window (R22). -/
def Obligations.WindowAccesses : Prop :=
  (∀ (p : Page) (off : Nat), off < 0x1000 → pageAt (pageBase p + off) = some p ∧ 0x40000000 ≤ pageBase p + off ∧ pageBase p + off < 0x80000000) ∧
  (∀ a, regionOf a = some .window ↔ 0x40000000 ≤ a ∧ a < 0x80000000) ∧
  (∀ (s : State) (ini : Ini) (a len : Nat) (bs : List Byte) (v : Word), regionOf a = some .window → pageAt a = none →
    exec (.memAccess ini (.write a bs) .none) s = .next (answer (.err .unmapped) s) ∧
    exec (.memAccess ini (.read a len) .none) s = .next (answer (.err .unmapped) s) ∧
    exec (.regWrite ini a v) s = .next (answer (.err .unmapped) s)) ∧
  (∀ (s : State) (ini : Ini) (a len : Nat) (bs : List Byte) (p : Page), pageAt a = some p →
    ((a % 4 ≠ 0 ∨ bs.length ≠ 4) → exec (.memAccess ini (.write a bs) .none) s = .next (answer (.err .size) s)) ∧
    ((a % 4 ≠ 0 ∨ len ≠ 4) → exec (.memAccess ini (.read a len) .none) s = .next (answer (.err .size) s)))

/-- Block resets that are refused or ignored (R40). -/
def Obligations.BlockResetRefused : Prop :=
  (∀ (s : State) (ini : Ini) (p : Page), (p = .sys ∨ p = .rstclk ∨ p = .pwr ∨ p = .memc ∨ p = .sec ∨ p = .oasis) →
    writeOpen s ini p 0x024 = true → s.rst.active = false →
    exec (.blkRstDatapath ini p) s = .next (recErr p errBadReset (answer .ok s)) ∧ exec (.blkRstFull ini p) s = .next (recErr p errBadReset (answer .ok s)) ∧
    regF (recErr p errBadReset (answer .ok s)) p 0x018 15 0 = 5) ∧
  (∀ (s : State) (ini : Ini) (p : Page) (reach : Fin 16), inReset s p = true → absentPage p = false → pageAdmits ini p = true →
    writeAdmitted ini p 0x024 = true → asleep s p = false → keyHolder s p = 0 → writeIgnored ini p 0x024 = none →
    exec (.blkRstErrors ini p) s = .next (answer .ok s) ∧ exec (.blkRstDatapath ini p) s = .next (answer .ok s) ∧
    exec (.blkRstFull ini p) s = .next (answer .ok s) ∧ exec (.badReset ini p reach) s = .next (answer .ok s))

/-- State halves are protected (R92). -/
def Obligations.StateHalvesAreProtected : Prop :=
  ∀ (s : State) (ini : Ini) (a : Nat), regionOf a = some .dram →
    (∀ (bs : List Byte) (i k : Nat), sizeOk a bs.length = true → i < 12288 → 128 ≤ k → k < 256 →
      a ≤ regN s .ptab 0x040 + 256 * i + k → regN s .ptab 0x040 + 256 * i + k < a + bs.length →
      ∃ t, exec (.memAccess ini (.write a bs) .none) s = .next t ∧ t.resp = .ok ∧ t.mem = s.mem ∧ regF t .memc 0x018 15 0 = 0x100 ∧
        reg t .memc 0x050 = word a ∧ reg t .memc 0x054 = word ini.id.val) ∧
    (∀ len, sizeOk a len = true → exec (.memAccess ini (.read a len) .none) s = .next (answer (.bytes (bytesAt s a len)) (used s)))

/-- A claim takes the best source (R46, R47). -/
def Obligations.ClaimAnswersTheBestSource : Prop :=
  ∀ (s : State) (ini : Ini) (t : Fin 9), readOpen s ini .irqr = true →
    ((∀ n < 256, deliverable s t.val n = false) → exec (.irqClaim ini t) s = .next (answer (.data 0x1FF) s)) ∧
    (∀ m < 256, deliverable s t.val m = true → ∃ n < 256, deliverable s t.val n = true ∧
      (∀ k < 256, deliverable s t.val k = true → fld (routeOf s k) 19 16 ≤ fld (routeOf s n) 19 16) ∧
      (∀ k < n, deliverable s t.val k = true → fld (routeOf s k) 19 16 ≠ fld (routeOf s n) 19 16) ∧
      ∃ u, exec (.irqClaim ini t) s = .next u ∧ u.resp = .data (word n) ∧ spGet (fun _ => 0) u.claims n = t.val + 1 ∧ srcPending u n = false)

/-- Pops (R577), and the first item in is the first out. -/
def Obligations.PushedItemIsPopped : Prop :=
  ∀ (s : State) (ini : Ini) (k : Fin 8),
    (readOpen s ini .evq = true → bit (esCfg s k.val) 31 = true →
      (∀ item, esCount (evStream s k.val) ≠ 0 → spGet (fun _ => 0) (evStream s k.val).items ((evStream s k.val).r % 4096) = item →
        ∃ t, exec (.esPop ini k) s = .next t ∧ t.resp = .data (word (item % 2 ^ 32)) ∧ regI t .evq (0x118 + 0x40 * k.val) ini.id = word (item / 2 ^ 32) ∧
          (evStream t k.val).r = ((evStream s k.val).r + 1) % 8192) ∧
      (esCount (evStream s k.val) = 0 →
        ∃ t, exec (.esPop ini k) s = .next t ∧ t.resp = .data 0 ∧ regI t .evq (0x118 + 0x40 * k.val) ini.id = 0xF0000000 ∧ evStream t k.val = evStream s k.val)) ∧
    (∀ v : Word, workOpen s ini .evq (0x120 + 0x40 * k.val) = true → readOpen s ini .evq = true → bit (esCfg s k.val) 31 = true → fld v 31 28 ≠ 15 →
      (evStream s k.val).w < 8192 → (evStream s k.val).r = (evStream s k.val).w →
      ∃ t u, exec (.esPush ini k v) s = .next t ∧ esCount (evStream t k.val) = 1 ∧ exec (.esPop ini k) t = .next u ∧
        u.resp = .data (regI s .evq (0x11C + 0x40 * k.val) ini.id) ∧ regI u .evq (0x118 + 0x40 * k.val) ini.id = v ∧ esCount (evStream u k.val) = 0)

/-- Who wins, and where the final level lies (R215-R219). -/
def Obligations.ArbitrationAndClamp : Prop :=
  (∀ (s : State) (i t : Nat) (c : List Word),
    (let w := dimWinner s i c t
     (w.1 = 0 → w.2.level = cfgFailsafe c) ∧
     (w.1 ≠ 0 → w.1 ≤ 7 ∧ admits c w.1 = true ∧ reqInEffect (reqOf s i w.1) t = true ∧ w.2 = reqOf s i w.1) ∧
     (∀ p, w.1 < p → p ≤ 7 → ¬(admits c p = true ∧ reqInEffect (reqOf s i p) t = true)))) ∧
  (∀ (s : State) (i p : Nat) (c : List Word) (r : Req), (r.level = 0 ∨ p = 7 → (dimLevel s i c p r).1 = r.level) ∧
    (r.level ≠ 0 → p ≠ 7 → fld (wordAt c 5) 15 0 ≤ fld (wordAt c 5) 31 16 →
      fld (wordAt c 5) 15 0 ≤ (dimLevel s i c p r).1 ∧ (dimLevel s i c p r).1 ≤ fld (wordAt c 5) 31 16))

/-- A store: its bytes, and its frame (R20, R21, R50, R630). -/
def Obligations.StoreIsReadBackAndNothingElse : Prop :=
  ∀ (s : State) (ini : Ini) (a : Nat) (bs : List Byte) (r : Region), regionOf a = some r → (r = .sram ∨ r = .mram ∨ r = .dram) →
    sizeOk a bs.length = true → (∀ k < bs.length, wpByte s (a + k) = false) →
    ∃ t, exec (.memAccess ini (.write a bs) .none) s = .next t ∧ (∀ k (h : k < bs.length), memByte t (a + k) = bs[k]) ∧
      (∀ b, (b < a ∨ a + bs.length ≤ b) → memByte t b = memByte s b) ∧ t.regs = s.regs ∧ t.tb = s.tb ∧ t.pending = s.pending ∧
      (Memory.wf s.mem = true → Memory.wf t.mem = true) ∧
      ((∀ k < bs.length, openByte s (a + k) = false) → ∃ u, exec (.memAccess ini (.read a bs.length) .none) t = .next u ∧ u.resp = .bytes bs)

/-- What EVR_WRITE leaves in memory (R584, R585, R588). -/
def Obligations.WrittenRecordIsValid : Prop :=
  ∀ (s t : State) (h : EvrRec) (rest : List EvrRec), s.evr.queue = h :: rest → evrScanning s = false → s.evr.gap = none →
    exec (.evrWrite .ok) s = .next t →
    (let seq := (s.evr.n + 1) % 2 ^ 32
     let at0 := evrBase + 64 * evrSlot (seq - s.evr.c)
     t.evr.n = seq ∧ evrRead t (evrSlot (seq - s.evr.c)) = evrBytes s h seq ∧
      evrValid (evrRead t (evrSlot (seq - s.evr.c))) = true ∧ evrSeq (evrRead t (evrSlot (seq - s.evr.c))) = seq ∧
      (h.code < 65536 → evrCode (evrRead t (evrSlot (seq - s.evr.c))) = h.code) ∧
      ∀ b, (b < at0 ∨ at0 + 64 ≤ b) → memByte t b = memByte s b)

/-- The frame of the commands that `ownPage` lists (R25, R31, R45, R47, R52, R56, R64, R565, R576, R579). -/
def Obligations.CommandsTouchTheirOwnPage : Prop :=
  ∀ (i : Instr) (p : Page) (s t : State), ownPage i = some p → exec i s = .next t → OnlyPage p s t

/-- An invalid descriptor, and `CH_GO` to a BUSY channel (R566). -/
def Obligations.InvalidDescriptorStopsItsChannel : Prop :=
  (∀ (s : State) (c : Fin 16),
    (let a := regN s .dma (chOff c.val 0xC)
     let ws := wordsOf (bytesAt s a 32)
     let m := fld (ws.getD 0 0) 31 28
     dmaGoes s c.val = true → a % 32 = 0 → 0x10000000 ≤ a → a + 32 ≤ 0x10400000 →
      (5 < m ∨ bit (ws.getD 0 0) 24 = true ∨ fld (ws.getD 0 0) 23 0 = 0 ∨
        ((m = 1 ∨ m = 2 ∨ m = 3) ∧ (fld (ws.getD 4 0) 15 0 = 0 ∨ fld (ws.getD 4 0) 31 16 ≠ 0)) ∨
        (bit (ws.getD 0 0) 26 = false ∧ (ws.getD 3 0).toNat % 32 ≠ 0) ∨ ((m = 2 ∨ m = 3) ∧ (ws.getD 5 0).toNat % 4 ≠ 0)) →
      ∀ (ecc : EccEvent) (w : Nat), ∃ t, exec (.descComplete ⟨c, ecc, w⟩) s = .next t ∧ regN t .dma (chOff c.val 8) = 8 ∧ regF t .dma 0x018 15 0 = 0x103 ∧
        (∀ k : Fin 16, k ≠ c → reg t .dma (chOff k.val 8) = reg s .dma (chOff k.val 8)) ∧ SameMem s t)) ∧
  (∀ (s : State) (ini : Ini) (c : Fin 16),
    workOpen s ini .dma (0x114 + 0x20 * c.val) = true → dmaHalted s = false → chBit s c.val 0 = true →
      exec (.chGo ini c) s = .next (recErr .dma 0x102 (answer .ok s)))
end

