-- ==== Sys2Proof/Decode.lean ====
section
/-! DEFINITION. The command that a word of the table spells: the table gives bits to no row. -/
namespace Sys2Proof

/-- No row of the table of operations and events has bits, so no word spells a command (log 33). -/
def decodeTableWord (_ _ : Nat) : Option Instr := none

end Sys2Proof
end

