-- ==== Sys2Proof/Laws/Bits.lean ====
section
/-! SUPPORT. Bits and fields of a word: what setting one leaves in the others. -/
namespace Sys2Proof.Machine

theorem bit_eq (w : Word) (n : Nat) : bit w n = w.getLsbD n := rfl

theorem word_bit (k n : Nat) (h : k < 32) : (word (1 <<< k)).getLsbD n = decide (n = k) := by
  simp only [word, BitVec.getLsbD_ofNat, Nat.one_shiftLeft, Nat.testBit_two_pow]
  by_cases e : n = k
  · simp [e, h]
  · simp [e, Ne.symm e]

/-- A bit that was set or cleared. -/
theorem bit_setBit_self (w : Word) (n : Nat) (b : Bool) (h : n < 32) : bit (setBit w n b) n = b := by
  cases b
  · simp only [bit_eq, setBit, Bool.false_eq_true, if_false, BitVec.getLsbD_and, BitVec.getLsbD_not, word_bit _ _ h]; simp
  · simp only [bit_eq, setBit, if_true, BitVec.getLsbD_or, word_bit _ _ h]; simp

/-- Another bit. -/
theorem bit_setBit_ne (w : Word) (n m : Nat) (b : Bool) (h : n < 32) (e : m ≠ n) : bit (setBit w n b) m = bit w m := by
  by_cases hm : m < 32
  · cases b
    · simp only [bit_eq, setBit, Bool.false_eq_true, if_false, BitVec.getLsbD_and, BitVec.getLsbD_not, word_bit _ _ h]; simp [e, hm]
    · simp only [bit_eq, setBit, if_true, BitVec.getLsbD_or, word_bit _ _ h]; simp [e]
  · have h1 : ∀ x : Word, x.getLsbD m = false := fun x => BitVec.getLsbD_of_ge x m (by omega)
    simp only [bit_eq, h1]

theorem bit_and (a b : Word) (n : Nat) : bit (a &&& b) n = (bit a n && bit b n) := by simp only [bit_eq, BitVec.getLsbD_and]
theorem bit_or (a b : Word) (n : Nat) : bit (a ||| b) n = (bit a n || bit b n) := by simp only [bit_eq, BitVec.getLsbD_or]

theorem maskOf_bit (hi lo n : Nat) (h : hi < 32) : (maskOf hi lo).getLsbD n = decide (lo ≤ n ∧ n ≤ hi) := by
  simp only [maskOf, word, BitVec.getLsbD_ofNat, Nat.testBit_shiftLeft, Nat.testBit_two_pow_sub_one]
  by_cases h1 : lo ≤ n
  · by_cases h2 : n ≤ hi
    · simp [h1, h2]; omega
    · simp [h1, h2]; omega
  · simp [h1]

/-- A bit of a word whose field was set: the field's bit inside, the old bit outside. -/
theorem bit_setFld (w : Word) (hi lo v n : Nat) (h : hi < 32) :
    bit (setFld w hi lo v) n = if lo ≤ n ∧ n ≤ hi then v.testBit (n - lo) else bit w n := by
  by_cases hn : n < 32
  · simp only [bit_eq, setFld, BitVec.getLsbD_or, BitVec.getLsbD_and, BitVec.getLsbD_not, maskOf_bit _ _ _ h, word,
      BitVec.getLsbD_ofNat, Nat.testBit_shiftLeft]
    by_cases hc : lo ≤ n ∧ n ≤ hi
    · simp [hc, hn]
    · simp only [hc, decide_false, hn]; simp
  · have h1 : ∀ x : Word, x.getLsbD n = false := fun x => BitVec.getLsbD_of_ge x n (by omega)
    rw [if_neg (by omega)]
    simp only [bit_eq, h1]

/-- A field, bit by bit. -/
theorem fld_testBit (w : Word) (hi lo k : Nat) : (fld w hi lo).testBit k = (decide (k < hi + 1 - lo) && bit w (lo + k)) := by
  simp only [fld, nfld, bit, Nat.testBit_mod_two_pow, Nat.testBit_shiftRight]

/-- A field that was set. -/
theorem fld_setFld_self (w : Word) (hi lo v : Nat) (h : hi < 32) (hl : lo ≤ hi) (hv : v < 2 ^ (hi + 1 - lo)) :
    fld (setFld w hi lo v) hi lo = v := by
  apply Nat.eq_of_testBit_eq
  intro k
  rw [fld_testBit, bit_setFld _ _ _ _ _ h]
  by_cases hk : k < hi + 1 - lo
  · rw [if_pos (by omega), Nat.add_sub_cancel_left]; simp [hk]
  · rw [decide_eq_false hk, Bool.false_and, Nat.testBit_lt_two_pow]
    exact Nat.lt_of_lt_of_le hv (Nat.pow_le_pow_right (by decide) (by omega))

/-- A field that lies apart from the one that was set. -/
theorem fld_setFld_ne (w : Word) (hi lo v hi' lo' : Nat) (h : hi < 32) (e : hi' < lo ∨ hi < lo') :
    fld (setFld w hi lo v) hi' lo' = fld w hi' lo' := by
  apply Nat.eq_of_testBit_eq
  intro k
  rw [fld_testBit, fld_testBit, bit_setFld _ _ _ _ _ h]
  by_cases hk : k < hi' + 1 - lo'
  · rw [if_neg (by omega)]
  · simp [hk]

end Sys2Proof.Machine
end

