-- ==== Sys2Proof/Laws/Sparse.lean ====
section
/-! SUPPORT. The laws of sparse maps: a read after a write, and the canonical form. -/
namespace Sys2Proof.Machine

variable {α : Type}

@[simp] theorem spGet_nil (d : Nat → α) (k : Nat) : spGet d [] k = d k := rfl

theorem spGet_spIns_self (d : Nat → α) (k : Nat) (v : α) (l : Sparse α) : spGet d (spIns k v l) k = v := by
  induction l with
  | nil => simp [spIns, spGet]
  | cons x l ih =>
    obtain ⟨a, w⟩ := x
    simp only [spIns]
    split
    · simp [spGet]
    · split
      · simp [spGet]
      · simp [spGet, *]

theorem spGet_spIns_other (d : Nat → α) {k j : Nat} (h : k ≠ j) (v : α) (l : Sparse α) :
    spGet d (spIns k v l) j = spGet d l j := by
  induction l with
  | nil => simp [spIns, spGet, h]
  | cons x l ih =>
    obtain ⟨a, w⟩ := x
    simp only [spIns]
    split
    · simp [spGet, h]
    · split
      · rename_i hak; subst hak; simp [spGet, h]
      · simp [spGet, ih]

theorem spGet_spDel_self (d : Nat → α) (k : Nat) (l : Sparse α) : spGet d (spDel k l) k = d k := by
  induction l with
  | nil => rfl
  | cons x l ih =>
    obtain ⟨a, w⟩ := x
    simp only [spDel]
    split
    · exact ih
    · simp [spGet, *]

theorem spGet_spDel_other (d : Nat → α) {k j : Nat} (h : k ≠ j) (l : Sparse α) : spGet d (spDel k l) j = spGet d l j := by
  induction l with
  | nil => rfl
  | cons x l ih =>
    obtain ⟨a, w⟩ := x
    simp only [spDel]
    split
    · rename_i hak; subst hak; simp [spGet, h, ih]
    · simp [spGet, ih]

/-- A read after a write to the same key. -/
@[simp] theorem spGet_spPut_self [DecidableEq α] (d : Nat → α) (k : Nat) (v : α) (l : Sparse α) :
    spGet d (spPut d k v l) k = v := by
  unfold spPut
  split
  · rename_i hv; rw [spGet_spDel_self, hv]
  · exact spGet_spIns_self d k v l

/-- A write leaves every other key alone. -/
theorem spGet_spPut_other [DecidableEq α] (d : Nat → α) {k j : Nat} (h : k ≠ j) (v : α) (l : Sparse α) :
    spGet d (spPut d k v l) j = spGet d l j := by
  unfold spPut
  split
  · exact spGet_spDel_other d h l
  · exact spGet_spIns_other d h v l

/-- A read after a write, either way. -/
theorem spGet_spPut [DecidableEq α] (d : Nat → α) (k j : Nat) (v : α) (l : Sparse α) :
    spGet d (spPut d k v l) j = if k = j then v else spGet d l j := by
  split
  · rename_i h; subst h; exact spGet_spPut_self d k v l
  · rename_i h; exact spGet_spPut_other d h v l

theorem spWfFrom_mono [DecidableEq α] {d : Nat → α} {lo lo' : Nat} (h : lo' ≤ lo) {l : Sparse α} (w : spWfFrom d lo l = true) :
    spWfFrom d lo' l = true := by
  cases l with
  | nil => rfl
  | cons x l =>
    obtain ⟨a, v⟩ := x
    simp only [spWfFrom, Bool.and_eq_true, decide_eq_true_eq] at w ⊢
    exact ⟨⟨by omega, w.1.2⟩, w.2⟩

theorem spDel_wfFrom [DecidableEq α] {d : Nat → α} (k : Nat) {lo : Nat} {l : Sparse α} (w : spWfFrom d lo l = true) :
    spWfFrom d lo (spDel k l) = true := by
  induction l generalizing lo with
  | nil => rfl
  | cons x l ih =>
    obtain ⟨a, v⟩ := x
    simp only [spWfFrom, Bool.and_eq_true, decide_eq_true_eq] at w
    simp only [spDel]
    split
    · exact ih (spWfFrom_mono (by omega) w.2)
    · simp only [spWfFrom, Bool.and_eq_true, decide_eq_true_eq]
      exact ⟨w.1, ih w.2⟩

theorem spIns_wfFrom [DecidableEq α] {d : Nat → α} {k : Nat} {v : α} (hv : v ≠ d k) {lo : Nat} (hk : lo ≤ k) {l : Sparse α}
    (w : spWfFrom d lo l = true) : spWfFrom d lo (spIns k v l) = true := by
  induction l generalizing lo with
  | nil => simp [spIns, spWfFrom, hk, hv]
  | cons x l ih =>
    obtain ⟨a, u⟩ := x
    simp only [spWfFrom, Bool.and_eq_true, decide_eq_true_eq] at w
    simp only [spIns]
    split
    · simp only [spWfFrom, Bool.and_eq_true, decide_eq_true_eq]
      exact ⟨⟨hk, hv⟩, ⟨by omega, w.1.2⟩, w.2⟩
    · split
      · rename_i h; subst h
        simp only [spWfFrom, Bool.and_eq_true, decide_eq_true_eq]
        exact ⟨⟨hk, hv⟩, w.2⟩
      · simp only [spWfFrom, Bool.and_eq_true, decide_eq_true_eq]
        exact ⟨w.1, ih (by omega) w.2⟩

/-- A write keeps the canonical form. -/
theorem spPut_wf [DecidableEq α] (d : Nat → α) (k : Nat) (v : α) {l : Sparse α} (w : spWf d l = true) :
    spWf d (spPut d k v l) = true := by
  unfold spPut
  split
  · exact spDel_wfFrom k w
  · rename_i hv; exact spIns_wfFrom hv (Nat.zero_le k) w

/-- Removing entries keeps the canonical form. -/
theorem spWf_filter [DecidableEq α] (d : Nat → α) (p : Nat × α → Bool) {l : Sparse α} (w : spWf d l = true) :
    spWf d (l.filter p) = true := by
  suffices h : ∀ lo, spWfFrom d lo l = true → spWfFrom d lo (l.filter p) = true from h 0 w
  intro lo w
  induction l generalizing lo with
  | nil => rfl
  | cons x l ih =>
    obtain ⟨a, v⟩ := x
    simp only [spWfFrom, Bool.and_eq_true, decide_eq_true_eq] at w
    have hl := ih (by exact spWfFrom_mono (Nat.zero_le _) w.2) (a + 1) w.2
    simp only [List.filter]
    split
    · simp only [spWfFrom, Bool.and_eq_true, decide_eq_true_eq]; exact ⟨w.1, hl⟩
    · exact spWfFrom_mono (by omega) hl

end Sys2Proof.Machine
end

