-- ==== Sys2Proof/Laws/State.lean ====
section
/-! SUPPORT. What each named update of State leaves in each field, so that no proof unfolds a record update. -/
namespace Sys2Proof.Machine

/-! ### A new regs -/

theorem pending_with_regs (s : State) (x : Sparse Word) : { s with regs := x }.pending = s.pending := rfl
theorem tb_with_regs (s : State) (x : Sparse Word) : { s with regs := x }.tb = s.tb := rfl
theorem freeCtr_with_regs (s : State) (x : Sparse Word) : { s with regs := x }.freeCtr = s.freeCtr := rfl
theorem resp_with_regs (s : State) (x : Sparse Word) : { s with regs := x }.resp = s.resp := rfl
theorem mem_with_regs (s : State) (x : Sparse Word) : { s with regs := x }.mem = s.mem := rfl
theorem lockKey_with_regs (s : State) (x : Sparse Word) : { s with regs := x }.lockKey = s.lockKey := rfl
theorem resetting_with_regs (s : State) (x : Sparse Word) : { s with regs := x }.resetting = s.resetting := rfl
theorem epoch_with_regs (s : State) (x : Sparse Word) : { s with regs := x }.epoch = s.epoch := rfl
theorem stalled_with_regs (s : State) (x : Sparse Word) : { s with regs := x }.stalled = s.stalled := rfl
theorem claims_with_regs (s : State) (x : Sparse Word) : { s with regs := x }.claims = s.claims := rfl
theorem swi_with_regs (s : State) (x : Sparse Word) : { s with regs := x }.swi = s.swi := rfl
theorem sent_with_regs (s : State) (x : Sparse Word) : { s with regs := x }.sent = s.sent := rfl
theorem nand_with_regs (s : State) (x : Sparse Word) : { s with regs := x }.nand = s.nand := rfl
theorem cont_with_regs (s : State) (x : Sparse Word) : { s with regs := x }.cont = s.cont := rfl
theorem ser_with_regs (s : State) (x : Sparse Word) : { s with regs := x }.ser = s.ser := rfl
theorem usb_with_regs (s : State) (x : Sparse Word) : { s with regs := x }.usb = s.usb := rfl
theorem trg_with_regs (s : State) (x : Sparse Word) : { s with regs := x }.trg = s.trg := rfl
theorem cap_with_regs (s : State) (x : Sparse Word) : { s with regs := x }.cap = s.cap := rfl
theorem detIn_with_regs (s : State) (x : Sparse Word) : { s with regs := x }.detIn = s.detIn := rfl
theorem det_with_regs (s : State) (x : Sparse Word) : { s with regs := x }.det = s.det := rfl
theorem mir_with_regs (s : State) (x : Sparse Word) : { s with regs := x }.mir = s.mir := rfl
theorem ptab_with_regs (s : State) (x : Sparse Word) : { s with regs := x }.ptab = s.ptab := rfl
theorem evq_with_regs (s : State) (x : Sparse Word) : { s with regs := x }.evq = s.evq := rfl
theorem evr_with_regs (s : State) (x : Sparse Word) : { s with regs := x }.evr = s.evr := rfl
theorem line_with_regs (s : State) (x : Sparse Word) : { s with regs := x }.line = s.line := rfl
theorem pix_with_regs (s : State) (x : Sparse Word) : { s with regs := x }.pix = s.pix := rfl
theorem dim_with_regs (s : State) (x : Sparse Word) : { s with regs := x }.dim = s.dim := rfl
theorem sched_with_regs (s : State) (x : Sparse Word) : { s with regs := x }.sched = s.sched := rfl
theorem attr_with_regs (s : State) (x : Sparse Word) : { s with regs := x }.attr = s.attr := rfl
theorem diag_with_regs (s : State) (x : Sparse Word) : { s with regs := x }.diag = s.diag := rfl
theorem nupd_with_regs (s : State) (x : Sparse Word) : { s with regs := x }.nupd = s.nupd := rfl
theorem met_with_regs (s : State) (x : Sparse Word) : { s with regs := x }.met = s.met := rfl
theorem crv_with_regs (s : State) (x : Sparse Word) : { s with regs := x }.crv = s.crv := rfl
theorem eth_with_regs (s : State) (x : Sparse Word) : { s with regs := x }.eth = s.eth := rfl
theorem erg_with_regs (s : State) (x : Sparse Word) : { s with regs := x }.erg = s.erg := rfl
theorem twin_with_regs (s : State) (x : Sparse Word) : { s with regs := x }.twin = s.twin := rfl
theorem opt_with_regs (s : State) (x : Sparse Word) : { s with regs := x }.opt = s.opt := rfl
theorem keys_with_regs (s : State) (x : Sparse Word) : { s with regs := x }.keys = s.keys := rfl
theorem rtc_with_regs (s : State) (x : Sparse Word) : { s with regs := x }.rtc = s.rtc := rfl
theorem railsOn_with_regs (s : State) (x : Sparse Word) : { s with regs := x }.railsOn = s.railsOn := rfl
theorem oas_with_regs (s : State) (x : Sparse Word) : { s with regs := x }.oas = s.oas := rfl
theorem rst_with_regs (s : State) (x : Sparse Word) : { s with regs := x }.rst = s.rst := rfl
theorem sec_with_regs (s : State) (x : Sparse Word) : { s with regs := x }.sec = s.sec := rfl
theorem cryp_with_regs (s : State) (x : Sparse Word) : { s with regs := x }.cryp = s.cryp := rfl
theorem boot_with_regs (s : State) (x : Sparse Word) : { s with regs := x }.boot = s.boot := rfl
theorem dmaNext_with_regs (s : State) (x : Sparse Word) : { s with regs := x }.dmaNext = s.dmaNext := rfl
theorem cmdq_with_regs (s : State) (x : Sparse Word) : { s with regs := x }.cmdq = s.cmdq := rfl
theorem transient_with_regs (s : State) (x : Sparse Word) : { s with regs := x }.transient = s.transient := rfl

/-! ### A new mem -/

theorem pending_with_mem (s : State) (x : List Host.Cell) : { s with mem := x }.pending = s.pending := rfl
theorem tb_with_mem (s : State) (x : List Host.Cell) : { s with mem := x }.tb = s.tb := rfl
theorem freeCtr_with_mem (s : State) (x : List Host.Cell) : { s with mem := x }.freeCtr = s.freeCtr := rfl
theorem resp_with_mem (s : State) (x : List Host.Cell) : { s with mem := x }.resp = s.resp := rfl
theorem regs_with_mem (s : State) (x : List Host.Cell) : { s with mem := x }.regs = s.regs := rfl
theorem lockKey_with_mem (s : State) (x : List Host.Cell) : { s with mem := x }.lockKey = s.lockKey := rfl
theorem resetting_with_mem (s : State) (x : List Host.Cell) : { s with mem := x }.resetting = s.resetting := rfl
theorem epoch_with_mem (s : State) (x : List Host.Cell) : { s with mem := x }.epoch = s.epoch := rfl
theorem stalled_with_mem (s : State) (x : List Host.Cell) : { s with mem := x }.stalled = s.stalled := rfl
theorem claims_with_mem (s : State) (x : List Host.Cell) : { s with mem := x }.claims = s.claims := rfl
theorem swi_with_mem (s : State) (x : List Host.Cell) : { s with mem := x }.swi = s.swi := rfl
theorem sent_with_mem (s : State) (x : List Host.Cell) : { s with mem := x }.sent = s.sent := rfl
theorem nand_with_mem (s : State) (x : List Host.Cell) : { s with mem := x }.nand = s.nand := rfl
theorem cont_with_mem (s : State) (x : List Host.Cell) : { s with mem := x }.cont = s.cont := rfl
theorem ser_with_mem (s : State) (x : List Host.Cell) : { s with mem := x }.ser = s.ser := rfl
theorem usb_with_mem (s : State) (x : List Host.Cell) : { s with mem := x }.usb = s.usb := rfl
theorem trg_with_mem (s : State) (x : List Host.Cell) : { s with mem := x }.trg = s.trg := rfl
theorem cap_with_mem (s : State) (x : List Host.Cell) : { s with mem := x }.cap = s.cap := rfl
theorem detIn_with_mem (s : State) (x : List Host.Cell) : { s with mem := x }.detIn = s.detIn := rfl
theorem det_with_mem (s : State) (x : List Host.Cell) : { s with mem := x }.det = s.det := rfl
theorem mir_with_mem (s : State) (x : List Host.Cell) : { s with mem := x }.mir = s.mir := rfl
theorem ptab_with_mem (s : State) (x : List Host.Cell) : { s with mem := x }.ptab = s.ptab := rfl
theorem evq_with_mem (s : State) (x : List Host.Cell) : { s with mem := x }.evq = s.evq := rfl
theorem evr_with_mem (s : State) (x : List Host.Cell) : { s with mem := x }.evr = s.evr := rfl
theorem line_with_mem (s : State) (x : List Host.Cell) : { s with mem := x }.line = s.line := rfl
theorem pix_with_mem (s : State) (x : List Host.Cell) : { s with mem := x }.pix = s.pix := rfl
theorem dim_with_mem (s : State) (x : List Host.Cell) : { s with mem := x }.dim = s.dim := rfl
theorem sched_with_mem (s : State) (x : List Host.Cell) : { s with mem := x }.sched = s.sched := rfl
theorem attr_with_mem (s : State) (x : List Host.Cell) : { s with mem := x }.attr = s.attr := rfl
theorem diag_with_mem (s : State) (x : List Host.Cell) : { s with mem := x }.diag = s.diag := rfl
theorem nupd_with_mem (s : State) (x : List Host.Cell) : { s with mem := x }.nupd = s.nupd := rfl
theorem met_with_mem (s : State) (x : List Host.Cell) : { s with mem := x }.met = s.met := rfl
theorem crv_with_mem (s : State) (x : List Host.Cell) : { s with mem := x }.crv = s.crv := rfl
theorem eth_with_mem (s : State) (x : List Host.Cell) : { s with mem := x }.eth = s.eth := rfl
theorem erg_with_mem (s : State) (x : List Host.Cell) : { s with mem := x }.erg = s.erg := rfl
theorem twin_with_mem (s : State) (x : List Host.Cell) : { s with mem := x }.twin = s.twin := rfl
theorem opt_with_mem (s : State) (x : List Host.Cell) : { s with mem := x }.opt = s.opt := rfl
theorem keys_with_mem (s : State) (x : List Host.Cell) : { s with mem := x }.keys = s.keys := rfl
theorem rtc_with_mem (s : State) (x : List Host.Cell) : { s with mem := x }.rtc = s.rtc := rfl
theorem railsOn_with_mem (s : State) (x : List Host.Cell) : { s with mem := x }.railsOn = s.railsOn := rfl
theorem oas_with_mem (s : State) (x : List Host.Cell) : { s with mem := x }.oas = s.oas := rfl
theorem rst_with_mem (s : State) (x : List Host.Cell) : { s with mem := x }.rst = s.rst := rfl
theorem sec_with_mem (s : State) (x : List Host.Cell) : { s with mem := x }.sec = s.sec := rfl
theorem cryp_with_mem (s : State) (x : List Host.Cell) : { s with mem := x }.cryp = s.cryp := rfl
theorem boot_with_mem (s : State) (x : List Host.Cell) : { s with mem := x }.boot = s.boot := rfl
theorem dmaNext_with_mem (s : State) (x : List Host.Cell) : { s with mem := x }.dmaNext = s.dmaNext := rfl
theorem cmdq_with_mem (s : State) (x : List Host.Cell) : { s with mem := x }.cmdq = s.cmdq := rfl
theorem transient_with_mem (s : State) (x : List Host.Cell) : { s with mem := x }.transient = s.transient := rfl

/-! ### answer -/

@[simp] theorem answer_pending (r : Resp) (s : State) : (answer r s).pending = s.pending := rfl
@[simp] theorem answer_tb (r : Resp) (s : State) : (answer r s).tb = s.tb := rfl
@[simp] theorem answer_freeCtr (r : Resp) (s : State) : (answer r s).freeCtr = s.freeCtr := rfl
@[simp] theorem answer_resp (r : Resp) (s : State) : (answer r s).resp = r := rfl
@[simp] theorem answer_regs (r : Resp) (s : State) : (answer r s).regs = s.regs := rfl
@[simp] theorem answer_mem (r : Resp) (s : State) : (answer r s).mem = s.mem := rfl
@[simp] theorem answer_lockKey (r : Resp) (s : State) : (answer r s).lockKey = s.lockKey := rfl
@[simp] theorem answer_resetting (r : Resp) (s : State) : (answer r s).resetting = s.resetting := rfl
@[simp] theorem answer_epoch (r : Resp) (s : State) : (answer r s).epoch = s.epoch := rfl
@[simp] theorem answer_stalled (r : Resp) (s : State) : (answer r s).stalled = s.stalled := rfl
@[simp] theorem answer_claims (r : Resp) (s : State) : (answer r s).claims = s.claims := rfl
@[simp] theorem answer_swi (r : Resp) (s : State) : (answer r s).swi = s.swi := rfl
@[simp] theorem answer_sent (r : Resp) (s : State) : (answer r s).sent = s.sent := rfl
@[simp] theorem answer_nand (r : Resp) (s : State) : (answer r s).nand = s.nand := rfl
@[simp] theorem answer_cont (r : Resp) (s : State) : (answer r s).cont = s.cont := rfl
@[simp] theorem answer_ser (r : Resp) (s : State) : (answer r s).ser = s.ser := rfl
@[simp] theorem answer_usb (r : Resp) (s : State) : (answer r s).usb = s.usb := rfl
@[simp] theorem answer_trg (r : Resp) (s : State) : (answer r s).trg = s.trg := rfl
@[simp] theorem answer_cap (r : Resp) (s : State) : (answer r s).cap = s.cap := rfl
@[simp] theorem answer_detIn (r : Resp) (s : State) : (answer r s).detIn = s.detIn := rfl
@[simp] theorem answer_det (r : Resp) (s : State) : (answer r s).det = s.det := rfl
@[simp] theorem answer_mir (r : Resp) (s : State) : (answer r s).mir = s.mir := rfl
@[simp] theorem answer_ptab (r : Resp) (s : State) : (answer r s).ptab = s.ptab := rfl
@[simp] theorem answer_evq (r : Resp) (s : State) : (answer r s).evq = s.evq := rfl
@[simp] theorem answer_evr (r : Resp) (s : State) : (answer r s).evr = s.evr := rfl
@[simp] theorem answer_line (r : Resp) (s : State) : (answer r s).line = s.line := rfl
@[simp] theorem answer_pix (r : Resp) (s : State) : (answer r s).pix = s.pix := rfl
@[simp] theorem answer_dim (r : Resp) (s : State) : (answer r s).dim = s.dim := rfl
@[simp] theorem answer_sched (r : Resp) (s : State) : (answer r s).sched = s.sched := rfl
@[simp] theorem answer_attr (r : Resp) (s : State) : (answer r s).attr = s.attr := rfl
@[simp] theorem answer_diag (r : Resp) (s : State) : (answer r s).diag = s.diag := rfl
@[simp] theorem answer_nupd (r : Resp) (s : State) : (answer r s).nupd = s.nupd := rfl
@[simp] theorem answer_met (r : Resp) (s : State) : (answer r s).met = s.met := rfl
@[simp] theorem answer_crv (r : Resp) (s : State) : (answer r s).crv = s.crv := rfl
@[simp] theorem answer_eth (r : Resp) (s : State) : (answer r s).eth = s.eth := rfl
@[simp] theorem answer_erg (r : Resp) (s : State) : (answer r s).erg = s.erg := rfl
@[simp] theorem answer_twin (r : Resp) (s : State) : (answer r s).twin = s.twin := rfl
@[simp] theorem answer_opt (r : Resp) (s : State) : (answer r s).opt = s.opt := rfl
@[simp] theorem answer_keys (r : Resp) (s : State) : (answer r s).keys = s.keys := rfl
@[simp] theorem answer_rtc (r : Resp) (s : State) : (answer r s).rtc = s.rtc := rfl
@[simp] theorem answer_railsOn (r : Resp) (s : State) : (answer r s).railsOn = s.railsOn := rfl
@[simp] theorem answer_oas (r : Resp) (s : State) : (answer r s).oas = s.oas := rfl
@[simp] theorem answer_rst (r : Resp) (s : State) : (answer r s).rst = s.rst := rfl
@[simp] theorem answer_sec (r : Resp) (s : State) : (answer r s).sec = s.sec := rfl
@[simp] theorem answer_cryp (r : Resp) (s : State) : (answer r s).cryp = s.cryp := rfl
@[simp] theorem answer_boot (r : Resp) (s : State) : (answer r s).boot = s.boot := rfl
@[simp] theorem answer_dmaNext (r : Resp) (s : State) : (answer r s).dmaNext = s.dmaNext := rfl
@[simp] theorem answer_cmdq (r : Resp) (s : State) : (answer r s).cmdq = s.cmdq := rfl
@[simp] theorem answer_transient (r : Resp) (s : State) : (answer r s).transient = s.transient := rfl

/-! ### used -/

@[simp] theorem used_pending (s : State) : (used s).pending = s.pending := rfl
@[simp] theorem used_tb (s : State) : (used s).tb = s.tb := rfl
@[simp] theorem used_freeCtr (s : State) : (used s).freeCtr = s.freeCtr + 1 := rfl
@[simp] theorem used_resp (s : State) : (used s).resp = s.resp := rfl
@[simp] theorem used_regs (s : State) : (used s).regs = s.regs := rfl
@[simp] theorem used_mem (s : State) : (used s).mem = s.mem := rfl
@[simp] theorem used_lockKey (s : State) : (used s).lockKey = s.lockKey := rfl
@[simp] theorem used_resetting (s : State) : (used s).resetting = s.resetting := rfl
@[simp] theorem used_epoch (s : State) : (used s).epoch = s.epoch := rfl
@[simp] theorem used_stalled (s : State) : (used s).stalled = s.stalled := rfl
@[simp] theorem used_claims (s : State) : (used s).claims = s.claims := rfl
@[simp] theorem used_swi (s : State) : (used s).swi = s.swi := rfl
@[simp] theorem used_sent (s : State) : (used s).sent = s.sent := rfl
@[simp] theorem used_nand (s : State) : (used s).nand = s.nand := rfl
@[simp] theorem used_cont (s : State) : (used s).cont = s.cont := rfl
@[simp] theorem used_ser (s : State) : (used s).ser = s.ser := rfl
@[simp] theorem used_usb (s : State) : (used s).usb = s.usb := rfl
@[simp] theorem used_trg (s : State) : (used s).trg = s.trg := rfl
@[simp] theorem used_cap (s : State) : (used s).cap = s.cap := rfl
@[simp] theorem used_detIn (s : State) : (used s).detIn = s.detIn := rfl
@[simp] theorem used_det (s : State) : (used s).det = s.det := rfl
@[simp] theorem used_mir (s : State) : (used s).mir = s.mir := rfl
@[simp] theorem used_ptab (s : State) : (used s).ptab = s.ptab := rfl
@[simp] theorem used_evq (s : State) : (used s).evq = s.evq := rfl
@[simp] theorem used_evr (s : State) : (used s).evr = s.evr := rfl
@[simp] theorem used_line (s : State) : (used s).line = s.line := rfl
@[simp] theorem used_pix (s : State) : (used s).pix = s.pix := rfl
@[simp] theorem used_dim (s : State) : (used s).dim = s.dim := rfl
@[simp] theorem used_sched (s : State) : (used s).sched = s.sched := rfl
@[simp] theorem used_attr (s : State) : (used s).attr = s.attr := rfl
@[simp] theorem used_diag (s : State) : (used s).diag = s.diag := rfl
@[simp] theorem used_nupd (s : State) : (used s).nupd = s.nupd := rfl
@[simp] theorem used_met (s : State) : (used s).met = s.met := rfl
@[simp] theorem used_crv (s : State) : (used s).crv = s.crv := rfl
@[simp] theorem used_eth (s : State) : (used s).eth = s.eth := rfl
@[simp] theorem used_erg (s : State) : (used s).erg = s.erg := rfl
@[simp] theorem used_twin (s : State) : (used s).twin = s.twin := rfl
@[simp] theorem used_opt (s : State) : (used s).opt = s.opt := rfl
@[simp] theorem used_keys (s : State) : (used s).keys = s.keys := rfl
@[simp] theorem used_rtc (s : State) : (used s).rtc = s.rtc := rfl
@[simp] theorem used_railsOn (s : State) : (used s).railsOn = s.railsOn := rfl
@[simp] theorem used_oas (s : State) : (used s).oas = s.oas := rfl
@[simp] theorem used_rst (s : State) : (used s).rst = s.rst := rfl
@[simp] theorem used_sec (s : State) : (used s).sec = s.sec := rfl
@[simp] theorem used_cryp (s : State) : (used s).cryp = s.cryp := rfl
@[simp] theorem used_boot (s : State) : (used s).boot = s.boot := rfl
@[simp] theorem used_dmaNext (s : State) : (used s).dmaNext = s.dmaNext := rfl
@[simp] theorem used_cmdq (s : State) : (used s).cmdq = s.cmdq := rfl
@[simp] theorem used_transient (s : State) : (used s).transient = s.transient := rfl

/-! ### send -/

@[simp] theorem send_pending (x : Sent) (s : State) : (send x s).pending = s.pending := rfl
@[simp] theorem send_tb (x : Sent) (s : State) : (send x s).tb = s.tb := rfl
@[simp] theorem send_freeCtr (x : Sent) (s : State) : (send x s).freeCtr = s.freeCtr := rfl
@[simp] theorem send_resp (x : Sent) (s : State) : (send x s).resp = s.resp := rfl
@[simp] theorem send_regs (x : Sent) (s : State) : (send x s).regs = s.regs := rfl
@[simp] theorem send_mem (x : Sent) (s : State) : (send x s).mem = s.mem := rfl
@[simp] theorem send_lockKey (x : Sent) (s : State) : (send x s).lockKey = s.lockKey := rfl
@[simp] theorem send_resetting (x : Sent) (s : State) : (send x s).resetting = s.resetting := rfl
@[simp] theorem send_epoch (x : Sent) (s : State) : (send x s).epoch = s.epoch := rfl
@[simp] theorem send_stalled (x : Sent) (s : State) : (send x s).stalled = s.stalled := rfl
@[simp] theorem send_claims (x : Sent) (s : State) : (send x s).claims = s.claims := rfl
@[simp] theorem send_swi (x : Sent) (s : State) : (send x s).swi = s.swi := rfl
@[simp] theorem send_sent (x : Sent) (s : State) : (send x s).sent = s.sent ++ [x] := rfl
@[simp] theorem send_nand (x : Sent) (s : State) : (send x s).nand = s.nand := rfl
@[simp] theorem send_cont (x : Sent) (s : State) : (send x s).cont = s.cont := rfl
@[simp] theorem send_ser (x : Sent) (s : State) : (send x s).ser = s.ser := rfl
@[simp] theorem send_usb (x : Sent) (s : State) : (send x s).usb = s.usb := rfl
@[simp] theorem send_trg (x : Sent) (s : State) : (send x s).trg = s.trg := rfl
@[simp] theorem send_cap (x : Sent) (s : State) : (send x s).cap = s.cap := rfl
@[simp] theorem send_detIn (x : Sent) (s : State) : (send x s).detIn = s.detIn := rfl
@[simp] theorem send_det (x : Sent) (s : State) : (send x s).det = s.det := rfl
@[simp] theorem send_mir (x : Sent) (s : State) : (send x s).mir = s.mir := rfl
@[simp] theorem send_ptab (x : Sent) (s : State) : (send x s).ptab = s.ptab := rfl
@[simp] theorem send_evq (x : Sent) (s : State) : (send x s).evq = s.evq := rfl
@[simp] theorem send_evr (x : Sent) (s : State) : (send x s).evr = s.evr := rfl
@[simp] theorem send_line (x : Sent) (s : State) : (send x s).line = s.line := rfl
@[simp] theorem send_pix (x : Sent) (s : State) : (send x s).pix = s.pix := rfl
@[simp] theorem send_dim (x : Sent) (s : State) : (send x s).dim = s.dim := rfl
@[simp] theorem send_sched (x : Sent) (s : State) : (send x s).sched = s.sched := rfl
@[simp] theorem send_attr (x : Sent) (s : State) : (send x s).attr = s.attr := rfl
@[simp] theorem send_diag (x : Sent) (s : State) : (send x s).diag = s.diag := rfl
@[simp] theorem send_nupd (x : Sent) (s : State) : (send x s).nupd = s.nupd := rfl
@[simp] theorem send_met (x : Sent) (s : State) : (send x s).met = s.met := rfl
@[simp] theorem send_crv (x : Sent) (s : State) : (send x s).crv = s.crv := rfl
@[simp] theorem send_eth (x : Sent) (s : State) : (send x s).eth = s.eth := rfl
@[simp] theorem send_erg (x : Sent) (s : State) : (send x s).erg = s.erg := rfl
@[simp] theorem send_twin (x : Sent) (s : State) : (send x s).twin = s.twin := rfl
@[simp] theorem send_opt (x : Sent) (s : State) : (send x s).opt = s.opt := rfl
@[simp] theorem send_keys (x : Sent) (s : State) : (send x s).keys = s.keys := rfl
@[simp] theorem send_rtc (x : Sent) (s : State) : (send x s).rtc = s.rtc := rfl
@[simp] theorem send_railsOn (x : Sent) (s : State) : (send x s).railsOn = s.railsOn := rfl
@[simp] theorem send_oas (x : Sent) (s : State) : (send x s).oas = s.oas := rfl
@[simp] theorem send_rst (x : Sent) (s : State) : (send x s).rst = s.rst := rfl
@[simp] theorem send_sec (x : Sent) (s : State) : (send x s).sec = s.sec := rfl
@[simp] theorem send_cryp (x : Sent) (s : State) : (send x s).cryp = s.cryp := rfl
@[simp] theorem send_boot (x : Sent) (s : State) : (send x s).boot = s.boot := rfl
@[simp] theorem send_dmaNext (x : Sent) (s : State) : (send x s).dmaNext = s.dmaNext := rfl
@[simp] theorem send_cmdq (x : Sent) (s : State) : (send x s).cmdq = s.cmdq := rfl
@[simp] theorem send_transient (x : Sent) (s : State) : (send x s).transient = s.transient := rfl

/-! ### setReg -/

@[simp] theorem setReg_pending (p : Page) (off : Nat) (v : Word) (s : State) : (setReg p off v s).pending = s.pending := pending_with_regs s _
@[simp] theorem setReg_tb (p : Page) (off : Nat) (v : Word) (s : State) : (setReg p off v s).tb = s.tb := tb_with_regs s _
@[simp] theorem setReg_freeCtr (p : Page) (off : Nat) (v : Word) (s : State) : (setReg p off v s).freeCtr = s.freeCtr := freeCtr_with_regs s _
@[simp] theorem setReg_resp (p : Page) (off : Nat) (v : Word) (s : State) : (setReg p off v s).resp = s.resp := resp_with_regs s _
@[simp] theorem setReg_mem (p : Page) (off : Nat) (v : Word) (s : State) : (setReg p off v s).mem = s.mem := mem_with_regs s _
@[simp] theorem setReg_lockKey (p : Page) (off : Nat) (v : Word) (s : State) : (setReg p off v s).lockKey = s.lockKey := lockKey_with_regs s _
@[simp] theorem setReg_resetting (p : Page) (off : Nat) (v : Word) (s : State) : (setReg p off v s).resetting = s.resetting := resetting_with_regs s _
@[simp] theorem setReg_epoch (p : Page) (off : Nat) (v : Word) (s : State) : (setReg p off v s).epoch = s.epoch := epoch_with_regs s _
@[simp] theorem setReg_stalled (p : Page) (off : Nat) (v : Word) (s : State) : (setReg p off v s).stalled = s.stalled := stalled_with_regs s _
@[simp] theorem setReg_claims (p : Page) (off : Nat) (v : Word) (s : State) : (setReg p off v s).claims = s.claims := claims_with_regs s _
@[simp] theorem setReg_swi (p : Page) (off : Nat) (v : Word) (s : State) : (setReg p off v s).swi = s.swi := swi_with_regs s _
@[simp] theorem setReg_sent (p : Page) (off : Nat) (v : Word) (s : State) : (setReg p off v s).sent = s.sent := sent_with_regs s _
@[simp] theorem setReg_nand (p : Page) (off : Nat) (v : Word) (s : State) : (setReg p off v s).nand = s.nand := nand_with_regs s _
@[simp] theorem setReg_cont (p : Page) (off : Nat) (v : Word) (s : State) : (setReg p off v s).cont = s.cont := cont_with_regs s _
@[simp] theorem setReg_ser (p : Page) (off : Nat) (v : Word) (s : State) : (setReg p off v s).ser = s.ser := ser_with_regs s _
@[simp] theorem setReg_usb (p : Page) (off : Nat) (v : Word) (s : State) : (setReg p off v s).usb = s.usb := usb_with_regs s _
@[simp] theorem setReg_trg (p : Page) (off : Nat) (v : Word) (s : State) : (setReg p off v s).trg = s.trg := trg_with_regs s _
@[simp] theorem setReg_cap (p : Page) (off : Nat) (v : Word) (s : State) : (setReg p off v s).cap = s.cap := cap_with_regs s _
@[simp] theorem setReg_detIn (p : Page) (off : Nat) (v : Word) (s : State) : (setReg p off v s).detIn = s.detIn := detIn_with_regs s _
@[simp] theorem setReg_det (p : Page) (off : Nat) (v : Word) (s : State) : (setReg p off v s).det = s.det := det_with_regs s _
@[simp] theorem setReg_mir (p : Page) (off : Nat) (v : Word) (s : State) : (setReg p off v s).mir = s.mir := mir_with_regs s _
@[simp] theorem setReg_ptab (p : Page) (off : Nat) (v : Word) (s : State) : (setReg p off v s).ptab = s.ptab := ptab_with_regs s _
@[simp] theorem setReg_evq (p : Page) (off : Nat) (v : Word) (s : State) : (setReg p off v s).evq = s.evq := evq_with_regs s _
@[simp] theorem setReg_evr (p : Page) (off : Nat) (v : Word) (s : State) : (setReg p off v s).evr = s.evr := evr_with_regs s _
@[simp] theorem setReg_line (p : Page) (off : Nat) (v : Word) (s : State) : (setReg p off v s).line = s.line := line_with_regs s _
@[simp] theorem setReg_pix (p : Page) (off : Nat) (v : Word) (s : State) : (setReg p off v s).pix = s.pix := pix_with_regs s _
@[simp] theorem setReg_dim (p : Page) (off : Nat) (v : Word) (s : State) : (setReg p off v s).dim = s.dim := dim_with_regs s _
@[simp] theorem setReg_sched (p : Page) (off : Nat) (v : Word) (s : State) : (setReg p off v s).sched = s.sched := sched_with_regs s _
@[simp] theorem setReg_attr (p : Page) (off : Nat) (v : Word) (s : State) : (setReg p off v s).attr = s.attr := attr_with_regs s _
@[simp] theorem setReg_diag (p : Page) (off : Nat) (v : Word) (s : State) : (setReg p off v s).diag = s.diag := diag_with_regs s _
@[simp] theorem setReg_nupd (p : Page) (off : Nat) (v : Word) (s : State) : (setReg p off v s).nupd = s.nupd := nupd_with_regs s _
@[simp] theorem setReg_met (p : Page) (off : Nat) (v : Word) (s : State) : (setReg p off v s).met = s.met := met_with_regs s _
@[simp] theorem setReg_crv (p : Page) (off : Nat) (v : Word) (s : State) : (setReg p off v s).crv = s.crv := crv_with_regs s _
@[simp] theorem setReg_eth (p : Page) (off : Nat) (v : Word) (s : State) : (setReg p off v s).eth = s.eth := eth_with_regs s _
@[simp] theorem setReg_erg (p : Page) (off : Nat) (v : Word) (s : State) : (setReg p off v s).erg = s.erg := erg_with_regs s _
@[simp] theorem setReg_twin (p : Page) (off : Nat) (v : Word) (s : State) : (setReg p off v s).twin = s.twin := twin_with_regs s _
@[simp] theorem setReg_opt (p : Page) (off : Nat) (v : Word) (s : State) : (setReg p off v s).opt = s.opt := opt_with_regs s _
@[simp] theorem setReg_keys (p : Page) (off : Nat) (v : Word) (s : State) : (setReg p off v s).keys = s.keys := keys_with_regs s _
@[simp] theorem setReg_rtc (p : Page) (off : Nat) (v : Word) (s : State) : (setReg p off v s).rtc = s.rtc := rtc_with_regs s _
@[simp] theorem setReg_railsOn (p : Page) (off : Nat) (v : Word) (s : State) : (setReg p off v s).railsOn = s.railsOn := railsOn_with_regs s _
@[simp] theorem setReg_oas (p : Page) (off : Nat) (v : Word) (s : State) : (setReg p off v s).oas = s.oas := oas_with_regs s _
@[simp] theorem setReg_rst (p : Page) (off : Nat) (v : Word) (s : State) : (setReg p off v s).rst = s.rst := rst_with_regs s _
@[simp] theorem setReg_sec (p : Page) (off : Nat) (v : Word) (s : State) : (setReg p off v s).sec = s.sec := sec_with_regs s _
@[simp] theorem setReg_cryp (p : Page) (off : Nat) (v : Word) (s : State) : (setReg p off v s).cryp = s.cryp := cryp_with_regs s _
@[simp] theorem setReg_boot (p : Page) (off : Nat) (v : Word) (s : State) : (setReg p off v s).boot = s.boot := boot_with_regs s _
@[simp] theorem setReg_dmaNext (p : Page) (off : Nat) (v : Word) (s : State) : (setReg p off v s).dmaNext = s.dmaNext := dmaNext_with_regs s _
@[simp] theorem setReg_cmdq (p : Page) (off : Nat) (v : Word) (s : State) : (setReg p off v s).cmdq = s.cmdq := cmdq_with_regs s _
@[simp] theorem setReg_transient (p : Page) (off : Nat) (v : Word) (s : State) : (setReg p off v s).transient = s.transient := transient_with_regs s _

/-! ### setRegI -/

@[simp] theorem setRegI_pending (p : Page) (off : Nat) (i : Fin 10) (v : Word) (s : State) : (setRegI p off i v s).pending = s.pending := pending_with_regs s _
@[simp] theorem setRegI_tb (p : Page) (off : Nat) (i : Fin 10) (v : Word) (s : State) : (setRegI p off i v s).tb = s.tb := tb_with_regs s _
@[simp] theorem setRegI_freeCtr (p : Page) (off : Nat) (i : Fin 10) (v : Word) (s : State) : (setRegI p off i v s).freeCtr = s.freeCtr := freeCtr_with_regs s _
@[simp] theorem setRegI_resp (p : Page) (off : Nat) (i : Fin 10) (v : Word) (s : State) : (setRegI p off i v s).resp = s.resp := resp_with_regs s _
@[simp] theorem setRegI_mem (p : Page) (off : Nat) (i : Fin 10) (v : Word) (s : State) : (setRegI p off i v s).mem = s.mem := mem_with_regs s _
@[simp] theorem setRegI_lockKey (p : Page) (off : Nat) (i : Fin 10) (v : Word) (s : State) : (setRegI p off i v s).lockKey = s.lockKey := lockKey_with_regs s _
@[simp] theorem setRegI_resetting (p : Page) (off : Nat) (i : Fin 10) (v : Word) (s : State) : (setRegI p off i v s).resetting = s.resetting := resetting_with_regs s _
@[simp] theorem setRegI_epoch (p : Page) (off : Nat) (i : Fin 10) (v : Word) (s : State) : (setRegI p off i v s).epoch = s.epoch := epoch_with_regs s _
@[simp] theorem setRegI_stalled (p : Page) (off : Nat) (i : Fin 10) (v : Word) (s : State) : (setRegI p off i v s).stalled = s.stalled := stalled_with_regs s _
@[simp] theorem setRegI_claims (p : Page) (off : Nat) (i : Fin 10) (v : Word) (s : State) : (setRegI p off i v s).claims = s.claims := claims_with_regs s _
@[simp] theorem setRegI_swi (p : Page) (off : Nat) (i : Fin 10) (v : Word) (s : State) : (setRegI p off i v s).swi = s.swi := swi_with_regs s _
@[simp] theorem setRegI_sent (p : Page) (off : Nat) (i : Fin 10) (v : Word) (s : State) : (setRegI p off i v s).sent = s.sent := sent_with_regs s _
@[simp] theorem setRegI_nand (p : Page) (off : Nat) (i : Fin 10) (v : Word) (s : State) : (setRegI p off i v s).nand = s.nand := nand_with_regs s _
@[simp] theorem setRegI_cont (p : Page) (off : Nat) (i : Fin 10) (v : Word) (s : State) : (setRegI p off i v s).cont = s.cont := cont_with_regs s _
@[simp] theorem setRegI_ser (p : Page) (off : Nat) (i : Fin 10) (v : Word) (s : State) : (setRegI p off i v s).ser = s.ser := ser_with_regs s _
@[simp] theorem setRegI_usb (p : Page) (off : Nat) (i : Fin 10) (v : Word) (s : State) : (setRegI p off i v s).usb = s.usb := usb_with_regs s _
@[simp] theorem setRegI_trg (p : Page) (off : Nat) (i : Fin 10) (v : Word) (s : State) : (setRegI p off i v s).trg = s.trg := trg_with_regs s _
@[simp] theorem setRegI_cap (p : Page) (off : Nat) (i : Fin 10) (v : Word) (s : State) : (setRegI p off i v s).cap = s.cap := cap_with_regs s _
@[simp] theorem setRegI_detIn (p : Page) (off : Nat) (i : Fin 10) (v : Word) (s : State) : (setRegI p off i v s).detIn = s.detIn := detIn_with_regs s _
@[simp] theorem setRegI_det (p : Page) (off : Nat) (i : Fin 10) (v : Word) (s : State) : (setRegI p off i v s).det = s.det := det_with_regs s _
@[simp] theorem setRegI_mir (p : Page) (off : Nat) (i : Fin 10) (v : Word) (s : State) : (setRegI p off i v s).mir = s.mir := mir_with_regs s _
@[simp] theorem setRegI_ptab (p : Page) (off : Nat) (i : Fin 10) (v : Word) (s : State) : (setRegI p off i v s).ptab = s.ptab := ptab_with_regs s _
@[simp] theorem setRegI_evq (p : Page) (off : Nat) (i : Fin 10) (v : Word) (s : State) : (setRegI p off i v s).evq = s.evq := evq_with_regs s _
@[simp] theorem setRegI_evr (p : Page) (off : Nat) (i : Fin 10) (v : Word) (s : State) : (setRegI p off i v s).evr = s.evr := evr_with_regs s _
@[simp] theorem setRegI_line (p : Page) (off : Nat) (i : Fin 10) (v : Word) (s : State) : (setRegI p off i v s).line = s.line := line_with_regs s _
@[simp] theorem setRegI_pix (p : Page) (off : Nat) (i : Fin 10) (v : Word) (s : State) : (setRegI p off i v s).pix = s.pix := pix_with_regs s _
@[simp] theorem setRegI_dim (p : Page) (off : Nat) (i : Fin 10) (v : Word) (s : State) : (setRegI p off i v s).dim = s.dim := dim_with_regs s _
@[simp] theorem setRegI_sched (p : Page) (off : Nat) (i : Fin 10) (v : Word) (s : State) : (setRegI p off i v s).sched = s.sched := sched_with_regs s _
@[simp] theorem setRegI_attr (p : Page) (off : Nat) (i : Fin 10) (v : Word) (s : State) : (setRegI p off i v s).attr = s.attr := attr_with_regs s _
@[simp] theorem setRegI_diag (p : Page) (off : Nat) (i : Fin 10) (v : Word) (s : State) : (setRegI p off i v s).diag = s.diag := diag_with_regs s _
@[simp] theorem setRegI_nupd (p : Page) (off : Nat) (i : Fin 10) (v : Word) (s : State) : (setRegI p off i v s).nupd = s.nupd := nupd_with_regs s _
@[simp] theorem setRegI_met (p : Page) (off : Nat) (i : Fin 10) (v : Word) (s : State) : (setRegI p off i v s).met = s.met := met_with_regs s _
@[simp] theorem setRegI_crv (p : Page) (off : Nat) (i : Fin 10) (v : Word) (s : State) : (setRegI p off i v s).crv = s.crv := crv_with_regs s _
@[simp] theorem setRegI_eth (p : Page) (off : Nat) (i : Fin 10) (v : Word) (s : State) : (setRegI p off i v s).eth = s.eth := eth_with_regs s _
@[simp] theorem setRegI_erg (p : Page) (off : Nat) (i : Fin 10) (v : Word) (s : State) : (setRegI p off i v s).erg = s.erg := erg_with_regs s _
@[simp] theorem setRegI_twin (p : Page) (off : Nat) (i : Fin 10) (v : Word) (s : State) : (setRegI p off i v s).twin = s.twin := twin_with_regs s _
@[simp] theorem setRegI_opt (p : Page) (off : Nat) (i : Fin 10) (v : Word) (s : State) : (setRegI p off i v s).opt = s.opt := opt_with_regs s _
@[simp] theorem setRegI_keys (p : Page) (off : Nat) (i : Fin 10) (v : Word) (s : State) : (setRegI p off i v s).keys = s.keys := keys_with_regs s _
@[simp] theorem setRegI_rtc (p : Page) (off : Nat) (i : Fin 10) (v : Word) (s : State) : (setRegI p off i v s).rtc = s.rtc := rtc_with_regs s _
@[simp] theorem setRegI_railsOn (p : Page) (off : Nat) (i : Fin 10) (v : Word) (s : State) : (setRegI p off i v s).railsOn = s.railsOn := railsOn_with_regs s _
@[simp] theorem setRegI_oas (p : Page) (off : Nat) (i : Fin 10) (v : Word) (s : State) : (setRegI p off i v s).oas = s.oas := oas_with_regs s _
@[simp] theorem setRegI_rst (p : Page) (off : Nat) (i : Fin 10) (v : Word) (s : State) : (setRegI p off i v s).rst = s.rst := rst_with_regs s _
@[simp] theorem setRegI_sec (p : Page) (off : Nat) (i : Fin 10) (v : Word) (s : State) : (setRegI p off i v s).sec = s.sec := sec_with_regs s _
@[simp] theorem setRegI_cryp (p : Page) (off : Nat) (i : Fin 10) (v : Word) (s : State) : (setRegI p off i v s).cryp = s.cryp := cryp_with_regs s _
@[simp] theorem setRegI_boot (p : Page) (off : Nat) (i : Fin 10) (v : Word) (s : State) : (setRegI p off i v s).boot = s.boot := boot_with_regs s _
@[simp] theorem setRegI_dmaNext (p : Page) (off : Nat) (i : Fin 10) (v : Word) (s : State) : (setRegI p off i v s).dmaNext = s.dmaNext := dmaNext_with_regs s _
@[simp] theorem setRegI_cmdq (p : Page) (off : Nat) (i : Fin 10) (v : Word) (s : State) : (setRegI p off i v s).cmdq = s.cmdq := cmdq_with_regs s _
@[simp] theorem setRegI_transient (p : Page) (off : Nat) (i : Fin 10) (v : Word) (s : State) : (setRegI p off i v s).transient = s.transient := transient_with_regs s _

/-! ### memPut -/

@[simp] theorem memPut_pending (a : Nat) (b : Byte) (s : State) : (memPut a b s).pending = s.pending := pending_with_mem s _
@[simp] theorem memPut_tb (a : Nat) (b : Byte) (s : State) : (memPut a b s).tb = s.tb := tb_with_mem s _
@[simp] theorem memPut_freeCtr (a : Nat) (b : Byte) (s : State) : (memPut a b s).freeCtr = s.freeCtr := freeCtr_with_mem s _
@[simp] theorem memPut_resp (a : Nat) (b : Byte) (s : State) : (memPut a b s).resp = s.resp := resp_with_mem s _
@[simp] theorem memPut_regs (a : Nat) (b : Byte) (s : State) : (memPut a b s).regs = s.regs := regs_with_mem s _
@[simp] theorem memPut_lockKey (a : Nat) (b : Byte) (s : State) : (memPut a b s).lockKey = s.lockKey := lockKey_with_mem s _
@[simp] theorem memPut_resetting (a : Nat) (b : Byte) (s : State) : (memPut a b s).resetting = s.resetting := resetting_with_mem s _
@[simp] theorem memPut_epoch (a : Nat) (b : Byte) (s : State) : (memPut a b s).epoch = s.epoch := epoch_with_mem s _
@[simp] theorem memPut_stalled (a : Nat) (b : Byte) (s : State) : (memPut a b s).stalled = s.stalled := stalled_with_mem s _
@[simp] theorem memPut_claims (a : Nat) (b : Byte) (s : State) : (memPut a b s).claims = s.claims := claims_with_mem s _
@[simp] theorem memPut_swi (a : Nat) (b : Byte) (s : State) : (memPut a b s).swi = s.swi := swi_with_mem s _
@[simp] theorem memPut_sent (a : Nat) (b : Byte) (s : State) : (memPut a b s).sent = s.sent := sent_with_mem s _
@[simp] theorem memPut_nand (a : Nat) (b : Byte) (s : State) : (memPut a b s).nand = s.nand := nand_with_mem s _
@[simp] theorem memPut_cont (a : Nat) (b : Byte) (s : State) : (memPut a b s).cont = s.cont := cont_with_mem s _
@[simp] theorem memPut_ser (a : Nat) (b : Byte) (s : State) : (memPut a b s).ser = s.ser := ser_with_mem s _
@[simp] theorem memPut_usb (a : Nat) (b : Byte) (s : State) : (memPut a b s).usb = s.usb := usb_with_mem s _
@[simp] theorem memPut_trg (a : Nat) (b : Byte) (s : State) : (memPut a b s).trg = s.trg := trg_with_mem s _
@[simp] theorem memPut_cap (a : Nat) (b : Byte) (s : State) : (memPut a b s).cap = s.cap := cap_with_mem s _
@[simp] theorem memPut_detIn (a : Nat) (b : Byte) (s : State) : (memPut a b s).detIn = s.detIn := detIn_with_mem s _
@[simp] theorem memPut_det (a : Nat) (b : Byte) (s : State) : (memPut a b s).det = s.det := det_with_mem s _
@[simp] theorem memPut_mir (a : Nat) (b : Byte) (s : State) : (memPut a b s).mir = s.mir := mir_with_mem s _
@[simp] theorem memPut_ptab (a : Nat) (b : Byte) (s : State) : (memPut a b s).ptab = s.ptab := ptab_with_mem s _
@[simp] theorem memPut_evq (a : Nat) (b : Byte) (s : State) : (memPut a b s).evq = s.evq := evq_with_mem s _
@[simp] theorem memPut_evr (a : Nat) (b : Byte) (s : State) : (memPut a b s).evr = s.evr := evr_with_mem s _
@[simp] theorem memPut_line (a : Nat) (b : Byte) (s : State) : (memPut a b s).line = s.line := line_with_mem s _
@[simp] theorem memPut_pix (a : Nat) (b : Byte) (s : State) : (memPut a b s).pix = s.pix := pix_with_mem s _
@[simp] theorem memPut_dim (a : Nat) (b : Byte) (s : State) : (memPut a b s).dim = s.dim := dim_with_mem s _
@[simp] theorem memPut_sched (a : Nat) (b : Byte) (s : State) : (memPut a b s).sched = s.sched := sched_with_mem s _
@[simp] theorem memPut_attr (a : Nat) (b : Byte) (s : State) : (memPut a b s).attr = s.attr := attr_with_mem s _
@[simp] theorem memPut_diag (a : Nat) (b : Byte) (s : State) : (memPut a b s).diag = s.diag := diag_with_mem s _
@[simp] theorem memPut_nupd (a : Nat) (b : Byte) (s : State) : (memPut a b s).nupd = s.nupd := nupd_with_mem s _
@[simp] theorem memPut_met (a : Nat) (b : Byte) (s : State) : (memPut a b s).met = s.met := met_with_mem s _
@[simp] theorem memPut_crv (a : Nat) (b : Byte) (s : State) : (memPut a b s).crv = s.crv := crv_with_mem s _
@[simp] theorem memPut_eth (a : Nat) (b : Byte) (s : State) : (memPut a b s).eth = s.eth := eth_with_mem s _
@[simp] theorem memPut_erg (a : Nat) (b : Byte) (s : State) : (memPut a b s).erg = s.erg := erg_with_mem s _
@[simp] theorem memPut_twin (a : Nat) (b : Byte) (s : State) : (memPut a b s).twin = s.twin := twin_with_mem s _
@[simp] theorem memPut_opt (a : Nat) (b : Byte) (s : State) : (memPut a b s).opt = s.opt := opt_with_mem s _
@[simp] theorem memPut_keys (a : Nat) (b : Byte) (s : State) : (memPut a b s).keys = s.keys := keys_with_mem s _
@[simp] theorem memPut_rtc (a : Nat) (b : Byte) (s : State) : (memPut a b s).rtc = s.rtc := rtc_with_mem s _
@[simp] theorem memPut_railsOn (a : Nat) (b : Byte) (s : State) : (memPut a b s).railsOn = s.railsOn := railsOn_with_mem s _
@[simp] theorem memPut_oas (a : Nat) (b : Byte) (s : State) : (memPut a b s).oas = s.oas := oas_with_mem s _
@[simp] theorem memPut_rst (a : Nat) (b : Byte) (s : State) : (memPut a b s).rst = s.rst := rst_with_mem s _
@[simp] theorem memPut_sec (a : Nat) (b : Byte) (s : State) : (memPut a b s).sec = s.sec := sec_with_mem s _
@[simp] theorem memPut_cryp (a : Nat) (b : Byte) (s : State) : (memPut a b s).cryp = s.cryp := cryp_with_mem s _
@[simp] theorem memPut_boot (a : Nat) (b : Byte) (s : State) : (memPut a b s).boot = s.boot := boot_with_mem s _
@[simp] theorem memPut_dmaNext (a : Nat) (b : Byte) (s : State) : (memPut a b s).dmaNext = s.dmaNext := dmaNext_with_mem s _
@[simp] theorem memPut_cmdq (a : Nat) (b : Byte) (s : State) : (memPut a b s).cmdq = s.cmdq := cmdq_with_mem s _
@[simp] theorem memPut_transient (a : Nat) (b : Byte) (s : State) : (memPut a b s).transient = s.transient := transient_with_mem s _

/-! ### settle -/

@[simp] theorem settle_pending (s t : State) : (settle s t).pending = s.pending := rfl
@[simp] theorem settle_tb (s t : State) : (settle s t).tb = s.tb := rfl
@[simp] theorem settle_freeCtr (s t : State) : (settle s t).freeCtr = t.freeCtr := rfl
@[simp] theorem settle_resp (s t : State) : (settle s t).resp = t.resp := rfl
@[simp] theorem settle_regs (s t : State) : (settle s t).regs = t.regs := rfl
@[simp] theorem settle_mem (s t : State) : (settle s t).mem = t.mem := rfl
@[simp] theorem settle_lockKey (s t : State) : (settle s t).lockKey = t.lockKey := rfl
@[simp] theorem settle_resetting (s t : State) : (settle s t).resetting = t.resetting := rfl
@[simp] theorem settle_epoch (s t : State) : (settle s t).epoch = t.epoch := rfl
@[simp] theorem settle_stalled (s t : State) : (settle s t).stalled = t.stalled := rfl
@[simp] theorem settle_claims (s t : State) : (settle s t).claims = t.claims := rfl
@[simp] theorem settle_swi (s t : State) : (settle s t).swi = t.swi := rfl
@[simp] theorem settle_sent (s t : State) : (settle s t).sent = t.sent := rfl
@[simp] theorem settle_nand (s t : State) : (settle s t).nand = t.nand := rfl
@[simp] theorem settle_cont (s t : State) : (settle s t).cont = t.cont := rfl
@[simp] theorem settle_ser (s t : State) : (settle s t).ser = t.ser := rfl
@[simp] theorem settle_usb (s t : State) : (settle s t).usb = t.usb := rfl
@[simp] theorem settle_trg (s t : State) : (settle s t).trg = t.trg := rfl
@[simp] theorem settle_cap (s t : State) : (settle s t).cap = t.cap := rfl
@[simp] theorem settle_detIn (s t : State) : (settle s t).detIn = t.detIn := rfl
@[simp] theorem settle_det (s t : State) : (settle s t).det = t.det := rfl
@[simp] theorem settle_mir (s t : State) : (settle s t).mir = t.mir := rfl
@[simp] theorem settle_ptab (s t : State) : (settle s t).ptab = t.ptab := rfl
@[simp] theorem settle_evq (s t : State) : (settle s t).evq = t.evq := rfl
@[simp] theorem settle_evr (s t : State) : (settle s t).evr = t.evr := rfl
@[simp] theorem settle_line (s t : State) : (settle s t).line = t.line := rfl
@[simp] theorem settle_pix (s t : State) : (settle s t).pix = t.pix := rfl
@[simp] theorem settle_dim (s t : State) : (settle s t).dim = t.dim := rfl
@[simp] theorem settle_sched (s t : State) : (settle s t).sched = t.sched := rfl
@[simp] theorem settle_attr (s t : State) : (settle s t).attr = t.attr := rfl
@[simp] theorem settle_diag (s t : State) : (settle s t).diag = t.diag := rfl
@[simp] theorem settle_nupd (s t : State) : (settle s t).nupd = t.nupd := rfl
@[simp] theorem settle_met (s t : State) : (settle s t).met = t.met := rfl
@[simp] theorem settle_crv (s t : State) : (settle s t).crv = t.crv := rfl
@[simp] theorem settle_eth (s t : State) : (settle s t).eth = t.eth := rfl
@[simp] theorem settle_erg (s t : State) : (settle s t).erg = t.erg := rfl
@[simp] theorem settle_twin (s t : State) : (settle s t).twin = t.twin := rfl
@[simp] theorem settle_opt (s t : State) : (settle s t).opt = t.opt := rfl
@[simp] theorem settle_keys (s t : State) : (settle s t).keys = t.keys := rfl
@[simp] theorem settle_rtc (s t : State) : (settle s t).rtc = t.rtc := rfl
@[simp] theorem settle_railsOn (s t : State) : (settle s t).railsOn = t.railsOn := rfl
@[simp] theorem settle_oas (s t : State) : (settle s t).oas = t.oas := rfl
@[simp] theorem settle_rst (s t : State) : (settle s t).rst = t.rst := rfl
@[simp] theorem settle_sec (s t : State) : (settle s t).sec = t.sec := rfl
@[simp] theorem settle_cryp (s t : State) : (settle s t).cryp = t.cryp := rfl
@[simp] theorem settle_boot (s t : State) : (settle s t).boot = t.boot := rfl
@[simp] theorem settle_dmaNext (s t : State) : (settle s t).dmaNext = t.dmaNext := rfl
@[simp] theorem settle_cmdq (s t : State) : (settle s t).cmdq = t.cmdq := rfl
@[simp] theorem settle_transient (s t : State) : (settle s t).transient = t.transient := rfl

/-! ### settleTb -/

@[simp] theorem settleTb_pending (s t : State) : (settleTb s t).pending = s.pending := rfl
@[simp] theorem settleTb_tb (s t : State) : (settleTb s t).tb = t.tb := rfl
@[simp] theorem settleTb_freeCtr (s t : State) : (settleTb s t).freeCtr = t.freeCtr := rfl
@[simp] theorem settleTb_resp (s t : State) : (settleTb s t).resp = t.resp := rfl
@[simp] theorem settleTb_regs (s t : State) : (settleTb s t).regs = t.regs := rfl
@[simp] theorem settleTb_mem (s t : State) : (settleTb s t).mem = t.mem := rfl
@[simp] theorem settleTb_lockKey (s t : State) : (settleTb s t).lockKey = t.lockKey := rfl
@[simp] theorem settleTb_resetting (s t : State) : (settleTb s t).resetting = t.resetting := rfl
@[simp] theorem settleTb_epoch (s t : State) : (settleTb s t).epoch = t.epoch := rfl
@[simp] theorem settleTb_stalled (s t : State) : (settleTb s t).stalled = t.stalled := rfl
@[simp] theorem settleTb_claims (s t : State) : (settleTb s t).claims = t.claims := rfl
@[simp] theorem settleTb_swi (s t : State) : (settleTb s t).swi = t.swi := rfl
@[simp] theorem settleTb_sent (s t : State) : (settleTb s t).sent = t.sent := rfl
@[simp] theorem settleTb_nand (s t : State) : (settleTb s t).nand = t.nand := rfl
@[simp] theorem settleTb_cont (s t : State) : (settleTb s t).cont = t.cont := rfl
@[simp] theorem settleTb_ser (s t : State) : (settleTb s t).ser = t.ser := rfl
@[simp] theorem settleTb_usb (s t : State) : (settleTb s t).usb = t.usb := rfl
@[simp] theorem settleTb_trg (s t : State) : (settleTb s t).trg = t.trg := rfl
@[simp] theorem settleTb_cap (s t : State) : (settleTb s t).cap = t.cap := rfl
@[simp] theorem settleTb_detIn (s t : State) : (settleTb s t).detIn = t.detIn := rfl
@[simp] theorem settleTb_det (s t : State) : (settleTb s t).det = t.det := rfl
@[simp] theorem settleTb_mir (s t : State) : (settleTb s t).mir = t.mir := rfl
@[simp] theorem settleTb_ptab (s t : State) : (settleTb s t).ptab = t.ptab := rfl
@[simp] theorem settleTb_evq (s t : State) : (settleTb s t).evq = t.evq := rfl
@[simp] theorem settleTb_evr (s t : State) : (settleTb s t).evr = t.evr := rfl
@[simp] theorem settleTb_line (s t : State) : (settleTb s t).line = t.line := rfl
@[simp] theorem settleTb_pix (s t : State) : (settleTb s t).pix = t.pix := rfl
@[simp] theorem settleTb_dim (s t : State) : (settleTb s t).dim = t.dim := rfl
@[simp] theorem settleTb_sched (s t : State) : (settleTb s t).sched = t.sched := rfl
@[simp] theorem settleTb_attr (s t : State) : (settleTb s t).attr = t.attr := rfl
@[simp] theorem settleTb_diag (s t : State) : (settleTb s t).diag = t.diag := rfl
@[simp] theorem settleTb_nupd (s t : State) : (settleTb s t).nupd = t.nupd := rfl
@[simp] theorem settleTb_met (s t : State) : (settleTb s t).met = t.met := rfl
@[simp] theorem settleTb_crv (s t : State) : (settleTb s t).crv = t.crv := rfl
@[simp] theorem settleTb_eth (s t : State) : (settleTb s t).eth = t.eth := rfl
@[simp] theorem settleTb_erg (s t : State) : (settleTb s t).erg = t.erg := rfl
@[simp] theorem settleTb_twin (s t : State) : (settleTb s t).twin = t.twin := rfl
@[simp] theorem settleTb_opt (s t : State) : (settleTb s t).opt = t.opt := rfl
@[simp] theorem settleTb_keys (s t : State) : (settleTb s t).keys = t.keys := rfl
@[simp] theorem settleTb_rtc (s t : State) : (settleTb s t).rtc = t.rtc := rfl
@[simp] theorem settleTb_railsOn (s t : State) : (settleTb s t).railsOn = t.railsOn := rfl
@[simp] theorem settleTb_oas (s t : State) : (settleTb s t).oas = t.oas := rfl
@[simp] theorem settleTb_rst (s t : State) : (settleTb s t).rst = t.rst := rfl
@[simp] theorem settleTb_sec (s t : State) : (settleTb s t).sec = t.sec := rfl
@[simp] theorem settleTb_cryp (s t : State) : (settleTb s t).cryp = t.cryp := rfl
@[simp] theorem settleTb_boot (s t : State) : (settleTb s t).boot = t.boot := rfl
@[simp] theorem settleTb_dmaNext (s t : State) : (settleTb s t).dmaNext = t.dmaNext := rfl
@[simp] theorem settleTb_cmdq (s t : State) : (settleTb s t).cmdq = t.cmdq := rfl
@[simp] theorem settleTb_transient (s t : State) : (settleTb s t).transient = t.transient := rfl

end Sys2Proof.Machine
end

