-- ==== Sys2Proof/Laws/Ops.lean ====
section
/-! SUPPORT. What the shared operations over registers, memory and pages do, said once. -/
namespace Sys2Proof.Machine

/-! ### Registers -/

@[simp] theorem reg_answer (r : Resp) (s : State) (p : Page) (off : Nat) : reg (answer r s) p off = reg s p off := rfl
@[simp] theorem reg_settle (s t : State) (p : Page) (off : Nat) : reg (settle s t) p off = reg t p off := rfl
@[simp] theorem reg_settleTb (s t : State) (p : Page) (off : Nat) : reg (settleTb s t) p off = reg t p off := rfl
@[simp] theorem regB_settle (s t : State) (p : Page) (off n : Nat) : regB (settle s t) p off n = regB t p off n := rfl
@[simp] theorem regB_settleTb (s t : State) (p : Page) (off n : Nat) : regB (settleTb s t) p off n = regB t p off n := rfl
@[simp] theorem regI_settle (s t : State) (p : Page) (off : Nat) (i : Fin 10) : regI (settle s t) p off i = regI t p off i := rfl
@[simp] theorem memByte_settle (s t : State) (a : Nat) : memByte (settle s t) a = memByte t a := rfl
@[simp] theorem memByte_settleTb (s t : State) (a : Nat) : memByte (settleTb s t) a = memByte t a := rfl
@[simp] theorem reg_used (s : State) (p : Page) (off : Nat) : reg (used s) p off = reg s p off := rfl
@[simp] theorem reg_send (x : Sent) (s : State) (p : Page) (off : Nat) : reg (send x s) p off = reg s p off := rfl
@[simp] theorem reg_memPut (a : Nat) (b : Byte) (s : State) (p : Page) (off : Nat) : reg (memPut a b s) p off = reg s p off := rfl
@[simp] theorem regI_answer (r : Resp) (s : State) (p : Page) (off : Nat) (i : Fin 10) : regI (answer r s) p off i = regI s p off i := rfl

/-- A register read after a register write. -/
theorem reg_setReg (p q : Page) (a b : Nat) (v : Word) (s : State) :
    reg (setReg p a v s) q b = if regKey p a = regKey q b then v else reg s q b := by
  simp [reg, setReg, spGet_spPut]

@[simp] theorem reg_setReg_self (p : Page) (a : Nat) (v : Word) (s : State) : reg (setReg p a v s) p a = v := by
  simp [reg_setReg]

theorem reg_setReg_off (p : Page) {a b : Nat} (h : a ≠ b) (v : Word) (s : State) :
    reg (setReg p a v s) p b = reg s p b := by
  rw [reg_setReg, if_neg]; unfold regKey; omega

/-- An initiator's register read after its write. -/
theorem regI_setRegI (p q : Page) (a b : Nat) (i j : Fin 10) (v : Word) (s : State) :
    regI (setRegI p a i v s) q b j = if regKeyI p a i = regKeyI q b j then v else regI s q b j := by
  simp [regI, setRegI, spGet_spPut]

@[simp] theorem regI_setRegI_self (p : Page) (a : Nat) (i : Fin 10) (v : Word) (s : State) :
    regI (setRegI p a i v s) p a i = v := by
  simp [regI_setRegI]

/-- Page bases lie below 2^31, so a register of an initiator never shares a key with a common one. -/
theorem pageBase_lt (p : Page) : pageBase p < 0x401A1000 := by
  cases p <;> simp only [pageBase] <;> omega

/-- Pages lie 4 KiB apart: their bases tell them apart. -/
theorem pageAt_base (p : Page) : pageAt (pageBase p) = some p := by
  cases p with
  | line n => revert n; decide
  | mch n => revert n; decide
  | tb n => revert n; decide
  | rf n => revert n; decide
  | eth n => revert n; decide
  | _ => decide

theorem pageBase_inj {p q : Page} (h : pageBase p = pageBase q) : p = q := by
  have := pageAt_base p
  rw [h, pageAt_base q] at this
  exact (Option.some.inj this).symm

/-- Every base is a multiple of 4 KiB. -/
theorem pageBase_mod (p : Page) : pageBase p % 0x1000 = 0 := by
  cases p <;> simp only [pageBase] <;> omega

theorem regKey_inj {p q : Page} {a b : Nat} (ha : a < 0x1000) (hb : b < 0x1000) (h : regKey p a = regKey q b) :
    p = q ∧ a = b := by
  have h1 := pageBase_mod p
  have h2 := pageBase_mod q
  unfold regKey at h
  have hab : a = b := by omega
  exact ⟨pageBase_inj (by omega), hab⟩

/-- A register of another page or offset is not touched. -/
theorem reg_setReg_other {p q : Page} {a b : Nat} (ha : a < 0x1000) (hb : b < 0x1000) (h : p ≠ q ∨ a ≠ b) (v : Word) (s : State) :
    reg (setReg p a v s) q b = reg s q b := by
  rw [reg_setReg, if_neg]
  intro hk
  obtain ⟨h1, h2⟩ := regKey_inj ha hb hk
  cases h with
  | inl h => exact h h1
  | inr h => exact h h2

@[simp] theorem reg_setRegI (p q : Page) {a b : Nat} (hb : b < 0x1000) (i : Fin 10) (v : Word) (s : State) :
    reg (setRegI p a i v s) q b = reg s q b := by
  have h := pageBase_lt q
  have hi : regKeyI p a i ≠ regKey q b := by unfold regKeyI regKey; omega
  simp [reg, setRegI, spGet_spPut, hi]

/-! ### Memory -/

/-- A byte read after a byte written. -/
theorem memByte_memPut (a b : Nat) (v : Byte) (s : State) :
    memByte (memPut a v s) b = if a = b then v else memByte s b := by
  simp [memByte, memPut, spGet_spPut]

/-- A write of bytes leaves every other address alone. -/
theorem memByte_memWrite_other (bs : List Byte) (a b : Nat) (s : State) (h : b < a ∨ a + bs.length ≤ b) :
    memByte (memWrite a bs s) b = memByte s b := by
  induction bs generalizing a s with
  | nil => rfl
  | cons x bs ih =>
    simp only [List.length_cons] at h
    simp only [memWrite]
    rw [ih (a + 1) (memPut a x s) (by omega), memByte_memPut, if_neg (by omega)]

/-- Each byte written is read back. -/
theorem memByte_memWrite_self (bs : List Byte) (a k : Nat) (s : State) (h : k < bs.length) :
    memByte (memWrite a bs s) (a + k) = bs[k] := by
  induction bs generalizing a k s with
  | nil => simp at h
  | cons x bs ih =>
    simp only [memWrite]
    cases k with
    | zero => rw [memByte_memWrite_other _ _ _ _ (by omega), memByte_memPut]; simp
    | succ k =>
      have h2 := ih (a + 1) k (memPut a x s) (by simpa using h)
      have e : a + (k + 1) = a + 1 + k := by omega
      rw [e, h2]; simp

/-- Every write of memory keeps the canonical form. -/
theorem memPut_wf (a : Nat) (v : Byte) {s : State} (w : Memory.wf s.mem = true) : Memory.wf (memPut a v s).mem = true :=
  spPut_wf _ _ _ w

theorem memWrite_wf (bs : List Byte) (a : Nat) {s : State} (w : Memory.wf s.mem = true) :
    Memory.wf (memWrite a bs s).mem = true := by
  induction bs generalizing a s with
  | nil => exact w
  | cons x bs ih => exact ih (a + 1) (memPut_wf a x w)

/-- Every write of a register keeps the register store's canonical form. -/
theorem setReg_wf (p : Page) (a : Nat) (v : Word) {s : State} (w : spWf regReset s.regs = true) :
    spWf regReset (setReg p a v s).regs = true := spPut_wf _ _ _ w

theorem setRegI_wf (p : Page) (a : Nat) (i : Fin 10) (v : Word) {s : State} (w : spWf regReset s.regs = true) :
    spWf regReset (setRegI p a i v s).regs = true := spPut_wf _ _ _ w

/-- A bus answer does not bear on what a register takes. -/
theorem applyRules_answer (r : Resp) (s : State) (p : Page) (off : Nat) (old : Word) (rules : List FieldRule) (v : Word) (hit : Bool) :
    applyRules (answer r s) p off old rules v hit = applyRules s p off old rules v hit := by
  induction rules generalizing v hit with
  | nil => rfl
  | cons x rules ih =>
    have e : applyRule (answer r s) p off old v hit x = applyRule s p off old v hit x := by cases x <;> rfl
    simp only [applyRules, e]
    cases applyRule s p off old v hit x with
    | value w h => exact ih w h
    | refuse c => rfl

@[simp] theorem writeTaken_answer (r : Resp) (s : State) (p : Page) (off : Nat) (v : Word) :
    writeTaken p off v (answer r s) = writeTaken p off v s := by
  simp only [writeTaken, applyRules_answer]; rfl

/-! ### Outcomes -/

/-- What keeps the queue and the time is left as it is. -/
theorem settle_eq {s t : State} (hp : t.pending = s.pending) (ht : t.tb = s.tb) : settle s t = t := by
  cases t; cases hp; cases ht; rfl

theorem settleTb_eq {s t : State} (hp : t.pending = s.pending) : settleTb s t = t := by
  cases t; cases hp; rfl

/-- A command whose effect keeps the queue and the time answers that effect. -/
theorem done_eq {s t : State} (hp : t.pending = s.pending) (ht : t.tb = s.tb) : done s t = .next t := by
  rw [done, settle_eq hp ht]

theorem doneTb_eq {s t : State} (hp : t.pending = s.pending) : doneTb s t = .next t := by
  rw [doneTb, settleTb_eq hp]

@[simp] theorem setRegB_pending (p : Page) (off n : Nat) (b : Bool) (s : State) : (setRegB p off n b s).pending = s.pending := by
  simp [setRegB]
@[simp] theorem setRegB_tb (p : Page) (off n : Nat) (b : Bool) (s : State) : (setRegB p off n b s).tb = s.tb := by simp [setRegB]
@[simp] theorem setRegF_pending (p : Page) (off hi lo v : Nat) (s : State) : (setRegF p off hi lo v s).pending = s.pending := by
  simp [setRegF]
@[simp] theorem setRegF_tb (p : Page) (off hi lo v : Nat) (s : State) : (setRegF p off hi lo v s).tb = s.tb := by simp [setRegF]
@[simp] theorem bumpReg_pending (p : Page) (off : Nat) (s : State) : (bumpReg p off s).pending = s.pending := by simp [bumpReg]
@[simp] theorem bumpReg_tb (p : Page) (off : Nat) (s : State) : (bumpReg p off s).tb = s.tb := by simp [bumpReg]
@[simp] theorem bumpRegF_pending (p : Page) (off hi lo : Nat) (s : State) : (bumpRegF p off hi lo s).pending = s.pending := by
  simp [bumpRegF]
@[simp] theorem bumpRegF_tb (p : Page) (off hi lo : Nat) (s : State) : (bumpRegF p off hi lo s).tb = s.tb := by simp [bumpRegF]
@[simp] theorem raiseIrq_pending (p : Page) (n : Nat) (s : State) : (raiseIrq p n s).pending = s.pending := by simp [raiseIrq]
@[simp] theorem raiseIrq_tb (p : Page) (n : Nat) (s : State) : (raiseIrq p n s).tb = s.tb := by simp [raiseIrq]
@[simp] theorem recErrAt_pending (p : Page) (c l : Nat) (s : State) : (recErrAt p c l s).pending = s.pending := by simp [recErrAt]
@[simp] theorem recErrAt_tb (p : Page) (c l : Nat) (s : State) : (recErrAt p c l s).tb = s.tb := by simp [recErrAt]
@[simp] theorem recErr_pending (p : Page) (c : Nat) (s : State) : (recErr p c s).pending = s.pending := by simp [recErr]
@[simp] theorem recErr_tb (p : Page) (c : Nat) (s : State) : (recErr p c s).tb = s.tb := by simp [recErr]
@[simp] theorem setRegB_mem (p : Page) (off n : Nat) (b : Bool) (s : State) : (setRegB p off n b s).mem = s.mem := by simp [setRegB]
@[simp] theorem setRegF_mem (p : Page) (off hi lo v : Nat) (s : State) : (setRegF p off hi lo v s).mem = s.mem := by simp [setRegF]
@[simp] theorem bumpReg_mem (p : Page) (off : Nat) (s : State) : (bumpReg p off s).mem = s.mem := by simp [bumpReg]
@[simp] theorem bumpRegF_mem (p : Page) (off hi lo : Nat) (s : State) : (bumpRegF p off hi lo s).mem = s.mem := by simp [bumpRegF]
@[simp] theorem raiseIrq_mem (p : Page) (n : Nat) (s : State) : (raiseIrq p n s).mem = s.mem := by simp [raiseIrq]
@[simp] theorem recErrAt_mem (p : Page) (c l : Nat) (s : State) : (recErrAt p c l s).mem = s.mem := by simp [recErrAt]
@[simp] theorem recErr_mem (p : Page) (c : Nat) (s : State) : (recErr p c s).mem = s.mem := by simp [recErr]
@[simp] theorem memWrite_pending (bs : List Byte) (a : Nat) (s : State) : (memWrite a bs s).pending = s.pending := by
  induction bs generalizing a s with
  | nil => rfl
  | cons x bs ih => simp [memWrite, ih]
@[simp] theorem memWrite_tb (bs : List Byte) (a : Nat) (s : State) : (memWrite a bs s).tb = s.tb := by
  induction bs generalizing a s with
  | nil => rfl
  | cons x bs ih => simp [memWrite, ih]

/-! ### Admission -/

/-- An admitted write is its effect. -/
theorem admitWrite_open {s : State} {ini : Ini} {p : Page} {off : Nat} (h : writeOpen s ini p off = true) (v : Word)
    (fx : State → State) : admitWrite ini p off v fx s = fx (answer .ok s) := by
  simp only [writeOpen, keyHolder, Bool.and_eq_true, Bool.or_eq_true, Bool.not_eq_true', decide_eq_true_eq, beq_iff_eq,
    Option.isNone_iff_eq_none] at h
  obtain ⟨⟨⟨⟨⟨⟨h1, h2⟩, h3⟩, h4⟩, h5⟩, h6⟩, h7⟩ := h
  have hk : (if off = 0x020 ∨ off = 0x014 then s else cancelKey p s) = s := by
    split
    · rfl
    · rename_i h
      simp [cancelKey, h6.resolve_left fun e => h (.inl e)]
  have ha : (asleep s p && decide (0x40 ≤ off)) = false := by
    cases h5 with
    | inl h => simp [h]
    | inr h => simp; omega
  simp only [admitWrite, h1, h2, h3, h4, h7, hk, ha]
  simp

/-- An admitted read is its effect. -/
theorem admitRead_open {s : State} {ini : Ini} {p : Page} (h : readOpen s ini p = true) (off : Nat) (fx : State → State) :
    admitRead ini p off fx s = fx s := by
  unfold readOpen at h
  simp only [Bool.and_eq_true, Bool.not_eq_true'] at h
  obtain ⟨⟨h1, h2⟩, h3⟩ := h
  simp [admitRead, h1, h2, h3]

/-- A work request that reaches a page taking work is carried out. -/
theorem workRequest_open {s : State} {p : Page} (he : enabled s p = true) (hq : quiescing s p = false) (fx : State → State) :
    workRequest p fx s = fx s := by simp [workRequest, he, hq]

/-- An admitted work request is its effect. -/
theorem admitWork_open {s : State} {ini : Ini} {p : Page} {off : Nat} (h : workOpen s ini p off = true) (v : Word)
    (fx : State → State) : admitWrite ini p off v (workRequest p fx) s = fx (answer .ok s) := by
  simp only [workOpen, Bool.and_eq_true, Bool.not_eq_true'] at h
  rw [admitWrite_open h.1.1]
  exact workRequest_open (s := answer .ok s) h.1.2 h.2 fx

/-- A refused initiator gets PRIV, and nothing else changes (R23). -/
theorem admitWrite_priv {s : State} {ini : Ini} {p : Page} {off : Nat} (ha : absentPage p = false)
    (h : writeAdmitted ini p off = false) (v : Word) (fx : State → State) :
    admitWrite ini p off v fx s = answer (.err .priv) s := by
  simp [admitWrite, ha, h]

end Sys2Proof.Machine
end

