-- ==== Sys2Proof/Laws/Frame.lean ====
section
/-! SUPPORT. Frames: an operation on a page leaves the registers of other pages, memory, the time bases and the queue alone. -/
namespace Sys2Proof.Machine

/-- An initiator's register is not a common one. -/
theorem regI_setReg_other (p q : Page) {a b : Nat} (ha : a < 0x1000) (i : Fin 10) (v : Word) (s : State) :
    regI (setReg p a v s) q b i = regI s q b i := by
  have h := pageBase_lt p
  have hi : regKey p a ≠ regKeyI q b i := by unfold regKeyI regKey; omega
  simp [regI, setReg, spGet_spPut, hi]

/-- An initiator's register of another page is not touched. -/
theorem regI_setRegI_other {p q : Page} {a b : Nat} (ha : a < 0x1000) (hb : b < 0x1000) (h : p ≠ q) (i j : Fin 10) (v : Word)
    (s : State) : regI (setRegI p a i v s) q b j = regI s q b j := by
  rw [regI_setRegI, if_neg]
  intro hk
  have h1 := pageBase_lt p
  have h2 := pageBase_lt q
  have : regKey p a = regKey q b := by unfold regKeyI at hk; unfold regKey; omega
  exact h (regKey_inj ha hb this).1

theorem OnlyPage.refl (p : Page) (s : State) : OnlyPage p s s := ⟨fun _ _ _ _ => ⟨rfl, fun _ => rfl⟩, fun _ => rfl, rfl, rfl⟩

theorem OnlyPage.trans {p : Page} {s t u : State} (h : OnlyPage p s t) (k : OnlyPage p t u) : OnlyPage p s u :=
  ⟨fun q off ho hq => ⟨(k.1 q off ho hq).1.trans (h.1 q off ho hq).1, fun i => ((k.1 q off ho hq).2 i).trans ((h.1 q off ho hq).2 i)⟩,
    fun a => (k.2.1 a).trans (h.2.1 a), k.2.2.1.trans h.2.2.1, k.2.2.2.trans h.2.2.2⟩

/-- What changes none of the four touches no page. -/
theorem OnlyPage.of_eq {p : Page} {s t : State} (hr : t.regs = s.regs) (hm : t.mem = s.mem) (ht : t.tb = s.tb)
    (hp : t.pending = s.pending) : OnlyPage p s t :=
  ⟨fun q off _ _ => ⟨by unfold reg; rw [hr], fun i => by unfold regI; rw [hr]⟩, fun a => by unfold memByte; rw [hm], ht, hp⟩

theorem onlyPage_setReg (p : Page) {off : Nat} (h : off < 0x1000) (v : Word) (s : State) : OnlyPage p s (setReg p off v s) :=
  ⟨fun _ _ ho hq => ⟨reg_setReg_other h ho (.inl (Ne.symm hq)) v s, fun i => regI_setReg_other _ _ h i v s⟩,
    fun _ => by unfold memByte; rw [setReg_mem], setReg_tb .., setReg_pending ..⟩

theorem onlyPage_setRegI (p : Page) {off : Nat} (h : off < 0x1000) (i : Fin 10) (v : Word) (s : State) :
    OnlyPage p s (setRegI p off i v s) :=
  ⟨fun _ _ ho hq => ⟨reg_setRegI _ _ ho i v s, fun j => regI_setRegI_other h ho (Ne.symm hq) i j v s⟩,
    fun _ => by unfold memByte; rw [setRegI_mem], setRegI_tb .., setRegI_pending ..⟩

theorem onlyPage_setRegB (p : Page) {off : Nat} (h : off < 0x1000) (n : Nat) (b : Bool) (s : State) :
    OnlyPage p s (setRegB p off n b s) := onlyPage_setReg p h _ s

theorem onlyPage_bumpRegF (p : Page) {off : Nat} (h : off < 0x1000) (hi lo : Nat) (s : State) :
    OnlyPage p s (bumpRegF p off hi lo s) := onlyPage_setReg p h _ s

theorem onlyPage_raiseIrq (p : Page) (n : Nat) (s : State) : OnlyPage p s (raiseIrq p n s) := onlyPage_setReg p (by decide) _ s

theorem onlyPage_answer (p : Page) (r : Resp) (s : State) : OnlyPage p s (answer r s) := .of_eq rfl rfl rfl rfl

/-- One register more. -/
theorem OnlyPage.setReg {p : Page} {s t : State} {off : Nat} (h : OnlyPage p s t) (ho : off < 0x1000) (v : Word) :
    OnlyPage p s (setReg p off v t) := h.trans (onlyPage_setReg p ho v t)

theorem onlyPage_recErrAt (p : Page) (c l : Nat) (s : State) : OnlyPage p s (recErrAt p c l s) := by
  unfold recErrAt raiseIrq setRegB
  dsimp only
  exact ((((OnlyPage.setReg (.refl p s) (by decide) _).setReg (by decide) _).setReg (by decide) _).setReg (by decide) _).setReg
    (by decide) _

theorem onlyPage_recErr (p : Page) (c : Nat) (s : State) : OnlyPage p s (recErr p c s) := onlyPage_recErrAt p c locNone s

theorem onlyPage_cancelKey (p : Page) (s : State) : OnlyPage p s (cancelKey p s) := by
  unfold cancelKey
  split
  · exact .refl p s
  · exact (OnlyPage.of_eq (s := s) (t := { s with lockKey := spPut (fun _ => 0) (pageBase p) 0 s.lockKey }) rfl rfl rfl rfl).trans
      (onlyPage_recErr p _ _)

/-- A work request whose work stays in the page. -/
theorem onlyPage_workRequest {p : Page} {fx : State → State} {s : State} (h : OnlyPage p s (fx s)) : OnlyPage p s (workRequest p fx s) := by
  unfold workRequest
  split
  · exact (onlyPage_recErr p _ s).trans (onlyPage_answer p _ _)
  · split
    · exact (onlyPage_recErr p _ s).trans (onlyPage_answer p _ _)
    · exact h

theorem onlyPage_keyed {p : Page} {k : Nat} {v : Word} {fx : State → State} {s : State} (h : OnlyPage p s (fx s)) :
    OnlyPage p s (keyed p k v fx s) := by
  unfold keyed
  split
  · exact h
  · exact onlyPage_recErr p _ s

/-- A plain register write stays in its page. -/
theorem onlyPage_plainWrite (ini : Ini) (p : Page) {off : Nat} (h : off < 0x1000) (v : Word) (s : State) :
    OnlyPage p s (plainWrite ini p off v s) := by
  unfold plainWrite
  generalize rowOf p off = r
  split
  · exact .refl p s
  · split
    · exact .refl p s
    · exact .refl p s
    · exact .refl p s
    · exact onlyPage_setReg p h _ s
    · dsimp only
      split
      · exact onlyPage_recErr p _ s
      · rename_i r _ _ _ w hit _
        have hs : OnlyPage p s (if r.perIni = true then setRegI p off ini.id w s else setReg p off w s) := by
          split
          · exact onlyPage_setRegI p h _ _ s
          · exact onlyPage_setReg p h _ s
        generalize (if r.perIni = true then setRegI p off ini.id w s else setReg p off w s) = s1 at hs
        split
        · exact hs.trans (onlyPage_recErr p _ _)
        · exact hs

/-- An admitted write, and one that is refused, stay in the page if the effect does. -/
theorem onlyPage_admitWrite {ini : Ini} {p : Page} {off : Nat} {v : Word} {fx : State → State} (h : ∀ s, OnlyPage p s (fx s)) (s : State) :
    OnlyPage p s (admitWrite ini p off v fx s) := by
  unfold admitWrite
  dsimp only
  have hc : OnlyPage p s (if off = 0x020 ∨ off = 0x014 then s else cancelKey p s) := by
    split
    · exact .refl p s
    · exact onlyPage_cancelKey p s
  generalize (if off = 0x020 ∨ off = 0x014 then s else cancelKey p s) = x at hc ⊢
  split
  · exact onlyPage_answer p _ s
  · split
    · exact onlyPage_answer p _ s
    · split
      · exact .of_eq rfl rfl rfl rfl
      · split
        · exact hc.trans ((onlyPage_recErr p _ _).trans (onlyPage_answer p _ _))
        · split
          · exact hc.trans ((onlyPage_recErr p _ _).trans (onlyPage_answer p _ _))
          · exact hc.trans ((onlyPage_answer p _ _).trans (h _))

/-- A read stays in the page if its effect does. -/
theorem onlyPage_admitRead {ini : Ini} {p : Page} {off : Nat} {fx : State → State} (h : ∀ s, OnlyPage p s (fx s)) (s : State) :
    OnlyPage p s (admitRead ini p off fx s) := by
  unfold admitRead
  split
  · exact onlyPage_answer p _ s
  · split
    · exact onlyPage_answer p _ s
    · split
      · exact .of_eq rfl rfl rfl rfl
      · exact h s

/-- A repeated operation that stays in the page each time. -/
theorem onlyPage_forEach {α : Type} {p : Page} {f : α → State → State} (l : List α) (h : ∀ x ∈ l, ∀ s, OnlyPage p s (f x s)) (s : State) :
    OnlyPage p s (forEach f l s) := by
  induction l generalizing s with
  | nil => exact .refl p s
  | cons x l ih => exact (h x List.mem_cons_self s).trans (ih (fun y hy => h y (List.mem_cons_of_mem _ hy)) _)

theorem OnlyPage.setRegI {p : Page} {s t : State} {off : Nat} (h : OnlyPage p s t) (ho : off < 0x1000) (i : Fin 10) (v : Word) :
    OnlyPage p s (setRegI p off i v t) := h.trans (onlyPage_setRegI p ho i v t)

theorem OnlyPage.recErr {p : Page} {s t : State} (h : OnlyPage p s t) (c : Nat) : OnlyPage p s (recErr p c t) :=
  h.trans (onlyPage_recErr p c t)

theorem OnlyPage.raiseIrq {p : Page} {s t : State} (h : OnlyPage p s t) (n : Nat) : OnlyPage p s (raiseIrq p n t) :=
  h.trans (onlyPage_raiseIrq p n t)

theorem OnlyPage.bumpRegF {p : Page} {s t : State} {off : Nat} (h : OnlyPage p s t) (ho : off < 0x1000) (hi lo : Nat) :
    OnlyPage p s (bumpRegF p off hi lo t) := h.trans (onlyPage_bumpRegF p ho hi lo t)

theorem OnlyPage.answer {p : Page} {s t : State} (h : OnlyPage p s t) (r : Resp) : OnlyPage p s (answer r t) :=
  h.trans (onlyPage_answer p r t)

theorem OnlyPage.send {p : Page} {s t : State} (h : OnlyPage p s t) (x : Sent) : OnlyPage p s (send x t) :=
  h.trans (.of_eq rfl rfl rfl rfl)

/-- A command that ends with its effect. -/
theorem onlyPage_done {p : Page} {s t u : State} (h : OnlyPage p s t) (e : done s t = .next u) : OnlyPage p s u := by
  rw [done_eq h.2.2.2 h.2.2.1] at e
  injection e with e
  subst e
  exact h

end Sys2Proof.Machine
end

