-- ==== Sys2Proof/Laws/Link.lean ====
section
/-! SUPPORT. What telling the peer of a change changes: the twin controller and what the block has sent, nothing else (R469). -/
namespace Sys2Proof.Machine

theorem linkSend_eq (i : LinkItem) (s : State) : ∃ t o, linkSend i s = { s with twin := t, sent := o } := ⟨_, _, rfl⟩

theorem jrnTell_eq (i : LinkItem) (s : State) : ∃ t o, jrnTell i s = { s with twin := t, sent := o } := by
  unfold jrnTell; split
  · exact linkSend_eq i s
  · exact ⟨_, _, rfl⟩

theorem pointTell_eq (i : Nat) (f : Fin 12288 → LinkItem) (s : State) : ∃ t o, pointTell i f s = { s with twin := t, sent := o } := by
  unfold pointTell; split
  · exact jrnTell_eq _ s
  · exact ⟨_, _, rfl⟩

theorem stTell_eq (i : Nat) (s : State) : ∃ t o, stTell i s = { s with twin := t, sent := o } := pointTell_eq ..

theorem cfgTell_eq (i : Nat) (s : State) : ∃ t o, cfgTell i s = { s with twin := t, sent := o } := pointTell_eq ..

theorem sesTell_eq (n : Nat) (x y : CrvSes) (s : State) : ∃ t o, sesTell n x y s = { s with twin := t, sent := o } := by
  unfold sesTell; split
  · exact linkSend_eq _ s
  · exact ⟨_, _, rfl⟩

@[simp] theorem jrnTell_tb (i s) : (jrnTell i s).tb = s.tb := by
  obtain ⟨_, _, e⟩ := jrnTell_eq i s; rw [e]

@[simp] theorem jrnTell_pending (i s) : (jrnTell i s).pending = s.pending := by
  obtain ⟨_, _, e⟩ := jrnTell_eq i s; rw [e]

@[simp] theorem jrnTell_line (i s) : (jrnTell i s).line = s.line := by
  obtain ⟨_, _, e⟩ := jrnTell_eq i s; rw [e]

@[simp] theorem jrnTell_pix (i s) : (jrnTell i s).pix = s.pix := by
  obtain ⟨_, _, e⟩ := jrnTell_eq i s; rw [e]

@[simp] theorem jrnTell_regs (i s) : (jrnTell i s).regs = s.regs := by
  obtain ⟨_, _, e⟩ := jrnTell_eq i s; rw [e]

@[simp] theorem jrnTell_crv (i s) : (jrnTell i s).crv = s.crv := by
  obtain ⟨_, _, e⟩ := jrnTell_eq i s; rw [e]

@[simp] theorem jrnTell_dim (i s) : (jrnTell i s).dim = s.dim := by
  obtain ⟨_, _, e⟩ := jrnTell_eq i s; rw [e]

@[simp] theorem pointTell_tb (i f s) : (pointTell i f s).tb = s.tb := by
  obtain ⟨_, _, e⟩ := pointTell_eq i f s; rw [e]

@[simp] theorem pointTell_pending (i f s) : (pointTell i f s).pending = s.pending := by
  obtain ⟨_, _, e⟩ := pointTell_eq i f s; rw [e]

@[simp] theorem pointTell_line (i f s) : (pointTell i f s).line = s.line := by
  obtain ⟨_, _, e⟩ := pointTell_eq i f s; rw [e]

@[simp] theorem pointTell_pix (i f s) : (pointTell i f s).pix = s.pix := by
  obtain ⟨_, _, e⟩ := pointTell_eq i f s; rw [e]

@[simp] theorem pointTell_regs (i f s) : (pointTell i f s).regs = s.regs := by
  obtain ⟨_, _, e⟩ := pointTell_eq i f s; rw [e]

@[simp] theorem pointTell_crv (i f s) : (pointTell i f s).crv = s.crv := by
  obtain ⟨_, _, e⟩ := pointTell_eq i f s; rw [e]

@[simp] theorem pointTell_dim (i f s) : (pointTell i f s).dim = s.dim := by
  obtain ⟨_, _, e⟩ := pointTell_eq i f s; rw [e]

@[simp] theorem stTell_tb (i s) : (stTell i s).tb = s.tb := by
  obtain ⟨_, _, e⟩ := stTell_eq i s; rw [e]

@[simp] theorem stTell_pending (i s) : (stTell i s).pending = s.pending := by
  obtain ⟨_, _, e⟩ := stTell_eq i s; rw [e]

@[simp] theorem stTell_line (i s) : (stTell i s).line = s.line := by
  obtain ⟨_, _, e⟩ := stTell_eq i s; rw [e]

@[simp] theorem stTell_pix (i s) : (stTell i s).pix = s.pix := by
  obtain ⟨_, _, e⟩ := stTell_eq i s; rw [e]

@[simp] theorem stTell_regs (i s) : (stTell i s).regs = s.regs := by
  obtain ⟨_, _, e⟩ := stTell_eq i s; rw [e]

@[simp] theorem stTell_crv (i s) : (stTell i s).crv = s.crv := by
  obtain ⟨_, _, e⟩ := stTell_eq i s; rw [e]

@[simp] theorem stTell_dim (i s) : (stTell i s).dim = s.dim := by
  obtain ⟨_, _, e⟩ := stTell_eq i s; rw [e]

@[simp] theorem cfgTell_tb (i s) : (cfgTell i s).tb = s.tb := by
  obtain ⟨_, _, e⟩ := cfgTell_eq i s; rw [e]

@[simp] theorem cfgTell_pending (i s) : (cfgTell i s).pending = s.pending := by
  obtain ⟨_, _, e⟩ := cfgTell_eq i s; rw [e]

@[simp] theorem cfgTell_line (i s) : (cfgTell i s).line = s.line := by
  obtain ⟨_, _, e⟩ := cfgTell_eq i s; rw [e]

@[simp] theorem cfgTell_pix (i s) : (cfgTell i s).pix = s.pix := by
  obtain ⟨_, _, e⟩ := cfgTell_eq i s; rw [e]

@[simp] theorem cfgTell_regs (i s) : (cfgTell i s).regs = s.regs := by
  obtain ⟨_, _, e⟩ := cfgTell_eq i s; rw [e]

@[simp] theorem cfgTell_crv (i s) : (cfgTell i s).crv = s.crv := by
  obtain ⟨_, _, e⟩ := cfgTell_eq i s; rw [e]

@[simp] theorem cfgTell_dim (i s) : (cfgTell i s).dim = s.dim := by
  obtain ⟨_, _, e⟩ := cfgTell_eq i s; rw [e]

@[simp] theorem sesTell_tb (n x y s) : (sesTell n x y s).tb = s.tb := by
  obtain ⟨_, _, e⟩ := sesTell_eq n x y s; rw [e]

@[simp] theorem sesTell_pending (n x y s) : (sesTell n x y s).pending = s.pending := by
  obtain ⟨_, _, e⟩ := sesTell_eq n x y s; rw [e]

@[simp] theorem sesTell_line (n x y s) : (sesTell n x y s).line = s.line := by
  obtain ⟨_, _, e⟩ := sesTell_eq n x y s; rw [e]

@[simp] theorem sesTell_pix (n x y s) : (sesTell n x y s).pix = s.pix := by
  obtain ⟨_, _, e⟩ := sesTell_eq n x y s; rw [e]

@[simp] theorem sesTell_regs (n x y s) : (sesTell n x y s).regs = s.regs := by
  obtain ⟨_, _, e⟩ := sesTell_eq n x y s; rw [e]

@[simp] theorem sesTell_crv (n x y s) : (sesTell n x y s).crv = s.crv := by
  obtain ⟨_, _, e⟩ := sesTell_eq n x y s; rw [e]

@[simp] theorem sesTell_dim (n x y s) : (sesTell n x y s).dim = s.dim := by
  obtain ⟨_, _, e⟩ := sesTell_eq n x y s; rw [e]

theorem totTell_eq (s : State) : ∃ t o, totTell s = { s with twin := t, sent := o } := by
  unfold totTell; split
  · generalize List.finRange 24 = l
    have h : ∀ (u : State), (∃ a b, u = { s with twin := a, sent := b }) → ∃ a b, forEach (fun k t =>
        jrnTell (.totals k (native (totOf t k.val).imp % 2 ^ 64) (native (totOf t k.val).exp % 2 ^ 64)) t) l u = { s with twin := a, sent := b } := by
      induction l with
      | nil => exact fun u h => h
      | cons x l ih =>
        intro u ⟨a, b, h⟩
        exact ih _ (by obtain ⟨c, d, e⟩ := jrnTell_eq (.totals x (native (totOf u x.val).imp % 2 ^ 64) (native (totOf u x.val).exp % 2 ^ 64)) u
                       exact ⟨c, d, e.trans (by rw [h])⟩)
    exact h s ⟨_, _, rfl⟩
  · exact ⟨_, _, rfl⟩

@[simp] theorem totTell_met (s : State) : (totTell s).met = s.met := by obtain ⟨_, _, e⟩ := totTell_eq s; rw [e]

@[simp] theorem totTell_mem (s : State) : (totTell s).mem = s.mem := by obtain ⟨_, _, e⟩ := totTell_eq s; rw [e]

theorem putSes_eq (n : Nat) (x : CrvSes) (s : State) : ∃ t o, putSes n x s =
    { s with crv := { s.crv with ses := spPut (fun _ => {}) n x s.crv.ses }, twin := t, sent := o } := by
  obtain ⟨t, o, e⟩ := sesTell_eq n (sesOf s n) x (onCrv (fun c => { c with ses := spPut (fun _ => {}) n x c.ses }) s)
  exact ⟨t, o, e⟩

@[simp] theorem putSes_tb (n x s) : (putSes n x s).tb = s.tb := by obtain ⟨_, _, e⟩ := putSes_eq n x s; rw [e]

@[simp] theorem putSes_pending (n x s) : (putSes n x s).pending = s.pending := by obtain ⟨_, _, e⟩ := putSes_eq n x s; rw [e]

@[simp] theorem peSet_tb (n k s) : (peSet n k s).tb = s.tb := jrnTell_tb ..

@[simp] theorem peSet_pending (n k s) : (peSet n k s).pending = s.pending := jrnTell_pending ..

@[simp] theorem caravanTell_tb (s) : (caravanTell s).tb = s.tb := jrnTell_tb ..

@[simp] theorem caravanTell_pending (s) : (caravanTell s).pending = s.pending := jrnTell_pending ..

end Sys2Proof.Machine
end

