-- ==== Sys2Proof/Laws/Time.lean ====
section
/-! SUPPORT. What moves the time bases: the lemmas by which every step keeps them legal (R70-R76). -/
namespace Sys2Proof.Machine

/-! ### Operations that leave the time bases alone -/

theorem forEach_tb {α : Type} (f : α → State → State) (l : List α) (h : ∀ x ∈ l, ∀ s, (f x s).tb = s.tb) (s : State) :
    (forEach f l s).tb = s.tb := by
  induction l generalizing s with
  | nil => rfl
  | cons x l ih =>
    show (forEach f l (f x s)).tb = s.tb
    rw [ih (fun y hy => h y (List.mem_cons_of_mem _ hy)), h x List.mem_cons_self]

theorem plainWrite_tb (ini : Ini) (p : Page) (off : Nat) (v : Word) (s : State) : (plainWrite ini p off v s).tb = s.tb := by
  unfold plainWrite
  split
  · rfl
  · split
    · rfl
    · rfl
    · rfl
    · simp
    · dsimp only
      split
      · simp
      · split <;> split <;> simp

theorem cancelKey_tb (p : Page) (s : State) : (cancelKey p s).tb = s.tb := by unfold cancelKey; split <;> simp

theorem keyed_tb (p : Page) (k : Nat) (v : Word) (fx : State → State) (s : State) (h : (fx s).tb = s.tb) :
    (keyed p k v fx s).tb = s.tb := by unfold keyed; split <;> simp [h]

theorem eccRecord_tb (u : Bool) (a b c : Nat) (s : State) : (eccRecord u a b c s).tb = s.tb := by
  unfold eccRecord eccEvent; cases u <;> simp

theorem levelIrq_tb (p : Page) (n : Nat) (b : Bool) (s : State) : (levelIrq p n b s).tb = s.tb := by
  unfold levelIrq; dsimp only; split <;> simp

theorem timeKept_resetting (p : Page) (a s : State) : (timeKept p a s).resetting = s.resetting := by cases p <;> rfl

/-! ### Legal time -/

/-- Only the time bases bear on whether the time is legal. -/
theorem timeLegal_of_tb {s t : State} (h : t.tb = s.tb) (w : timeLegal s = true) : timeLegal t = true := by
  unfold timeLegal at *; rw [h]; exact w

theorem timeLegal_zero {t : State} (h : t.tb = {}) : timeLegal t = true := by
  unfold timeLegal; rw [h]; decide

theorem timeLegal_iff (s : State) : timeLegal s = true ↔ ∀ n, (tbOf s.tb n).legal = true := by
  unfold timeLegal
  simp only [Bool.and_eq_true]
  constructor
  · rintro ⟨⟨⟨h0, h1⟩, h2⟩, h3⟩ n
    match n with
    | 0 => exact h0
    | 1 => exact h1
    | 2 => exact h2
    | 3 => exact h3
  · intro h; exact ⟨⟨⟨h 0, h 1⟩, h 2⟩, h 3⟩

theorem tbOf_setTb (n m : Fin 4) (b : TimeBase) (t : TimeBases) : tbOf (setTb n b t) m = if n = m then b else tbOf t m := by
  match n, m with
  | 0, 0 | 0, 1 | 0, 2 | 0, 3 | 1, 0 | 1, 1 | 1, 2 | 1, 3 | 2, 0 | 2, 1 | 2, 2 | 2, 3 | 3, 0 | 3, 1 | 3, 2 | 3, 3 => rfl

/-- A base set to a legal time leaves the time legal. -/
theorem timeLegal_setTb {s t : State} {n : Fin 4} {b : TimeBase} (h : t.tb = setTb n b s.tb) (hb : b.legal = true)
    (w : timeLegal s = true) : timeLegal t = true := by
  rw [timeLegal_iff] at *
  intro m
  rw [h, tbOf_setTb]
  split
  · exact hb
  · exact w m

theorem recErr_legal {s : State} (p : Page) (c : Nat) (w : timeLegal s = true) : timeLegal (recErr p c s) = true :=
  timeLegal_of_tb (recErr_tb p c s) w

theorem answer_legal {s : State} (r : Resp) (w : timeLegal s = true) : timeLegal (answer r s) = true := w

theorem used_legal {s : State} (w : timeLegal s = true) : timeLegal (used s) = true := w

theorem putTb_legal {s : State} {n : Fin 4} {b : TimeBase} (hb : b.legal = true) (w : timeLegal s = true) :
    timeLegal (putTb n b s) = true := timeLegal_setTb (s := s) (n := n) rfl hb w

/-! ### A cycle -/

theorem legal_parts {b : TimeBase} (h : b.legal = true) :
    b.sec < 2 ^ 48 ∧ b.ns < 1000000000 ∧ b.frac < 2 ^ 32 ∧ incInRange (b.inc : Int) = true ∧
      (b.slewLeft = 0 ∨ incInRange ((b.inc : Int) + b.slewOff) = true) := by
  simpa [TimeBase.legal, and_assoc] using h

theorem incInRange_le {i : Int} (h : incInRange i = true) : 0 ≤ i ∧ i < 5 * 2 ^ 32 := by
  unfold incInRange incNominal at h
  simp only [Bool.and_eq_true, decide_eq_true_eq] at h
  omega

/-- The increment in effect lies below 5 ns. -/
theorem effInc_lt {s : State} (w : timeLegal s = true) (k : Nat) (n : Fin 4) : effInc s k n < 5 * 2 ^ 32 := by
  rw [timeLegal_iff] at w
  induction k generalizing n with
  | zero => have := incInRange_le (legal_parts (w n)).2.2.2.1; unfold effInc; omega
  | succ k ih =>
    unfold effInc; dsimp only
    split
    · split
      · exact ih _
      · have := incInRange_le (legal_parts (w (Fin.ofNat 4 (follow s n - 1)))).2.2.2.1
        omega
    · have h := legal_parts (w n)
      have h1 := incInRange_le h.2.2.2.1
      unfold slewNow; dsimp only
      split
      · rename_i hs
        simp only [Bool.and_eq_true, decide_eq_true_eq] at hs
        rcases h.2.2.2.2 with h2 | h2
        · omega
        · have := incInRange_le h2; omega
      · omega

/-- A cycle keeps a base legal. -/
theorem tbCycle_legal {b : TimeBase} {inc : Nat} (h : b.legal = true) (hi : inc < 5 * 2 ^ 32) : (tbCycle inc b).legal = true := by
  have hp := legal_parts h
  obtain ⟨h1, h2, h3, h4, h5⟩ := hp
  have hn : (b.frac + inc) / 2 ^ 32 ≤ 5 := by omega
  have hs : (b.slewLeft - 1 == 0 || incInRange ((b.inc : Int) + b.slewOff)) = true := by
    rcases h5 with h5 | h5
    · simp [h5]
    · simp [h5]
  unfold tbCycle TimeBase.legal
  dsimp only
  rw [hs, h4]
  simp only [Bool.and_true, Bool.and_eq_true, decide_eq_true_eq]
  refine ⟨⟨?_, ?_⟩, ?_⟩
  · split <;> omega
  · split <;> omega
  · omega

theorem tbTick_legal {s : State} (w : timeLegal s = true) (n : Fin 4) : (tbTick s n).legal = true := by
  unfold tbTick
  split
  · exact tbCycle_legal ((timeLegal_iff s).mp w n) (effInc_lt w 4 n)
  · exact (timeLegal_iff s).mp w n

theorem tbsTick_legal {s t : State} (h : t.tb = tbsTick s) (w : timeLegal s = true) : timeLegal t = true := by
  rw [timeLegal_iff]
  intro n
  rw [h]
  match n with
  | 0 => exact tbTick_legal w 0
  | 1 => exact tbTick_legal w 1
  | 2 => exact tbTick_legal w 2
  | 3 => exact tbTick_legal w 3

theorem rawDrain_tb (q : Nat) (s : State) : (rawDrain q s).tb = s.tb := by
  unfold rawDrain; dsimp only
  split
  · rfl
  · split <;> rfl

theorem idleTick_legal {s : State} (w : timeLegal s = true) : timeLegal (idleTick s) = true := by
  unfold idleTick
  split
  · exact w
  · dsimp only
    refine tbsTick_legal (s := s) ?_ w
    rw [rawDrain_tb, rawDrain_tb]
    generalize hc : decide (oasTicks s.tb.cycles < oasTicks (s.tb.cycles + 1)) = c
    split <;> rfl

/-! ### Writes of the TB pages -/

/-- An admitted write keeps the time legal where its effect does. -/
theorem admitWrite_legal {s : State} {ini : Ini} {p : Page} {off : Nat} {v : Word} {fx : State → State}
    (h : ∀ u : State, timeLegal u = true → timeLegal (fx u) = true) (w : timeLegal s = true) :
    timeLegal (admitWrite ini p off v fx s) = true := by
  unfold admitWrite
  split
  · exact w
  · split
    · exact w
    · split
      · exact w
      · have hk : timeLegal (if off = 0x020 ∨ off = 0x014 then s else cancelKey p s) = true :=
          timeLegal_of_tb (by split <;> simp [cancelKey_tb]) w
        dsimp only
        generalize (if off = 0x020 ∨ off = 0x014 then s else cancelKey p s) = k at hk ⊢
        split
        · exact answer_legal _ (recErr_legal _ _ hk)
        · split
          · exact answer_legal _ (recErr_legal _ _ hk)
          · exact h _ (answer_legal _ hk)

theorem admitRead_legal {s : State} {ini : Ini} {p : Page} {off : Nat} {fx : State → State}
    (h : ∀ u : State, timeLegal u = true → timeLegal (fx u) = true) (w : timeLegal s = true) :
    timeLegal (admitRead ini p off fx s) = true := by
  unfold admitRead
  split
  · exact w
  · split
    · exact w
    · split
      · exact w
      · exact h s w

theorem plainWrite_legal {s : State} (ini : Ini) (p : Page) (off : Nat) (v : Word) (w : timeLegal s = true) :
    timeLegal (plainWrite ini p off v s) = true := timeLegal_of_tb (plainWrite_tb ini p off v s) w

theorem incCommit_legal {s : State} (ini : Ini) (n : Fin 4) (v : Word) (w : timeLegal s = true) :
    timeLegal (incCommit ini n v s) = true := by
  unfold incCommit
  split
  · exact recErr_legal _ _ w
  · dsimp only
    generalize ho : (if 0 < (tbOf s.tb n).slewLeft then (tbOf s.tb n).slewOff else 0 : Int) = o
    split
    · rename_i h
      simp only [Bool.and_eq_true] at h
      have hb := legal_parts ((timeLegal_iff s).mp w n)
      refine putTb_legal ?_ (plainWrite_legal _ _ _ _ w)
      unfold TimeBase.legal
      simp only [Bool.and_eq_true, decide_eq_true_eq, Bool.or_eq_true, beq_iff_eq]
      refine ⟨⟨⟨⟨hb.1, hb.2.1⟩, hb.2.2.1⟩, h.1⟩, ?_⟩
      by_cases h0 : (tbOf s.tb n).slewLeft = 0
      · exact Or.inl h0
      · rw [if_pos (by omega)] at ho
        rw [ho]
        exact Or.inr h.2
    · exact recErr_legal _ _ w

theorem slewWrite_legal {s : State} (n : Fin 4) (v : Word) (w : timeLegal s = true) : timeLegal (slewWrite n v s) = true := by
  have hb := legal_parts ((timeLegal_iff s).mp w n)
  have k1 : (tbOf s.tb n).sec < 281474976710656 := hb.1
  have k2 : (tbOf s.tb n).frac < 4294967296 := hb.2.2.1
  unfold slewWrite
  dsimp only
  split
  · exact recErr_legal _ _ w
  · split
    · refine putTb_legal ?_ w
      unfold TimeBase.legal
      simp [hb.1, hb.2.1, hb.2.2.1, hb.2.2.2.1, k1, k2]
    · split
      · rename_i h
        refine putTb_legal ?_ w
        unfold TimeBase.legal
        have h' : incInRange (((tbOf s.tb n).inc : Int) + signed 32 (regN s (Page.tb n) 0x068)) = true := h
        simp [hb.1, hb.2.1, hb.2.2.1, hb.2.2.2.1, h', k1, k2]
      · exact recErr_legal _ _ w

theorem stepTarget_lt (s : State) (n : Fin 4) (offset : Bool) : (stepTarget s n offset).1 < 2 ^ 48 ∧ (stepTarget s n offset).2 < 1000000000 := by
  unfold stepTarget
  dsimp only
  split
  · unfold stepTarget.unsignedMod
    generalize ((tbNs (tbOf s.tb n) : Nat) + signed 48 (regF s (.tb n) 0x07C 15 0 * 2 ^ 32 + regN s (.tb n) 0x078) * 1000000000 +
      ((regN s (.tb n) 0x074 % 1000000000 : Nat) : Int) : Int) = x
    have h1 := Int.emod_nonneg x (show ((2 ^ 48 * 1000000000 : Nat) : Int) ≠ 0 by decide)
    have h2 := Int.emod_lt_of_pos x (show (0 : Int) < ((2 ^ 48 * 1000000000 : Nat) : Int) by decide)
    have h3 : (x % ((2 ^ 48 * 1000000000 : Nat) : Int)).toNat < 2 ^ 48 * 1000000000 := by omega
    dsimp only
    omega
  · dsimp only
    have h1 : regF s (.tb n) 0x07C 15 0 < 2 ^ 16 := by
      unfold regF fld nfld; exact Nat.mod_lt _ (by decide)
    have h2 : regN s (.tb n) 0x078 < 2 ^ 32 := (reg s (.tb n) 0x078).isLt
    omega

theorem stepGo_legal {s : State} (n : Fin 4) (o : Bool) (w : timeLegal s = true) : timeLegal (stepGo n o s) = true := by
  unfold stepGo
  dsimp only
  split
  · exact recErr_legal _ _ w
  · split
    · exact recErr_legal _ _ w
    · refine timeLegal_setTb (s := s) (n := n) rfl ?_ w
      have hb := legal_parts ((timeLegal_iff s).mp w n)
      have ht := stepTarget_lt s n o
      unfold TimeBase.legal
      simp only [Bool.and_eq_true, decide_eq_true_eq, Bool.or_eq_true, beq_iff_eq]
      exact ⟨⟨⟨⟨ht.1, ht.2⟩, hb.2.2.1⟩, hb.2.2.2.1⟩, hb.2.2.2.2⟩

theorem stepCtrlWrite_legal {s : State} (n : Fin 4) (v : Word) (w : timeLegal s = true) : timeLegal (stepCtrlWrite n v s) = true := by
  unfold stepCtrlWrite; split
  · exact stepGo_legal n _ w
  · exact w

theorem stepArmWrite_legal {s : State} (n : Fin 4) (v : Word) (w : timeLegal s = true) :
    timeLegal (stepArmWrite n v s) = true := by
  unfold stepArmWrite
  split
  · exact putTb_legal ((timeLegal_iff s).mp w n) w
  · exact recErr_legal _ _ w

theorem tbWrite_legal {s : State} (ini : Ini) (n : Fin 4) (off : Nat) (v : Word) (w : timeLegal s = true) :
    timeLegal (tbWrite ini n off v s) = true := by
  unfold tbWrite
  split
  · unfold tbCtrlWrite; dsimp only; split
    · exact recErr_legal _ _ w
    · exact plainWrite_legal _ _ _ _ w
  · unfold tbRateWrite; split
    · exact recErr_legal _ _ w
    · exact plainWrite_legal _ _ _ _ w
  · exact incCommit_legal _ _ _ w
  · unfold tbRateWrite; split
    · exact recErr_legal _ _ w
    · exact plainWrite_legal _ _ _ _ w
  · exact slewWrite_legal _ _ w
  · exact stepCtrlWrite_legal _ _ w
  · exact stepArmWrite_legal _ _ w
  · exact plainWrite_legal _ _ _ _ w

/-! ### Resets -/

theorem landLevels_tb (old s : State) : (landLevels old s).tb = s.tb := by
  unfold landLevels; simp only [setRegB_tb, setReg_tb]
  exact forEach_tb _ _ (fun _ _ t => by simp) s

theorem coreReset_tb (s : State) : (coreReset s).tb = {} := by unfold coreReset; dsimp only; rw [landLevels_tb]

theorem episode_tb (bits : Nat) (por : Bool) (s : State) : (episode bits por s).tb = {} := by
  unfold episode; dsimp only; split <;> exact coreReset_tb s

theorem swRst_legal {s : State} (v : Word) (w : timeLegal s = true) : timeLegal (swRst v s) = true := by
  unfold swRst; split
  · exact timeLegal_zero (episode_tb ..)
  · exact w

/-- A block reset of any page: another page's reset keeps the time, a time base's own keeps or clears it (R633). -/
theorem pllEnable_tb (p : Page) (s : State) : (pllEnable p s).tb = s.tb := by
  unfold pllEnable; dsimp only; split
  · rfl
  · simp [pllHold, onRst]

theorem pllDisable_tb (p : Page) (s : State) : (pllDisable p s).tb = s.tb := by
  have k : ∀ u : State, u.tb = s.tb → (if (pllPages (pllOf p)).isEmpty || (pllPages (pllOf p)).any (enabled u) then u
      else onRst (fun r => { r with pllOff := r.pllOff &&& (63 - 2 ^ pllOf p), relock := r.relock &&& (63 - 2 ^ pllOf p) })
        (pllHold (pllOf p) false (setRegB .rstclk 0x050 (8 + pllOf p) false (setRegB .rstclk 0x050 (pllOf p) false u)))).tb = s.tb := by
    intro u h; split
    · exact h
    · simpa [pllHold, onRst] using h
  unfold pllDisable; dsimp only
  apply k
  split <;> rfl

theorem timeKept_tb {p : Page} (h : ∀ n, p ≠ .tb n) (s t : State) : (timeKept p s t).tb = s.tb := by
  cases p with
  | tb n => exact absurd rfl (h n)
  | _ => rfl

theorem resetDatapath_legal {s : State} (p : Page) (w : timeLegal s = true) : timeLegal (resetDatapath p s) = true := by
  unfold resetDatapath
  cases p with
  | tb n =>
    have h0 : ∀ t, (timeKept (.tb n) s (enterReset (.tb n) (pageReload s (.tb n) false t))).tb = t.tb := fun _ => rfl
    have h1 : (pageDatapath false (.tb n) s).tb = s.tb := forEach_tb _ _ (fun _ _ t => by simp) s
    dsimp only
    exact timeLegal_of_tb ((h0 _).trans ((setRegB_tb ..).trans ((setRegB_tb ..).trans h1))) w
  | _ => exact timeLegal_of_tb (timeKept_tb (by intro n h; cases h) s _) w

theorem resetFull_legal {s : State} (p : Page) (w : timeLegal s = true) : timeLegal (resetFull p s) = true := by
  unfold resetFull
  cases p with
  | tb n =>
    dsimp only
    refine timeLegal_setTb (s := s) (n := n) (b := {}) ?_ (by decide) w
    have h0 : ∀ t, (timeKept (.tb n) s (enterReset (.tb n) (pageReload s (.tb n) true t))).tb = t.tb := fun _ => rfl
    have h : (dropRegs (.tb n) (pageDatapath true (.tb n) s)).tb = setTb n {} s.tb :=
      congrArg (setTb n {}) (forEach_tb _ _ (fun _ _ t => by simp) s)
    rw [h0]
    split
    · rw [pllDisable_tb, h]
    · exact h
  | _ => exact timeLegal_of_tb (timeKept_tb (by intro n h; cases h) s _) w

theorem blkRst_legal {s : State} (p : Page) (v : Word) (w : timeLegal s = true) : timeLegal (blkRst p v s) = true := by
  unfold blkRst
  split
  · exact w
  · split
    · exact recErr_legal _ _ w
    · split
      · exact timeLegal_of_tb (by simp [resetErrors, clearErr]) w
      · split
        · exact recErr_legal _ _ w
        · split
          · exact resetDatapath_legal p w
          · exact resetFull_legal p w

/-! ### Header writes of the pages whose writes can move time -/

theorem ctrlWrite_legal {s : State} {p : Page} (hp : movesTime p = true) (v : Word) (w : timeLegal s = true) :
    timeLegal (ctrlWrite p v s) = true := by
  have hq : (∃ n, p = .tb n) ∨ p = .rstclk ∨ p = .oasis := by cases p <;> simp [movesTime] at hp ⊢
  have en : ∀ t, (pageEnable p t).tb = t.tb := by
    intro t; rcases hq with ⟨n, rfl⟩ | rfl | rfl <;> exact pllEnable_tb _ t
  have dis : ∀ t, (pageDisable p t).tb = t.tb := by
    intro t; rcases hq with ⟨n, rfl⟩ | rfl | rfl <;> exact pllDisable_tb _ t
  have qu : ∀ t, (pageQuiesce p t).tb = t.tb := by intro t; rcases hq with ⟨n, rfl⟩ | rfl | rfl <;> rfl
  have rel : ∀ t, (pageRelease p t).tb = t.tb := by intro t; rcases hq with ⟨n, rfl⟩ | rfl | rfl <;> rfl
  have sl : ∀ t, (blkSleep p t).tb = t.tb := by
    intro t; rcases hq with ⟨n, rfl⟩ | rfl | rfl <;> exact setRegB_tb ..
  have wk : ∀ t, (blkWake p t).tb = t.tb := by
    intro t; rcases hq with ⟨n, rfl⟩ | rfl | rfl <;> exact setRegB_tb ..
  have ce : ∀ a b t, (ctrlEn p a b t).tb = t.tb := by
    intro a b t; unfold ctrlEn; split
    · exact en t
    · split
      · exact dis t
      · rfl
  have cr : ∀ a b c d t, (ctrlReq p a b c d t).tb = t.tb := by
    intro a b c d t
    have h1 : (if bit b 1 then (if c && !d then blkSleep p t else t) else if d then blkWake p t else t : State).tb = t.tb := by
      split
      · split
        · exact sl t
        · rfl
      · split
        · exact wk t
        · rfl
    unfold ctrlReq; dsimp only
    split
    · split
      · exact h1
      · rw [qu, h1]
    · split
      · rw [rel, setRegB_tb, h1]
      · exact h1
  refine timeLegal_of_tb ?_ w
  unfold ctrlWrite; dsimp only
  rw [cr, ce]
  split <;> simp

theorem irqStatWrite_tb (p : Page) (v : Word) (s : State) : (irqStatWrite p v s).tb = s.tb := by
  unfold irqStatWrite; dsimp only; rw [cancelKey_tb]; split <;> simp [clearErr]

theorem lockWrite_tb (ini : Ini) (p : Page) (v : Word) (s : State) : (lockWrite ini p v s).tb = s.tb := by
  unfold lockWrite; dsimp only
  split
  · split <;> simp [armKey]
  · split
    · simp [armKey]
    · simp [cancelKey_tb]

theorem headerWrite_legal {s : State} {p : Page} (hp : movesTime p = true) (ini : Ini) (off : Nat) (v : Word) (w : timeLegal s = true) :
    timeLegal (headerWrite ini p off v s) = true := by
  unfold headerWrite
  split
  · exact ctrlWrite_legal hp v w
  · exact plainWrite_legal _ _ _ _ w
  · exact timeLegal_of_tb (irqStatWrite_tb ..) w
  · exact timeLegal_of_tb (lockWrite_tb ..) w
  · exact blkRst_legal p v w
  · exact plainWrite_legal _ _ _ _ w

theorem wdtKick_tb (ini : Ini) (v : Word) (s : State) : (wdtKick ini v s).tb = s.tb := by
  unfold wdtKick; split
  · split <;> simp
  · simp

theorem oasWrite_tb (ini : Ini) (off : Nat) (v : Word) (s : State) : (oasWrite ini off v s).tb = s.tb := by
  unfold oasWrite; dsimp only; split <;> rfl

/-! ### Bus accesses -/

/-- A write of any register keeps the time legal. -/
theorem regWrite_legal {s : State} (ini : Ini) (p : Page) (off : Nat) (v : Word) (w : timeLegal s = true) :
    timeLegal (regWrite ini p off v s) = true := by
  unfold regWrite; dsimp only
  split
  · rename_i hp
    split
    · exact headerWrite_legal hp ini off v w
    · cases p with
      | tb n => exact tbWrite_legal ini n off v w
      | rstclk =>
        show timeLegal (rstclkWrite ini off v s) = true
        unfold rstclkWrite; split
        · exact plainWrite_legal ini .rstclk 0x040 v w
        · exact timeLegal_of_tb (wdtKick_tb ..) w
        · exact swRst_legal v w
        · exact plainWrite_legal _ _ _ _ w
      | oasis => exact timeLegal_of_tb (oasWrite_tb ..) w
      | _ => simp [movesTime] at hp
  · exact timeLegal_of_tb (s := s) rfl w

/-- A read of any register keeps the time. -/
theorem regRead_tb (ini : Ini) (p : Page) (off : Nat) (s : State) : (regRead ini p off s).tb = s.tb := by
  unfold regRead
  split
  · rfl
  · split
    · rfl
    · unfold plainRead; split
      · rfl
      · split
        · rfl
        · simp [answer]
        · rfl

theorem busWrite_legal {s : State} (ini : Ini) (a : Nat) (v : Word) (w : timeLegal s = true) : timeLegal (busWrite ini a v s) = true := by
  unfold busWrite
  split
  · exact w
  · split
    · exact w
    · exact admitWrite_legal (fun u hu => regWrite_legal ini _ _ v hu) w

theorem busRead_legal {s : State} (ini : Ini) (a : Nat) (w : timeLegal s = true) : timeLegal (busRead ini a s) = true := by
  unfold busRead
  split
  · exact w
  · split
    · exact w
    · split
      · exact w
      · exact admitRead_legal (fun u hu => timeLegal_of_tb (regRead_tb ..) hu) w

theorem memStore_tb (ini : Ini) (a : Nat) (bs : List Byte) (s : State) : (memStore ini a bs s).tb = s.tb := by
  unfold memStore
  split <;> try rfl
  split
  · simp [answer, writeDiscarded]
  · simp [answer]

theorem memLoad_tb (ini : Ini) (a len : Nat) (s : State) : (memLoad ini a len s).tb = s.tb := by
  unfold memLoad
  split <;> try rfl
  split <;> rfl

theorem busStore_legal {s : State} (ini : Ini) (a : Nat) (bs : List Byte) (w : timeLegal s = true) :
    timeLegal (busStore ini a bs s) = true := by
  unfold busStore
  split
  · split
    · exact w
    · split
      · exact busWrite_legal _ _ _ w
      · exact w
  · split
    · exact w
    · split
      · exact w
      · exact timeLegal_of_tb (memStore_tb ..) w

theorem busLoad_legal {s : State} (ini : Ini) (a len : Nat) (w : timeLegal s = true) : timeLegal (busLoad ini a len s) = true := by
  unfold busLoad
  split
  · split
    · exact w
    · split
      · exact busRead_legal _ _ w
      · exact w
  · split
    · exact w
    · split
      · exact w
      · exact timeLegal_of_tb (memLoad_tb ..) w

theorem eccOf_tb (e : EccEvent) (a : Nat) (s : State) : (eccOf e a s).tb = s.tb := by
  unfold eccOf
  split
  · rfl
  · split
    · rfl
    · exact eccRecord_tb ..
    · exact eccRecord_tb ..

theorem eccSpoils_tb (e : EccEvent) (a w : Nat) (s : State) : (eccSpoils e a w s).tb = s.tb := by
  unfold eccSpoils
  split
  · split <;> rfl
  · rfl

theorem forEach_legal {α : Type} (f : α → State → State) (l : List α) (h : ∀ x, ∀ s, timeLegal s = true → timeLegal (f x s) = true) (s : State)
    (w : timeLegal s = true) : timeLegal (forEach f l s) = true := by
  induction l generalizing s with
  | nil => exact w
  | cons x l ih => exact ih _ (h x s w)

/-- The end of a block reset, with the accesses that stalled. -/
theorem blockResetDone_legal {s : State} (p : Page) (w : timeLegal s = true) : timeLegal (blockResetDone p s) = true := by
  unfold blockResetDone
  split
  · dsimp only
    refine forEach_legal _ _ (fun x t ht => ?_) _ (timeLegal_of_tb (s := s) rfl w)
    unfold replay
    split
    · exact busWrite_legal _ _ _ ht
    · exact busRead_legal _ _ ht
  · exact w

/-! ### DMA and CMDQ -/

theorem dmaEnd_st (a : Nat) (s : State) : (dmaEnd a s).st = s := by unfold dmaEnd; split <;> rfl

theorem dmaLoad1_legal (early : Bool) (a len : Nat) {s : State} (w : timeLegal s = true) : timeLegal (dmaLoad1 early a len s).st = true := by
  unfold dmaLoad1
  split
  · exact w
  · rw [dmaEnd_st]; split
    · exact busLoad_legal _ _ _ w
    · exact timeLegal_of_tb (memLoad_tb ..) w

theorem dmaStore1_legal (early : Bool) (a : Nat) (bs : List Byte) {s : State} (w : timeLegal s = true) :
    timeLegal (dmaStore1 early a bs s).st = true := by
  unfold dmaStore1
  split
  · exact w
  · rw [dmaEnd_st]; split
    · exact busStore_legal _ _ _ w
    · exact timeLegal_of_tb (memStore_tb ..) w

theorem dmaTake_legal (a len : Nat) (x y : DmaRun) (w : timeLegal y.st = true) : timeLegal (dmaTake a len x y).st = true := by
  have k : ∀ b : Bool, timeLegal (if b then used y.st else y.st) = true := by intro b; cases b <;> first | exact w | exact used_legal w
  unfold dmaTake; exact k _

theorem dmaEcc_legal (x : DmaRun) (w : timeLegal x.st = true) : timeLegal (dmaEcc x) = true := by
  unfold dmaEcc; split
  · exact timeLegal_of_tb (eccOf_tb ..) w
  · exact w

theorem dmaLoad_legal (early : Bool) (n a len : Nat) (x : DmaRun) (w : timeLegal x.st = true) : timeLegal (dmaLoad early n a len x).st = true := by
  induction n generalizing a len x with
  | zero => exact w
  | succ n ih =>
    unfold dmaLoad; split
    · exact w
    · exact ih _ _ _ (dmaTake_legal _ _ _ _ (dmaLoad1_legal early _ _ w))

theorem dmaStore_legal (early : Bool) (n a : Nat) (bs : List Byte) (x : DmaRun) (w : timeLegal x.st = true) :
    timeLegal (dmaStore early n a bs x).st = true := by
  induction n generalizing a bs x with
  | zero => exact w
  | succ n ih =>
    unfold dmaStore; split
    · exact w
    · exact ih _ _ (dmaGave _ _ x _) (dmaStore1_legal early _ _ w)

theorem dmaRead_legal (early : Bool) (a len : Nat) (x : DmaRun) (w : timeLegal x.st = true) : timeLegal (dmaRead early a len x).st = true :=
  dmaLoad_legal early _ a len _ w

theorem dmaPut_legal (early : Bool) (a : Nat) (bs : List Byte) (x : DmaRun) (w : timeLegal x.st = true) :
    timeLegal (dmaPut early a bs x).st = true := dmaStore_legal early _ a bs x w

theorem descRow_legal (early : Bool) (d : DmaDesc) (r : Nat) (x : DmaRun) (w : timeLegal x.st = true) :
    timeLegal (descRow early d r x).2.2.st = true := by
  unfold descRow
  split
  · exact w
  · exact dmaRead_legal _ _ _ _ w
  · exact dmaRead_legal _ _ _ _ w
  · exact w

theorem descBurst_legal (early : Bool) (d : DmaDesc) (src dst k m : Nat) (x : DmaRun) (w : timeLegal x.st = true) :
    timeLegal (descBurst early d src dst k m x).1.st = true := by
  unfold descBurst
  split
  · exact dmaPut_legal _ _ _ _ w
  · exact dmaRead_legal _ _ _ _ (dmaRead_legal _ _ _ _ w)
  · dsimp only
    split
    · exact dmaRead_legal _ _ _ _ w
    · split
      · exact dmaPut_legal _ _ _ _ (used_legal (dmaRead_legal _ _ _ _ w))
      · exact dmaPut_legal _ _ _ _ (dmaRead_legal _ _ _ _ w)

theorem descRun_legal (early : Bool) (d : DmaDesc) (n r k : Nat) (x : DmaRun) (w : timeLegal x.st = true) :
    timeLegal (descRun early d n r k x).1.st = true := by
  induction n generalizing r k x with
  | zero => exact w
  | succ n ih =>
    unfold descRun
    split
    · exact w
    · have h := descRow_legal early d r x w
      generalize descRow early d r x = q at h ⊢
      obtain ⟨src, dst, y⟩ := q
      dsimp only at h ⊢
      split
      · exact h
      · generalize ((d.mode != 4 && misfits src d.len) || misfits dst d.len : Bool) = bad
        generalize hm : min (if d.mode = 5 ∧ (touchesWindow src d.len || touchesWindow dst d.len) = true then 4 else 64) (d.len - k) = m
        have hb := descBurst_legal early d src dst k m y h
        generalize descBurst early d src dst k m y = z at hb ⊢
        split
        · exact h
        · split
          · exact hb
          · split
            · exact ih _ _ _ hb
            · exact ih _ _ _ hb

theorem fetchDesc_legal (early : Bool) (c : Nat) (x : DmaRun) (w : timeLegal x.st = true) : timeLegal (fetchDesc early c x).st = true :=
  dmaRead_legal _ _ _ _ w

@[simp] theorem setChStat_tb (c v : Nat) (s : State) : (setChStat c v s).tb = s.tb := by simp [setChStat]

theorem haltOther_legal (c : Nat) {s : State} (w : timeLegal s = true) : timeLegal (haltOther c s) = true := by
  unfold haltOther
  split
  · exact w
  · dsimp only
    split
    · exact w
    · exact used_legal (descRun_legal false _ _ 0 0 { fetchDesc false c { st := s } with data := [] } (fetchDesc_legal false c { st := s } w))

theorem dmaHalt_legal (c : Nat) (e : BusErr) (a : Nat) {s : State} (w : timeLegal s = true) : timeLegal (dmaHalt c e a s) = true := by
  unfold dmaHalt
  dsimp only
  have h := forEach_legal haltOther ((List.range 16).filter (· != c)) (fun x t ht => haltOther_legal x ht) s w
  refine timeLegal_of_tb ?_ h
  rw [recErr_tb, raiseIrq_tb]
  have e1 : ∀ t : State, (forEach (fun k t => setChStat k ((regN t .dma (chOff k 8) &&& 0xB) ||| 4) t) (List.range 16) t).tb = t.tb :=
    fun t => forEach_tb _ _ (fun k _ u => setChStat_tb ..) t
  split <;> simp [setRegB_tb, setRegF_tb, e1]

theorem descNext_tb (c : Nat) (d : DmaDesc) (m : Bool) (s : State) : (descNext c d m s).tb = s.tb := by
  have h : (if d.irq then chEvent c 0 s else s : State).tb = s.tb := by split <;> simp [chEvent]
  unfold descNext; dsimp only
  generalize (if d.irq then chEvent c 0 s else s : State) = u at h ⊢
  split
  · simp [chainEnd, chEvent, setChStat_tb, h]
  · split
    · rw [setChStat_tb]; exact h
    · rw [setReg_tb, h]

theorem descComplete_legal (early : Bool) (c : Nat) (x : DmaRun) (w : timeLegal x.st = true) : timeLegal (descComplete early c x).1 = true := by
  have hf := fetchDesc_legal early c x w
  unfold descComplete
  dsimp only
  split
  · exact dmaEcc_legal _ hf
  · split
    · exact timeLegal_of_tb (by simp [setChStat_tb]) (dmaEcc_legal _ hf)
    · have hr := descRun_legal early (descOf (wordsOf (fetchDesc early c x).data)) (descFuel (descOf (wordsOf (fetchDesc early c x).data))) 0 0
        { fetchDesc early c x with data := [] } hf
      generalize descRun early _ _ _ _ _ = r at hr ⊢
      split
      · exact dmaEcc_legal _ hr
      · have hw := dmaPut_legal early (regN x.st .dma (chOff c 0xC) + 28)
          (leBytes 4 (2 ^ 31 + (match r.2 with | some k => 2 ^ 30 + k | none => 0))) r.1 hr
        generalize dmaPut early _ _ _ = z at hw ⊢
        split
        · exact dmaEcc_legal _ hw
        · refine timeLegal_of_tb (descNext_tb ..) ?_
          split
          · exact timeLegal_of_tb (setReg_tb ..) (dmaEcc_legal _ hw)
          · exact dmaEcc_legal _ hw

@[simp] theorem cqFlags_tb (a b : Bool) (s : State) : (cqFlags a b s).tb = s.tb := by simp [cqFlags]

theorem cqRefuseStalled_tb (s : State) : (cqRefuseStalled s).tb = s.tb := by unfold cqRefuseStalled; split <;> rfl

theorem cqHalt_tb (c : Nat) (s : State) : (cqHalt c s).tb = s.tb := by
  unfold cqHalt; rw [cqRefuseStalled_tb]; simp [cqFlags_tb]

theorem cqJoin_tb (e : CqEntry) (s : State) : (cqJoin e s).tb = s.tb := by
  unfold cqJoin; dsimp only; split
  · rw [raiseIrq_tb]; rfl
  · rfl

theorem cqAdmit_tb (n : Nat) (s : State) : (cqAdmit n s).tb = s.tb := by
  induction n generalizing s with
  | zero => rfl
  | succ n ih =>
    unfold cqAdmit
    split
    · rfl
    · split
      · rw [ih]; show (cqJoin _ _).tb = _; rw [cqJoin_tb]; rfl
      · rfl

theorem cqDone_tb (s : State) : (cqDone s).tb = s.tb := by
  have h : (cqAdmit 32 (cqFlags false false (onCq (fun q => { q with entries := q.entries.drop 1 }) (bumpReg .cmdq 0x060 s)))).tb = s.tb := by
    rw [cqAdmit_tb, cqFlags_tb]; show (bumpReg .cmdq 0x060 s).tb = _; simp
  unfold cqDone; dsimp only; split
  · rw [raiseIrq_tb, h]
  · exact h

theorem cqTook_tb (r : Bool) (e : CqEntry) (x : Word) (s : State) : (cqTook r e x s).tb = s.tb := by
  unfold cqTook; split
  · rw [cqDone_tb]; split <;> rfl
  · exact cqFlags_tb ..

theorem cqAccess_legal (early : Bool) (e : CqEntry) {s : State} (w : timeLegal s = true) : timeLegal (cqAccess early e s).1 = true := by
  unfold cqAccess
  split
  · exact w
  · exact w
  · have h : timeLegal (if e.kind = 0 then busWrite e.ini e.addr e.data s else busRead e.ini e.addr s) = true := by
      split
      · exact busWrite_legal _ _ _ w
      · exact busRead_legal _ _ w
    dsimp only
    split <;> exact h

theorem cqTried_tb (s : State) : (cqTried s).tb = s.tb := rfl

theorem cqFails_legal (e : CqEntry) (x : BusErr) {s : State} (w : timeLegal s = true) : timeLegal (cqFails e x s) = true := by
  unfold cqFails
  split
  · exact timeLegal_of_tb (cqFlags_tb ..) w
  · have h1 : timeLegal (if x = .blockReset then recErr .cmdq errBlockReset s else s) = true := by
      split
      · exact recErr_legal _ _ w
      · exact w
    dsimp only
    generalize (if x = .blockReset then recErr .cmdq errBlockReset s else s : State) = u at h1 ⊢
    split
    · exact timeLegal_of_tb (cqHalt_tb ..) h1
    · split
      · exact timeLegal_of_tb (cqTried_tb _) h1
      · have h2 := cqAccess_legal false e (s := cqTried u) (timeLegal_of_tb (cqTried_tb _) h1)
        generalize cqAccess false e (cqTried u) = r at h2 ⊢
        split
        · exact timeLegal_of_tb (cqTook_tb ..) h2
        · exact timeLegal_of_tb (cqFlags_tb ..) h2
        · exact timeLegal_of_tb (cqHalt_tb ..) h2
        · exact h2

theorem cqRun_legal (early : Bool) {s : State} (w : timeLegal s = true) : timeLegal (cqRun early s) = true := by
  unfold cqRun
  split
  · exact w
  · rename_i e rest he
    dsimp only
    have h := cqAccess_legal early e w
    generalize cqAccess early e s = r at h ⊢
    generalize (!running s .cmdq || cqHalted s || _ : Bool) = stop
    cases stop
    · rw [if_neg (by decide)]
      split
      · exact timeLegal_of_tb (cqTook_tb ..) h
      · exact cqFails_legal e _ h
      · exact w
    · exact w

/-! ### Outcomes -/

theorem settleTb_legal {s t : State} (h : timeLegal t = true) : timeLegal (settleTb s t) = true := timeLegal_of_tb rfl h

end Sys2Proof.Machine
end

