-- ==== Sys2Proof/Laws/Outcome.lean ====
section
/-! SUPPORT. Lemmas on how a command ends: what its operations do, said once. -/
namespace Sys2Proof.Machine

theorem regI_setReg (p q : Page) {a b : Nat} (ha : a < 0x1000) (i : Fin 10) (v : Word) (s : State) :
    regI (setReg p a v s) q b i = regI s q b i := by
  have h := pageBase_lt p
  have hi : regKey p a ≠ regKeyI q b i := by unfold regKeyI regKey; omega
  simp [regI, setReg, spGet_spPut, hi]

theorem forEach_inv {α : Type} (P : State → Prop) (f : α → State → State) (l : List α) (h : ∀ x ∈ l, ∀ s, P s → P (f x s)) (s : State) (hs : P s) : P (forEach f l s) := by
  induction l generalizing s with
  | nil => exact hs
  | cons x l ih => exact ih (fun y hy => h y (by simp [hy])) _ (h x (by simp) _ hs)

theorem regB_setRegB_self (p off n b s) (h : n < 32) : regB (setRegB p off n b s) p off n = b := by simp [regB, setRegB, bit_setBit_self, h]

theorem capEdge_frame (src : Nat) (r : Bool) (s : State) (off : Nat) (hb : off < 0x1000) : reg (captureEdge src r s) .gpio off = reg s .gpio off ∧ (captureEdge src r s).mem = s.mem ∧ (captureEdge src r s).tb = s.tb ∧ (captureEdge src r s).pending = s.pending := by
  unfold captureEdge
  split
  · apply forEach_inv (fun t => reg t .gpio off = reg s .gpio off ∧ t.mem = s.mem ∧ t.tb = s.tb ∧ t.pending = s.pending)
    · intro c hc t ⟨h1, h2, h3, h4⟩
      have hc : c < 8 := by simpa using hc
      unfold capEdgeUnit
      split
      · dsimp only
        split
        · exact ⟨h1, h2, h3, h4⟩
        · refine ⟨?_, ?_, ?_, ?_⟩ <;> simp [bumpRegF, setRegF, h2, h3, h4]
          rw [reg_setReg_other (by omega) hb (by simp)]; exact h1
      · exact ⟨h1, h2, h3, h4⟩
    · exact ⟨rfl, rfl, rfl, rfl⟩
  · exact ⟨rfl, rfl, rfl, rfl⟩

theorem nandEnd_shows (i : Fin 10) (bits : Fin 9) (r u f : Bool) (s : State) : bit (regI (nandEnd i bits.val r u f s) .memc 0x08C i) 0 = false ∧ bit (regI (nandEnd i bits.val r u f s) .memc 0x08C i) 1 = true ∧ (nandEnd i bits.val r u f s).nand = s.nand := by
  refine ⟨?_, ?_, ?_⟩
  · simp only [nandEnd, raiseIrq, setRegB]; rw [regI_setReg _ _ (by decide)]; simp; revert bits r u f; decide
  · simp only [nandEnd, raiseIrq, setRegB]; rw [regI_setReg _ _ (by decide)]; simp; revert bits r u f; decide
  · simp [nandEnd, raiseIrq, setRegB]

@[simp] theorem nandSpoil_ops (o : NandOp) (s : State) : (nandSpoil o s).nand.ops = s.nand.ops := by simp only [nandSpoil, used_nand]

theorem nandEnd_shows0 (i : Fin 10) (r u f : Bool) (s : State) : bit (regI (nandEnd i 0 r u f s) .memc 0x08C i) 0 = false ∧ bit (regI (nandEnd i 0 r u f s) .memc 0x08C i) 1 = true ∧ (nandEnd i 0 r u f s).nand = s.nand := nandEnd_shows i 0 r u f s

@[simp] theorem memWrite_nand (bs : List Byte) (a : Nat) (s : State) : (memWrite a bs s).nand = s.nand := by
  induction bs generalizing a s with
  | nil => rfl
  | cons x bs ih => simp [memWrite, ih]

@[simp] theorem recErrAt_nand (p c l s) : (recErrAt p c l s).nand = s.nand := by simp [recErrAt, raiseIrq, setRegB]

@[simp] theorem eccEvent_nand (u a b c s) : (eccEvent u a b c s).nand = s.nand := by
  unfold eccEvent; cases u <;> simp [raiseIrq, setRegB, bumpRegF, setRegF]

@[simp] theorem eccRecord_nand (u a b c s) : (eccRecord u a b c s).nand = s.nand := by
  unfold eccRecord; cases u <;> simp

def NandShows (i : Fin 10) (l : List NandOp) (t : State) : Prop := t.nand.ops = l ∧ bit (regI t .memc 0x08C i) 0 = false ∧ bit (regI t .memc 0x08C i) 1 = true

theorem nandEnd_ns (i : Fin 10) (b : Fin 9) (r u f s) : NandShows i s.nand.ops (nandEnd i b.val r u f s) := ⟨by rw [(nandEnd_shows i b r u f s).2.2], (nandEnd_shows i b r u f s).1, (nandEnd_shows i b r u f s).2.1⟩

theorem nandFail_ns (i p r s) : NandShows i s.nand.ops (nandFail i p r s) := by
  have := nandEnd_ns i 0 r false true (recErrAt .memc 0x102 (locOfMem (serial16 s) 5 (p / 64 * 64 * 4096) 0x7F % 2 ^ 32) s)
  rw [recErrAt_nand] at this; exact this

theorem nandEnd_ns'' (i : Fin 10) (b : Fin 9) (r u f) (l) (s : State) (h : s.nand = l) : NandShows i l.ops (nandEnd i b.val r u f s) := by
  subst h; exact nandEnd_ns i b r u f s

theorem ite_nand {c : Prop} [Decidable c] {x y : State} {l} (hx : x.nand = l) (hy : y.nand = l) : (if c then x else y).nand = l := by split <;> assumption

theorem nandReadOk_ns (i o) (b : Fin 9) (r s) : NandShows i s.nand.ops (nandReadOk i o b.val r s) := by
  unfold nandReadOk
  dsimp only
  apply nandEnd_ns''
  have h1 : (if nandOpen s.nand o.page = true then used (memWrite o.buf (freeB s 4096) s) else memWrite o.buf (nandPage s.nand o.page) s).nand = s.nand :=
    ite_nand (by rw [used_nand, memWrite_nand]) (memWrite_nand _ _ _)
  generalize (if nandOpen s.nand o.page = true then used (memWrite o.buf (freeB s 4096) s) else memWrite o.buf (nandPage s.nand o.page) s) = x at h1 ⊢
  have h2 : (if r = true then used (eccEvent true 5 (codeword x o.page) 0x7F x) else x).nand = s.nand :=
    ite_nand (by rw [used_nand, eccEvent_nand, h1]) h1
  generalize (if r = true then used (eccEvent true 5 (codeword x o.page) 0x7F x) else x) = y at h2 ⊢
  exact ite_nand (by rw [used_nand, eccRecord_nand, h2]) h2

theorem nandReadBad_ns (i o s) : NandShows i s.nand.ops (nandReadBad i o s) := by
  unfold nandReadBad
  dsimp only
  apply nandEnd_ns'' i 0
  rw [used_nand, eccRecord_nand, eccEvent_nand, used_nand, memWrite_nand]

theorem nandEnd_ns' (i : Fin 10) (r u f) (l) (s : State) (h : s.nand.ops = l) : NandShows i l (nandEnd i 0 r u f s) := by
  subst h; exact nandEnd_ns i 0 r u f s

theorem nandProgramOk_ns (i o r s) : NandShows i s.nand.ops (nandProgramOk i o r s) := by
  unfold nandProgramOk; dsimp only; apply nandEnd_ns'; simp only; split <;> rfl

theorem nandEraseOk_ns (i o r s) : NandShows i s.nand.ops (nandEraseOk i o r s) := by
  unfold nandEraseOk; dsimp only; apply nandEnd_ns'; simp only

theorem nandSpoilFail_ns (i o p r s) : NandShows i s.nand.ops (nandFail i p r (nandSpoil o s)) := by
  have := nandFail_ns i p r (nandSpoil o s); rw [nandSpoil_ops] at this; exact this

theorem nandFinish_ns (i o r s) : NandShows i s.nand.ops (nandFinish i o r s) := by
  unfold nandFinish
  dsimp only
  split
  · exact nandFail_ns ..
  · split; exact nandReadBad_ns ..; exact nandReadOk_ns ..
  · split; exact nandReadBad_ns ..; exact nandReadOk_ns ..
  · exact nandReadBad_ns ..
  · exact nandProgramOk_ns ..
  · exact nandProgramOk_ns ..
  · exact nandSpoilFail_ns ..
  · exact nandEraseOk_ns ..
  · exact nandEraseOk_ns ..
  · exact nandSpoilFail_ns ..

@[simp] theorem setTb_self (n : Fin 4) (b : TimeBase) (t : TimeBases) : tbOf (setTb n b t) n = b := by fin_cases n <;> rfl

theorem and_all (v : Word) : v &&& word 0xFFFFFFFF = v := by
  have : word 0xFFFFFFFF = BitVec.allOnes 32 := by decide
  rw [this, BitVec.and_allOnes]

@[simp] theorem putTb_pending (n b s) : (putTb n b s).pending = s.pending := rfl

@[simp] theorem putTb_mem (n b s) : (putTb n b s).mem = s.mem := rfl

@[simp] theorem memWrite_regs (bs : List Byte) (a : Nat) (s : State) : (memWrite a bs s).regs = s.regs := by
  induction bs generalizing a s with
  | nil => rfl
  | cons x bs ih => simp [memWrite, ih]

@[simp] theorem memWriteWords_regs (ws : List Word) (a : Nat) (s : State) : (memWriteWords a ws s).regs = s.regs := by
  induction ws generalizing a s with
  | nil => rfl
  | cons x bs ih => simp only [memWriteWords, ih, setMem32, memWrite_regs]

theorem putLine_regs (i l s) : (putLine i l s).regs = s.regs := rfl

theorem ptWriteBack_regs (i s) : (ptWriteBack i s).regs = s.regs := by
  unfold ptWriteBack; split
  · split
    · rw [putLine_regs, memWriteWords_regs]
    · rfl
  · rfl

theorem reg_of_regs {s t : State} (h : t.regs = s.regs) (p o) : reg t p o = reg s p o := by unfold reg; rw [h]

theorem ptWriteBackAll_regs (s) : (ptWriteBackAll s).regs = s.regs :=
  forEach_inv (fun t => t.regs = s.regs) _ _ (fun x _ t ht => (ptWriteBack_regs x t).trans ht) s rfl

theorem elBit_setEl (n b c v s) (hb : b < 32) (hc : c < 32) : elBit (setEl n b v s) n c = if b = c then v else elBit s n c := by
  unfold elBit setEl setRegB regB; rw [reg_setReg_self]
  by_cases h : b = c
  · subst h; rw [if_pos rfl, bit_setBit_self _ _ _ hb]
  · rw [if_neg h, bit_setBit_ne _ _ _ _ hb (Ne.symm h)]

theorem elBit_off {n c p o v s} (h : o ≠ 0x44) (hp : p = linePage n): elBit (setReg p o v s) n c = elBit s n c := by
  subst hp; unfold elBit regB; rw [reg_setReg_off _ h]

@[simp] theorem elBit_setPort (n f s m c) : elBit (setPort n f s) m c = elBit s m c := rfl

theorem forEach_keep {α β : Type} (F : State → β) (f : α → State → State) (l : List α) (h : ∀ x s, F (f x s) = F s) (s : State) : F (forEach f l s) = F s := by
  induction l generalizing s with
  | nil => rfl
  | cons x l ih => exact (ih (f x s)).trans (h x s)

@[simp] theorem unsend_regs (n s) : (unsend n s).regs = s.regs := by
  unfold unsend; dsimp only; refine forEach_keep (·.regs) _ _ ?_ s; intro _ _; rfl

@[simp] theorem unsend_mem (n s) : (unsend n s).mem = s.mem := by
  unfold unsend; dsimp only; refine forEach_keep (·.mem) _ _ ?_ s; intro _ _; rfl

@[simp] theorem chunkBack_regs (n s) : (chunkBack n s).regs = s.regs := by unfold chunkBack; split <;> rfl

@[simp] theorem chunkBack_mem (n s) : (chunkBack n s).mem = s.mem := by unfold chunkBack; split <;> rfl

@[simp] theorem elBit_frameFails (n s m c) : elBit (frameFails n s) m c = elBit s m c := by
  unfold elBit regB
  have : (frameFails n s).regs = s.regs := (unsend_regs n _).trans (chunkBack_regs n s)
  rw [reg_of_regs this]

@[simp] theorem elBit_putLine (n l s m c) : elBit (putLine' n l s) m c = elBit s m c := rfl

@[simp] theorem lineOf_setReg (p o v s n) : lineOf (setReg p o v s) n = lineOf s n := by unfold lineOf; rw [setReg_line]

theorem lineOf_setEl (n b v s m) : lineOf (setEl n b v s) m = lineOf s m := by unfold setEl setRegB; rw [lineOf_setReg]

theorem lineOf_put (n l s m) : lineOf (putLine' n l s) m = if n = m then l else lineOf s m := by simp [lineOf, putLine', spGet_spPut]

theorem ite_self' {α} {c : Prop} [Decidable c] (a : α) : (if c then a else a) = a := by split <;> rfl

theorem lineOf_settle2 (s t : State) (n) : lineOf (settle s t) n = lineOf t n := rfl

theorem admNext {s t : State} {ini p off v} {fx : State → State} (h : writeOpen s ini p off = true) (e : fx (answer .ok s) = t) : done s (admitWrite ini p off v fx s) = .next (settle s t) := by
  rw [admitWrite_open h, e]; rfl

theorem admwNext {s t : State} {ini p off v} {fx : State → State} (h : workOpen s ini p off = true) (e : fx (answer .ok s) = t) : done s (admitWrite ini p off v (workRequest p fx) s) = .next (settle s t) := by
  rw [admitWork_open h, e]; rfl

theorem admNext' {s t : State} {ini p off v} {fx : State → State} (h : writeOpen s ini p off = true) (e : fx (answer .ok s) = t) (hp : t.pending = s.pending) (ht : t.tb = s.tb) : done s (admitWrite ini p off v fx s) = .next t := by
  rw [admitWrite_open h, e, done_eq hp ht]

theorem admwNext' {s t : State} {ini p off v} {fx : State → State} (h : workOpen s ini p off = true) (e : fx (answer .ok s) = t) (hp : t.pending = s.pending) (ht : t.tb = s.tb) : done s (admitWrite ini p off v (workRequest p fx) s) = .next t := by
  rw [admitWork_open h, e, done_eq hp ht]

theorem admrNext {s t : State} {ini p off} {fx : State → State} (h : readOpen s ini p = true) (e : fx s = t) : done s (admitRead ini p off fx s) = .next (settle s t) := by
  rw [admitRead_open h, e]; rfl

theorem admrNext' {s t : State} {ini p off} {fx : State → State} (h : readOpen s ini p = true) (e : fx s = t) (hp : t.pending = s.pending) (ht : t.tb = s.tb) : done s (admitRead ini p off fx s) = .next t := by
  rw [admitRead_open h, e, done_eq hp ht]

theorem evNext {s t x : State} (e : x = t) : done s x = .next (settle s t) := by rw [e]; rfl

theorem evNext' {s t x : State} (e : x = t) (hp : t.pending = s.pending) (ht : t.tb = s.tb) : done s x = .next t := by rw [e, done_eq hp ht]

theorem evTb {s t x : State} (e : x = t) : doneTb s x = .next (settleTb s t) := by rw [e]; rfl

theorem admTb {s t : State} {ini p off v} {fx : State → State} (h : writeOpen s ini p off = true) (e : fx (answer .ok s) = t) : doneTb s (admitWrite ini p off v fx s) = .next (settleTb s t) := by
  rw [admitWrite_open h, e]; rfl

theorem regI_setRegI_off (p : Page) {a b : Nat} (h : a ≠ b) (i : Fin 10) (v : Word) (s : State) : regI (setRegI p a i v s) p b i = regI s p b i := by
  rw [regI_setRegI, if_neg]; unfold regKeyI; omega

theorem execLoad_none (ini : Ini) (a len : Nat) (s : State) : exec (.memAccess ini (.read a len) .none) s = doneTb s (busLoad ini a len s) := by
  have e : ∀ w t, eccSpoils .none a w (eccOf .none w t) = t := fun w t => by unfold eccSpoils eccOf; simp
  show doneTb s (if _ then eccSpoils .none a _ (eccOf .none _ _) else _) = _
  rw [e, ite_self]

theorem execStore_none (ini : Ini) (a : Nat) (bs : List Byte) (s : State) : exec (.memAccess ini (.write a bs) .none) s = doneTb s (busStore ini a bs s) := by
  have e : ∀ w t, eccOf .none w t = t := fun w t => by unfold eccOf; simp
  show doneTb s (if _ then eccOf .none _ _ else _) = _
  rw [e, ite_self]

@[simp] theorem memWrite_lines (bs : List Byte) (a : Nat) (s : State) : (memWrite a bs s).line = s.line := by
  induction bs generalizing a s with
  | nil => rfl
  | cons x bs ih => simp [memWrite, ih]

@[simp] theorem memWriteWords_lines (ws : List Word) (a : Nat) (s : State) : (memWriteWords a ws s).line = s.line := by
  induction ws generalizing a s with
  | nil => rfl
  | cons x bs ih => simp only [memWriteWords, ih, setMem32, memWrite_lines]

@[simp] theorem ptPoke_lines (i w v s) : (ptPoke i w v s).line = s.line := by
  unfold ptPoke; split
  · rfl
  · simp [setMem32]

@[simp] theorem ptWriteBack_lines (i s) : (ptWriteBack i s).line = s.line := by
  unfold ptWriteBack; split
  · split
    · exact memWriteWords_lines ..
    · rfl
  · rfl

@[simp] theorem ptFill_lines (i s) : (ptFill i s).line = s.line := by
  have e : ∀ t, (ptEvict i t).line = t.line := fun t => by
    unfold ptEvict; dsimp only; split
    · rfl
    · exact ptWriteBack_lines ..
  have c : ∀ t, (ptCheck i t).line = t.line := fun t => by
    unfold ptCheck ptPokeF raiseIrq setRegB
    split
    · split <;> simp
    · rw [setReg_line]; split <;> simp
  unfold ptFill; dsimp only; exact (c _).trans (e s)

@[simp] theorem ptServe_lines (x : PtHeld) (s) : (ptServe x s).line = s.line := by
  have b : ∀ o t, (bumpReg .ptab o t).line = t.line := fun o t => by unfold bumpReg; exact setReg_line ..
  unfold ptServe; split
  · simp [recErr, recErrAt, raiseIrq, setRegB]
  · split
    · show (ptSee _ _).line = _
      unfold ptSee; split
      · simp [recErr, recErrAt, raiseIrq, setRegB]
      · split <;> simp [b]
    · refine (stTell_line ..).trans ((forEach_keep (·.line) _ _ (fun y t => by unfold ptWrite; split <;> simp) _).trans ?_)
      unfold ptTouch; split <;> simp [b]

@[simp] theorem ptEngine_lines (x : PtHeld) (s) : (ptEngine x s).line = s.line := by
  unfold ptEngine; split
  · exact ptServe_lines ..
  · rfl

theorem dimSeq_lines (i cause seq s) : (dimSeq i cause seq s).line = s.line := by
  unfold dimSeq; dsimp only; split
  · rfl
  · split
    · exact ptEngine_lines ..
    · rfl

theorem putLpos_line (n p x s) : lineOf (putLpos n p x s) n = { lineOf s n with pos := spPut (fun _ => {}) p x (lineOf s n).pos } := by
  unfold putLpos; rw [lineOf_put, if_pos rfl]

theorem lineOf_of_line {s t : State} (h : t.line = s.line) (n) : lineOf t n = lineOf s n := by unfold lineOf; rw [h]

theorem ite_lines {c : Prop} [Decidable c] {x y : State} {l} (hx : x.line = l) (hy : y.line = l) : (if c then x else y).line = l := by split <;> assumption

theorem urgWait_lines (n c sync s) : (urgWait n c sync s).line = s.line := by
  have r : ∀ v, (setReg .lseq 0x058 v s).line = s.line := fun v => setReg_line ..
  have i : ∀ t, (raiseIrq .lseq 1 t).line = t.line := fun t => by unfold raiseIrq setRegB; exact setReg_line ..
  unfold urgWait
  generalize max (tbNs s.tb.t0 / 1000) sync - c.since = w
  dsimp only
  split
  · rfl
  · split
    · rw [i, r]
    · rw [r]

theorem settingYield_line (n p s) : ∃ ps, lineOf (settingYield n p s) n = { lineOf s n with pos := ps } := by
  unfold settingYield; dsimp only; split
  · exact ⟨_, putLpos_line ..⟩
  · exact ⟨_, rfl⟩

theorem seqTaken_line (n sync g s) : ∃ ps, lineOf (seqTaken n sync g s) n = { lineOf s n with pos := ps } := by
  have j : ∀ i t, (jrnTell i t).line = t.line := fun i t => by unfold jrnTell; split <;> rfl
  have r : ∀ c i q t, (seqReport c i q t).line = t.line := fun c i q t => by unfold seqReport; split; exact dimSeq_lines ..; rfl
  obtain ⟨p, c, q⟩ := g
  unfold seqTaken; dsimp only
  rw [lineOf_of_line ((j _ _).trans (r _ _ _ _))]
  obtain ⟨ps, h⟩ := settingYield_line n p (putLpos n p _ (urgWait n c sync s))
  exact ⟨ps, h.trans (by rw [putLpos_line, lineOf_of_line (urgWait_lines ..)])⟩

theorem seqTakenAll_line (n sync) (gs : List (Nat × Cmd × Nat)) (s) : ∃ ps, lineOf (forEach (seqTaken n sync) gs s) n = { lineOf s n with pos := ps } := by
  induction gs generalizing s with
  | nil => exact ⟨_, rfl⟩
  | cons g gs ih =>
    obtain ⟨ps, h⟩ := ih (seqTaken n sync g s)
    obtain ⟨qs, k⟩ := seqTaken_line n sync g s
    exact ⟨ps, h.trans (by rw [k])⟩

theorem peTake_f (n s) : (peTake n s).sent = s.sent ∧ (peTake n s).mem = s.mem ∧ (peTake n s).line = s.line := by
  unfold peTake; dsimp only; split <;> split <;> exact ⟨rfl, rfl, rfl⟩

theorem wireSend_l (n f s) : ∃ ps, lineOf (wireSend n f s) n = { lineOf s n with pos := ps, wire := some f, fixed := none, preOk := false } := by
  obtain ⟨ps, h⟩ := seqTakenAll_line n f.sync f.gives (peTake n s)
  refine ⟨ps, ?_⟩
  unfold wireSend
  show lineOf (putLine' n { lineOf (forEach (seqTaken n f.sync) f.gives (peTake n s)) n with wire := some f, fixed := none, preOk := false } _) n = _
  rw [lineOf_put, if_pos rfl, h, lineOf_of_line (peTake_f n s).2.2]

theorem lineSend_l (n f s) : ∃ ps, lineOf (lineSend n f s) n =
    { lineOf s n with pos := ps, wire := some { f with again := (lineOf s n).again }, fixed := none, due := false, again := false, preOk := false } := by
  obtain ⟨ps, h⟩ := wireSend_l n { f with again := (lineOf s n).again } (putLine' n { lineOf s n with due := false, again := false } s)
  exact ⟨ps, by unfold lineSend; rw [h, lineOf_put, if_pos rfl]⟩

theorem wireSend_last (n f s) : (wireSend n f s).sent.getLast? = some (.wadi n (f.head ++ f.slots)) := List.getLast?_concat ..

theorem wireSend_none (n f s) (h : f.gives = []) : (wireSend n f s).sent = s.sent ++ [.wadi n (f.head ++ f.slots)] ∧ (wireSend n f s).mem = s.mem := by
  unfold wireSend; rw [h]
  exact ⟨congrArg (· ++ _) (peTake_f n s).1, (peTake_f n s).2.1⟩

theorem lpE (n : Fin 64) : linePage n.val = .line n := by revert n; decide

theorem recErr_reg (p c s o) (h : 0x20 ≤ o) : reg (recErr p c s) p o = reg s p o := by
  unfold recErr recErrAt raiseIrq setRegB
  rw [reg_setReg_off _ (by omega), reg_setReg_off _ (by omega), reg_setReg_off _ (by omega), reg_setReg_off _ (by omega), reg_setReg_off _ (by omega)]

theorem memRead_of_mem (s u : State) (h : s.mem = u.mem) (n a : Nat) : memRead s a n = memRead u a n := by
  induction n generalizing a with
  | zero => rfl
  | succ n ih => show memByte s a :: memRead s (a + 1) n = memByte u a :: memRead u (a + 1) n; rw [ih]; simp only [memByte, h]

@[simp] theorem setChStat_pending (c v s) : (setChStat c v s).pending = s.pending := by simp [setChStat]

theorem item_type (v w : Word) : nfld (v.toNat * 2 ^ 32 + w.toNat) 63 60 = fld v 31 28 := by
  simp only [nfld, fld, Nat.shiftRight_eq_div_pow]
  have := v.isLt; have := w.isLt
  omega

theorem memWrite_evr (bs : List Byte) (a : Nat) (s : State) : (memWrite a bs s).evr = s.evr := by
  induction bs generalizing a s with
  | nil => rfl
  | cons x bs ih => simp only [memWrite, ih]; rfl

theorem leNat_leBytes (len n : Nat) : leNat (leBytes len n) = n % 256 ^ len := by
  induction len generalizing n with
  | zero => simp [leBytes, leNat, Nat.mod_one]
  | succ k ih =>
    have e : (BitVec.ofNat 8 n).toNat = n % 256 := by simp
    simp only [leBytes, leNat, ih, e]
    rw [Nat.pow_succ, Nat.mul_comm (256 ^ k) 256, Nat.mod_mul]

theorem word_leBytes (v : Word) : word (leNat (leBytes 4 v.toNat)) = v := by
  rw [leNat_leBytes, Nat.mod_eq_of_lt (by have := v.isLt; omega)]
  apply BitVec.eq_of_toNat_eq; simp [word]

theorem leBytes_length (len n : Nat) : (leBytes len n).length = len := by
  induction len generalizing n with
  | zero => rfl
  | succ k ih => simp [leBytes, ih]

theorem pageAt_window {a p} (h : pageAt a = some p) : regionOf a = some .window := by
  have hk : 0x40000 ≤ a / 0x1000 ∧ a / 0x1000 < 0x80000 := by
    unfold pageAt at h
    dsimp only at h
    generalize a / 0x1000 = k at h
    by_cases h1 : 0x40030 ≤ k ∧ k < 0x40070
    · omega
    · rw [if_neg h1] at h
      by_cases h2 : 0x400C0 ≤ k ∧ k < 0x400DE
      · omega
      · rw [if_neg h2] at h
        split at h <;> first | omega | simp at h
  unfold regionOf
  rw [if_neg (by omega), if_neg (by omega), if_neg (by omega), if_neg (by omega), if_pos (by omega)]

theorem find_none {n : Nat} {P : Nat → Bool} (h : ∀ k < n, P k = false) : (List.range n).find? P = none := by
  rw [List.find?_eq_none]; intro x hx; rw [h x (by simpa using hx)]; decide

theorem busStore_mem {s : State} {ini a bs r} (h : regionOf a = some r) (h1 : r = .sram ∨ r = .mram ∨ r = .dram) (h2 : sizeOk a bs.length = true) (h3 : ∀ k < bs.length, wpByte s (a + k) = false) :
    busStore ini a bs s = answer .ok (memWrite a bs s) := by
  unfold busStore
  rw [h]
  rw [if_neg (by rcases h1 with h1 | h1 | h1 <;> subst h1 <;> decide), if_neg (by simp), if_neg (by rw [h2]; decide)]
  unfold memStore
  rw [h]
  rcases h1 with h1 | h1 | h1 <;> subst h1 <;> dsimp only <;> rw [find_none h3]

end Sys2Proof.Machine
end

