-- ==== Sys2Proof/Laws/Counter.lean ====
section
/-! SUPPORT. Lemmas on the time bases and their triggers: what its operations do, said once. -/
namespace Sys2Proof.Machine

@[simp] theorem putTrg_pending (n b s) : (putTrg n b s).pending = s.pending := rfl

@[simp] theorem putTrg_tb (n b s) : (putTrg n b s).tb = s.tb := rfl

@[simp] theorem putCap_pending (n b s) : (putCap n b s).pending = s.pending := rfl

@[simp] theorem putCap_tb (n b s) : (putCap n b s).tb = s.tb := rfl

@[simp] theorem putTrg_regs (n b s) : (putTrg n b s).regs = s.regs := rfl

theorem trgRow (u : Fin 16) : rowOf .ttrig (0x100 + 0x20 * u.val) = some (rw (0x100 + u.val * 0x20) 0 0xFF31 [.lock u.val 0xFFFFFFFF]) := by revert u; decide +kernel

theorem fld_and_mask (v m : Word) (hi lo : Nat) (h : ∀ i, lo ≤ i → i ≤ hi → m.toNat.testBit i = true) : fld (v &&& m) hi lo = fld v hi lo := by
  simp only [fld, nfld, BitVec.toNat_and]
  apply Nat.eq_of_testBit_eq; intro i
  simp only [Nat.testBit_mod_two_pow, Nat.testBit_shiftRight, Nat.testBit_and]
  by_cases hi' : i < hi + 1 - lo
  · rw [h (lo + i) (by omega) (by omega)]; simp
  · simp [hi']

theorem fld_and (v : Word) : fld (v &&& 0xFF31#32) 5 4 = fld v 5 4 :=
  fld_and_mask _ _ _ _ (by intro i a b; have : i = 4 ∨ i = 5 := by omega
                           rcases this with rfl | rfl <;> decide)

theorem fld_and_tgt (v : Word) : fld (v &&& 0xFF31#32) 15 8 = fld v 15 8 :=
  fld_and_mask _ _ _ _ (by intro i a b; have : i = 8 ∨ i = 9 ∨ i = 10 ∨ i = 11 ∨ i = 12 ∨ i = 13 ∨ i = 14 ∨ i = 15 := by omega
                           rcases this with rfl | rfl | rfl | rfl | rfl | rfl | rfl | rfl <;> decide)

theorem swapKnown_reg (g i s) {q : Page} {o : Nat} (hq : q ≠ .pixb) (hg : g < 8) (ho : o < 0x1000) : reg (swapKnown g i s) q o = reg s q o := by
  unfold swapKnown; split
  · unfold markMissed; dsimp only; split
    · rfl
    · unfold bumpRegF setRegF
      rw [reg_setReg_other (by omega) ho (.inl (Ne.symm hq))]; rfl
  · rfl

theorem swapKnown_tb (g i s) : (swapKnown g i s).tb = s.tb := by
  unfold swapKnown; split
  · unfold markMissed; dsimp only; split
    · rfl
    · rw [bumpRegF_tb]; rfl
  · rfl

theorem trgInstant_of_reg {s t : State} (u k : Nat) (hu : u < 16) (h : ∀ o, o < 0x1000 → o ≠ 0x100 + 0x20 * u → reg t .ttrig o = reg s .ttrig o) :
    trgInstant t u k = trgInstant s u k := by
  unfold trgInstant regN; rw [h _ (by omega) (by omega), h _ (by omega) (by omega), h _ (by omega) (by omega)]

theorem capEdgeUnit_reg (src r c s k) (hk : k < 8) (hc : c < 8) : reg (capEdgeUnit src r c s) .ttrig (0x400 + k * 0x20) = reg s .ttrig (0x400 + k * 0x20) := by
  unfold capEdgeUnit; split
  · dsimp only; split
    · rfl
    · simp only [bumpRegF, setRegF]; rw [reg_setReg_off _ (by omega)]
  · rfl

theorem capEdgeUnit_tb (src r c s) : (capEdgeUnit src r c s).tb = s.tb ∧ (capEdgeUnit src r c s).mem = s.mem := by
  unfold capEdgeUnit; split
  · dsimp only; split
    · exact ⟨rfl, rfl⟩
    · simp
  · exact ⟨rfl, rfl⟩

theorem capOf_put (c k u s) : capOf (putCap c u s) k = if c = k then u else capOf s k := by simp [capOf, putCap, spGet_spPut]

@[simp] theorem bumpRegF_cap (p o a b s) : (bumpRegF p o a b s).cap = s.cap := by simp [bumpRegF, setRegF]

theorem capEdgeUnit_other (src r c s k) (h : c ≠ k) : capOf (capEdgeUnit src r c s) k = capOf s k := by
  unfold capEdgeUnit; split
  · dsimp only; split
    · rw [capOf_put, if_neg h]
    · simp [capOf]
  · rfl

def stampOf (s : State) (c : Nat) := ((tbOf s.tb (Fin.ofNat 4 (regF s .ttrig (0x400 + c * 0x20) 3 2))).sec, (tbOf s.tb (Fin.ofNat 4 (regF s .ttrig (0x400 + c * 0x20) 3 2))).ns)

theorem capEdgeUnit_self (src r c s) (h : capSelects s c src r = true) (hl : (capOf s c).stamps.length < 4) : (capOf (capEdgeUnit src r c s) c).stamps = (capOf s c).stamps ++ [stampOf s c] := by
  unfold capEdgeUnit; rw [if_pos h]; dsimp only; rw [if_pos hl, capOf_put, if_pos rfl]; rfl

theorem cap_run (src r) (s : State) : ∀ n, n ≤ 8 →
   let t := forEach (capEdgeUnit src r) (List.range n) s
   t.tb = s.tb ∧ t.mem = s.mem ∧ (∀ k < 8, reg t .ttrig (0x400 + k * 0x20) = reg s .ttrig (0x400 + k * 0x20)) ∧
   (∀ k, n ≤ k → capOf t k = capOf s k) ∧
   (∀ c < n, capSelects s c src r = true → (capOf s c).stamps.length < 4 → (capOf t c).stamps = (capOf s c).stamps ++ [stampOf s c]) := by
  have app : ∀ (l : List Nat) (x : Nat) (s : State), forEach (capEdgeUnit src r) (l ++ [x]) s = capEdgeUnit src r x (forEach (capEdgeUnit src r) l s) := by
    intro l; induction l with
    | nil => intros; rfl
    | cons y l ih => intro x s; simp only [List.cons_append, forEach, ih]
  intro n; induction n with
  | zero => intro _; exact ⟨rfl, rfl, fun _ _ => rfl, fun _ _ => rfl, fun c h => absurd h (by omega)⟩
  | succ n ih =>
    intro hn
    obtain ⟨i1, i2, i3, i4, i5⟩ := ih (by omega)
    dsimp only at *
    rw [List.range_succ, app]
    generalize forEach (capEdgeUnit src r) (List.range n) s = t at *
    refine ⟨(capEdgeUnit_tb ..).1.trans i1, (capEdgeUnit_tb ..).2.trans i2, ?_, ?_, ?_⟩
    · intro k hk; rw [capEdgeUnit_reg _ _ _ _ _ hk (by omega), i3 k hk]
    · intro k hk; rw [capEdgeUnit_other _ _ _ _ _ (by omega), i4 k (by omega)]
    · intro c hc hs hl
      by_cases e : c = n
      · subst e
        have hs' : capSelects t c src r = true := by rw [← hs]; unfold capSelects; rw [i3 c (by omega)]
        rw [capEdgeUnit_self _ _ _ _ hs' (by rw [i4 c (by omega)]; exact hl), i4 c (by omega)]
        unfold stampOf regF; rw [i1, i3 c (by omega)]
      · rw [capEdgeUnit_other _ _ _ _ _ (by omega)]; exact i5 c (by omega) hs hl

/-- The unit as an accepted arm leaves it. -/
def armedUnit (s : State) (u : Fin 16) (v : Word) : State :=
  putTrg u.val { since := trgTime (tbOf s.tb (Fin.ofNat 4 (fld v 5 4))) } (setReg .ttrig (0x100 + 0x20 * u.val) (v &&& 0xFF31) (answer .ok s))

theorem armed_regs (s u v) : (armedUnit s u v).regs = (setReg .ttrig (0x100 + 0x20 * u.val) (v &&& 0xFF31) (answer .ok s)).regs := by
  unfold armedUnit; rw [putTrg_regs]

theorem armed_reg (s u v) : reg (armedUnit s u v) .ttrig (0x100 + 0x20 * u.val) = v &&& 0xFF31 := by
  rw [reg_of_regs (armed_regs s u v), reg_setReg_self]

theorem armed_off (s u v) (o : Nat) (hn : o ≠ 0x100 + 0x20 * u.val) : reg (armedUnit s u v) .ttrig o = reg s .ttrig o := by
  rw [reg_of_regs (armed_regs s u v), reg_setReg_off _ (Ne.symm hn), reg_answer]

theorem armed_tb (s u v) : (armedUnit s u v).tb = s.tb := by
  unfold armedUnit; rw [putTrg_tb, setReg_tb, answer_tb]

theorem late_not (s : State) (u : Fin 16) (v : Word) (ht : trgTime (tbOf s.tb (Fin.ofNat 4 (fld v 5 4))) ≤ trgInstant s u.val 0) (x : State)
    (hx : ∀ o, o < 0x1000 → reg x .ttrig o = reg (armedUnit s u v) .ttrig o) (hb : x.tb = s.tb) : ¬ (trgInstant x u.val 0 < trgTime (trgTb x u.val)) := by
  have a1 : trgInstant x u.val 0 = trgInstant s u.val 0 :=
    trgInstant_of_reg _ _ u.isLt (fun o ho hn => by rw [hx o ho, armed_off _ _ _ _ hn])
  have a2 : trgTb x u.val = tbOf s.tb (Fin.ofNat 4 (fld v 5 4)) := by
    unfold trgTb regF
    rw [hx _ (by omega), hb, armed_reg, show fld (v &&& 65329) 5 4 = fld v 5 4 from fld_and v]
  rw [a1, a2]; exact Nat.not_lt.mpr ht

theorem trgArm_key (ini : Ini) (s : State) (u : Fin 16) (v : Word)
    (pw : plainWrite ini .ttrig (0x100 + 0x20 * u.val) v (answer .ok s) = setReg .ttrig (0x100 + 0x20 * u.val) (v &&& 0xFF31) (answer .ok s))
    (hr : trgReserved (fld v 15 8) = false) (hv : bit v 0 = true) (he : trgEn s u.val = false)
    (ht : trgTime (tbOf s.tb (Fin.ofNat 4 (fld v 5 4))) ≤ trgInstant s u.val 0) :
    trgCtrlWrite ini u.val v (answer .ok s) = (if 0x80 ≤ fld v 15 8 ∧ fld v 15 8 ≤ 0x87
        then swapKnown (fld v 15 8 - 0x80) (unitSwap (armedUnit s u v) u.val) (armedUnit s u v) else armedUnit s u v) := by
  have he' : trgEn (answer .ok s) u.val = false := he
  generalize hy : setReg .ttrig (0x100 + 0x20 * u.val) (v &&& 0xFF31) (answer .ok s) = y at pw
  have ry : reg y .ttrig (0x100 + 0x20 * u.val) = v &&& 0xFF31 := by rw [← hy]; exact reg_setReg_self ..
  have by' : y.tb = s.tb := by rw [← hy]; rfl
  have ea : putTrg u.val { since := trgTime (trgTb y u.val) } y = armedUnit s u v := by
    unfold armedUnit; rw [hy]
    have : trgTb y u.val = tbOf s.tb (Fin.ofNat 4 (fld v 5 4)) := by
      unfold trgTb regF; rw [ry, by', show fld (v &&& 65329) 5 4 = fld v 5 4 from fld_and v]
    rw [this]
  have e2 : trgEn y u.val = true := by
    unfold trgEn regB; rw [ry, bit_and, hv]; decide
  have et : trgTarget y u.val = fld v 15 8 := by
    unfold trgTarget regF; rw [ry, show fld (v &&& 65329) 15 8 = fld v 15 8 from fld_and_tgt v]
  unfold trgCtrlWrite
  rw [hr, if_neg (show ¬ (false = true) by simp)]
  dsimp only
  rw [pw, he', e2, if_pos (show (true && !false) = true by rfl), et, ea]
  have hn : ∀ x : State, ¬ (trgInstant x u.val 0 < trgTime (trgTb x u.val)) →
      (if (trgRuns x && decide (trgInstant x u.val 0 < trgTime (trgTb x u.val))) = true then trgFire u.val true x else x) = x := by
    intro x h; rw [if_neg]; rw [decide_eq_false h]; simp
  by_cases hg : 0x80 ≤ fld v 15 8 ∧ fld v 15 8 ≤ 0x87
  · rw [if_pos hg]
    exact hn _ (late_not s u v ht _ (fun o ho => swapKnown_reg _ _ _ (by decide) (by omega) ho) (by rw [swapKnown_tb]; exact armed_tb s u v))
  · rw [if_neg hg]
    exact hn _ (late_not s u v ht _ (fun _ _ => rfl) (armed_tb s u v))

end Sys2Proof.Machine
end

