-- ==== Sys2Proof/Laws/LinePort.lean ====
section
/-! SUPPORT. Lemmas on the line ports: what its operations do, said once. -/
namespace Sys2Proof.Machine

theorem countBitErrs_mem (n k s) : (countBitErrs n k s).mem = s.mem := by unfold countBitErrs; exact setReg_mem ..

@[simp] theorem setPort_pending (n f s) : (setPort n f s).pending = s.pending := rfl

@[simp] theorem setPort_tb (n f s) : (setPort n f s).tb = s.tb := rfl

@[simp] theorem setPort_mem (n f s) : (setPort n f s).mem = s.mem := rfl

@[simp] theorem setEl_pending (n b v s) : (setEl n b v s).pending = s.pending := by simp [setEl]

@[simp] theorem setEl_tb (n b v s) : (setEl n b v s).tb = s.tb := by simp [setEl]

@[simp] theorem setEl_mem (n b v s) : (setEl n b v s).mem = s.mem := by simp [setEl]

@[simp] theorem frameFails_mem (n s) : (frameFails n s).mem = s.mem := (unsend_mem n _).trans (chunkBack_mem n s)

theorem chunkBack_line (n s m) : lineOf (chunkBack n s) m = lineOf s m := by unfold chunkBack; split <;> rfl

@[simp] theorem driveOff_mem (n s) : (driveOff n s).mem = s.mem := by unfold driveOff; dsimp only; rw [frameFails_mem, setPort_mem, setEl_mem]; split <;> simp

@[simp] theorem elBit_settle (s t n b) : elBit (settle s t) n b = elBit t n b := rfl

@[simp] theorem lineOf_settle (s t n) : lineOf (settle s t) n = lineOf t n := rfl

theorem elBit_raise (n k s m c) (hp : k = linePage n) : elBit (raiseIrq k m s) n c = elBit s n c := by
  unfold raiseIrq setRegB; exact elBit_off (by decide) hp

theorem elBit_bump (n o a b s c) (h : o ≠ 0x44) : elBit (bumpRegF (linePage n) o a b s) n c = elBit s n c := by
  unfold bumpRegF setRegF; exact elBit_off h rfl

theorem elBit_driveOff (n s c) (hc : c < 32) : elBit (driveOff n s) n c = if c = 0 then false else if c = 2 ∧ drives s n = true then false else elBit s n c := by
  unfold driveOff; dsimp only; simp only [elBit_frameFails, elBit_setPort]; rw [elBit_setEl _ _ _ _ _ (by decide) hc]
  by_cases h0 : 0 = c
  · simp [← h0]
  · rw [if_neg h0, if_neg (Ne.symm h0)]
    by_cases hd : drives s n = true
    · rw [if_pos hd, elBit_setEl _ _ _ _ _ (by decide) hc]
      by_cases h2 : 2 = c
      · simp [← h2, hd]
      · rw [if_neg h2, if_neg]; omega
    · rw [if_neg hd, if_neg]; exact fun h => hd h.2

theorem unsend_port (n s) : (lineOf (unsend n s) n).port = (lineOf s n).port := by
  unfold unsend; dsimp only
  refine forEach_keep (fun t => (lineOf t n).port) _ _ ?_ s
  intro x t; simp [putLpos, lineOf_put]

theorem lineOf_driveOff (n s) : (lineOf (driveOff n s) n).wire = none ∧ (lineOf (driveOff n s) n).back = none ∧
    (lineOf (driveOff n s) n).port = { (lineOf s n).port with lbd := false } := by
  unfold driveOff frameFails; dsimp only
  rw [lineOf_put, if_pos rfl]
  refine ⟨rfl, rfl, ?_⟩
  show (lineOf (unsend n _) n).port = _
  rw [unsend_port, chunkBack_line]; unfold setPort; rw [lineOf_put, if_pos rfl]
  dsimp only
  rw [lineOf_setEl]; split <;> simp [lineOf_setEl]

theorem lineOf_raise (k m s n) : lineOf (raiseIrq k m s) n = lineOf s n := by simp [raiseIrq, setRegB]

theorem lineOf_bumpF (k o a b s n) : lineOf (bumpRegF k o a b s) n = lineOf s n := by simp [bumpRegF, setRegF]

theorem hotMem (n : Nat) (s : State) : (noteTransient (linePage n) (recErr (linePage n) 0x103 (if elBit s n 7 = true then s else raiseIrq (linePage n) 3 s))).mem = s.mem := by
  have nt : ∀ p (x : State), (noteTransient p x).mem = x.mem := fun _ _ => rfl
  rw [nt, recErr_mem]; split
  · rfl
  · exact raiseIrq_mem ..

theorem hotOff (n : Nat) (s x : State) (hx : x.mem = s.mem) :
    driving (settle s (driveOff n (setPort n (fun p => { p with hot := true }) (setEl n 7 true x)))) n = false ∧
    elBit (settle s (driveOff n (setPort n (fun p => { p with hot := true }) (setEl n 7 true x)))) n 7 = true ∧
    (lineOf (settle s (driveOff n (setPort n (fun p => { p with hot := true }) (setEl n 7 true x)))) n).port.hot = true ∧
    (settle s (driveOff n (setPort n (fun p => { p with hot := true }) (setEl n 7 true x)))).mem = s.mem := by
  refine ⟨?_, ?_, ?_, ?_⟩
  · unfold driving; rw [elBit_settle, elBit_driveOff _ _ _ (by decide)]; simp
  · rw [elBit_settle, elBit_driveOff _ _ _ (by decide), elBit_setPort, elBit_setEl _ _ _ _ _ (by decide) (by decide)]; simp
  · rw [lineOf_settle, (lineOf_driveOff ..).2.2]; unfold setPort; rw [lineOf_put, if_pos rfl]
  · rw [settle_mem, driveOff_mem, setPort_mem, setEl_mem, hx]

/-- What an accepted preamble's learning leaves alone. -/
structure LearnKeeps (n : Fin 64) (s t : State) : Prop where
  reg : ∀ o, o = 0x044 ∨ o = 0x05C ∨ o = 0x060 ∨ o = 0x064 ∨ o = 0x084 ∨ o = 0x09C → reg t (.line n) o = reg s (.line n) o
  line : lineOf t n.val = lineOf s n.val
  mem : t.mem = s.mem

theorem LearnKeeps.trans {n s t u} (a : LearnKeeps n s t) (b : LearnKeeps n t u) : LearnKeeps n s u :=
  ⟨fun o h => (b.reg o h).trans (a.reg o h), b.line.trans a.line, b.mem.trans a.mem⟩

theorem learnKeeps_setF (n : Fin 64) (o hi lo v : Nat) (s : State) (h : o = 0x048 ∨ o = 0x04C ∨ o = 0x058) : LearnKeeps n s (setRegF (.line n) o hi lo v s) :=
  ⟨fun k hk => by unfold setRegF; exact reg_setReg_off _ (by omega) _ _, by simp [setRegF], by simp⟩

theorem learnKeeps_raise (n : Fin 64) (k : Nat) (s : State) : LearnKeeps n s (raiseIrq (.line n) k s) :=
  ⟨fun o h => by unfold raiseIrq setRegB; exact reg_setReg_off _ (by omega) _ _, by simp [raiseIrq, setRegB], by simp⟩

theorem learnKeeps_learn (n : Fin 64) (highs : List Nat) (vhi vlo : Int) (s : State) : LearnKeeps n s (learn n.val highs vhi vlo s) := by
  unfold learn; rw [lpE]
  split
  · exact ⟨fun _ _ => rfl, rfl, rfl⟩
  · dsimp only
    have h := (learnKeeps_setF n 0x048 8 0 (unsigned 9 (learnMove (signed 9 (regF s (.line n) 0x048 8 0)) (Int.tdiv (vhi + vlo) 2) (-40) 40).1) s (.inl rfl)).trans
      (learnKeeps_setF n 0x04C 5 0 (learnMove (regF s (.line n) 0x04C 5 0) (sampleCand highs) 16 48).1.toNat _ (.inr (.inl rfl)))
    split
    · exact h.trans (learnKeeps_raise n 2 _)
    · exact h

theorem learnKeeps_margins (n : Fin 64) (highs : List Nat) (vhi vlo : Int) (s : State) : LearnKeeps n s (margins n.val highs vhi vlo s) := by
  unfold margins; rw [lpE]; dsimp only
  exact (learnKeeps_setF n 0x058 7 0 _ _ (.inr (.inr rfl))).trans (learnKeeps_setF n 0x058 23 16 _ _ (.inr (.inr rfl)))

end Sys2Proof.Machine
end

