-- ==== Sys2Proof/Laws/Lseq.lean ====
section
/-! SUPPORT. Lemmas on the sequencers, returns and pixel strings: what its operations do, said once. -/
namespace Sys2Proof.Machine

@[simp] theorem putLine_pending (n l s) : (putLine' n l s).pending = s.pending := rfl

@[simp] theorem putLine_tb (n l s) : (putLine' n l s).tb = s.tb := rfl

@[simp] theorem setRegF_sent (p o a b v s) : (setRegF p o a b v s).sent = s.sent := by simp [setRegF]

@[simp] theorem setRegB_sent (p o a v s) : (setRegB p o a v s).sent = s.sent := by simp [setRegB]

theorem peCycle_f (n s) : (peCycle n s).sent = s.sent ∧ (peCycle n s).mem = s.mem ∧ lineOf (peCycle n s) n = { lineOf s n with port := { (lineOf s n).port with peCount := (lineOf s n).port.peCount + 1 } } := by
  refine ⟨rfl, rfl, ?_⟩
  unfold peCycle setPort; rw [lineOf_put, if_pos rfl]

theorem drivenCleanly_f (n s) : (drivenCleanly n s).sent = s.sent ∧ (drivenCleanly n s).mem = s.mem := by
  have el : ∀ b v t, (setEl n b v t).sent = t.sent ∧ (setEl n b v t).mem = t.mem := fun b v t => ⟨by simp [setEl], by simp [setEl]⟩
  have pt : ∀ f t, (setPort n f t).sent = t.sent ∧ (setPort n f t).mem = t.mem := fun f t => ⟨rfl, rfl⟩
  have nt : ∀ p t, (noteTransient p t).sent = t.sent ∧ (noteTransient p t).mem = t.mem := fun p t => ⟨rfl, rfl⟩
  unfold drivenCleanly; dsimp only
  split <;> split <;> simp [el, pt, nt]

theorem pixSent_f (n f s) : (pixSent n f s).sent = s.sent ∧ (pixSent n f s).mem = s.mem := by
  unfold pixSent
  split
  · exact ⟨rfl, rfl⟩
  · dsimp only; split
    · exact ⟨rfl, rfl⟩
    · split
      · split <;> exact ⟨rfl, rfl⟩
      · exact ⟨rfl, rfl⟩

theorem markSent_f (n f s) : (markSent n f s).sent = s.sent ∧ (markSent n f s).mem = s.mem := by
  unfold markSent
  exact forEach_inv (fun t => t.sent = s.sent ∧ t.mem = s.mem) _ _ (by intro x _ t ht; exact ⟨ht.1, ht.2⟩) s ⟨rfl, rfl⟩

theorem lineSend_back (n s) (f : LFrame) (h : (lineOf s n).back = none) : (lineOf (lineSend n f s) n).back = none := by
  obtain ⟨_, e⟩ := lineSend_l n f s
  rw [e]; exact h

theorem afterPair_back (n s) (h : (lineOf s n).back = none) : (lineOf (afterPair n s) n).back = none := by
  unfold afterPair; split
  · split
    · exact lineSend_back _ _ _ h
    · exact h
  · exact h

theorem phaseOver_back (n s) : (lineOf (phaseOver n s) n).back = none := by
  unfold phaseOver; dsimp only
  exact afterPair_back _ _ (by rw [lineOf_put, if_pos rfl])

theorem phaseLost_back (n f s) : (lineOf (phaseLost n f s) n).back = none := by
  unfold phaseLost; exact phaseOver_back _ _

@[simp] theorem putGroup_pending (n l s) : (putGroup n l s).pending = s.pending := rfl

@[simp] theorem putGroup_tb (n l s) : (putGroup n l s).tb = s.tb := rfl

theorem ite_back {c : Prop} [Decidable c] {x y : State} {n : Nat} (hx : (lineOf x n).back = none) (hy : (lineOf y n).back = none) : (lineOf (if c then x else y) n).back = none := by split <;> assumption

theorem pixReturn_back (n : Nat) (words : List (Nat × Nat)) (s : State) (f : LFrame) (h : (lineOf s n).back = some f) (hp : (lineOf s n).preOk = true) (hf : f.ftype = 4) : (lineOf (pixelReturn n words s) n).back = none := by
  unfold pixelReturn; dsimp only; rw [h]; dsimp only; rw [hp, hf, if_neg (by decide)]
  exact ite_back (phaseLost_back ..) (phaseOver_back ..)

theorem ret_back (n : Nat) (slots be) (s : State) (f : LFrame) (h : (lineOf s n).back = some f) (hp : (lineOf s n).preOk = true) (hf : f.ftype = 1 ∨ f.ftype = 5) : (lineOf (returnStream n slots be s) n).back = none := by
  unfold returnStream; rw [h]; dsimp only; rw [hp, if_neg (by rcases hf with h | h <;> rw [h] <;> decide)]
  exact ite_back (phaseLost_back ..) (phaseOver_back ..)

end Sys2Proof.Machine
end

