-- ==== Sys2Proof/Laws/Met.lean ====
section
/-! SUPPORT. Lemmas on metrology and attribution: what its operations do, said once. -/
namespace Sys2Proof.Machine

@[simp] theorem memWrite_met (bs : List Byte) (a : Nat) (s : State) : (memWrite a bs s).met = s.met := by
  induction bs generalizing a s with
  | nil => rfl
  | cons x bs ih => simp [memWrite, ih]

theorem onMet_met (f s) : (onMet f s).met = f s.met := rfl

theorem forEach_setReg (p : Page) (l : List (Nat × Word)) (u : State) : (forEach (fun x t => setReg p x.1 x.2 t) l u).met = u.met ∧ (forEach (fun x t => setReg p x.1 x.2 t) l u).mem = u.mem :=
  forEach_inv (fun t => t.met = u.met ∧ t.mem = u.mem) _ _ (fun x _ t ht => ⟨by rw [setReg_met]; exact ht.1, by rw [setReg_mem]; exact ht.2⟩) u ⟨rfl, rfl⟩

theorem raise_reg (p : Page) (n : Nat) (q : Page) (o : Nat) (u : State) (ho : o < 0x1000) (h : p ≠ q ∨ 0x14 ≠ o) : reg (raiseIrq p n u) q o = reg u q o := by
  unfold raiseIrq setRegB; exact reg_setReg_other (by decide) ho h _ _

theorem raise_met (p n u) : (raiseIrq p n u).met = u.met := by simp [raiseIrq, setRegB]

theorem mch_run (l : List (Fin 30)) (u : State) :
  let t := forEach (fun n t => let t1 := raiseIrq (.mch n) 0 t; if regB t (.mch n) 0x0C0 1 then raiseIrq (.mch n) 1 t1 else t1) l u
  reg t .met 0x3C0 = reg u .met 0x3C0 ∧ reg t .met 0x3C4 = reg u .met 0x3C4 ∧ t.met = u.met ∧ t.mem = u.mem := by
  refine forEach_inv (fun t => reg t .met 0x3C0 = reg u .met 0x3C0 ∧ reg t .met 0x3C4 = reg u .met 0x3C4 ∧ t.met = u.met ∧ t.mem = u.mem) _ _ (fun n _ t ht => ?_) u ⟨rfl, rfl, rfl, rfl⟩
  dsimp only
  have k : ∀ (m : Nat) (t : State), (reg t .met 0x3C0 = reg u .met 0x3C0 ∧ reg t .met 0x3C4 = reg u .met 0x3C4 ∧ t.met = u.met ∧ t.mem = u.mem) → (reg (raiseIrq (.mch n) m t) .met 0x3C0 = reg u .met 0x3C0 ∧ reg (raiseIrq (.mch n) m t) .met 0x3C4 = reg u .met 0x3C4 ∧ (raiseIrq (.mch n) m t).met = u.met ∧ (raiseIrq (.mch n) m t).mem = u.mem) := by
    intro m t ⟨a, b, c, d⟩
    exact ⟨(raise_reg _ _ _ _ _ (by decide) (by simp)).trans a, (raise_reg _ _ _ _ _ (by decide) (by simp)).trans b, (raise_met ..).trans c, (raiseIrq_mem ..).trans d⟩
  split
  · exact k _ _ (k _ _ ht)
  · exact k _ _ ht

theorem win_run (s : State) (l) (h : s.met.pend = some l) (hq : quiescing s .met = false) (hr : metRuns s = true) :
   reg (winReady s) .met 0x3C0 = reg s .met 0x3C0 + 1 ∧ reg (winReady s) .met 0x3C4 = 1 ∧ (winReady s).met.pend = none ∧ (winReady s).mem = s.mem := by
  unfold winReady; rw [h]; dsimp only; rw [if_neg (by simp [hq, hr])]
  generalize hx : onMet _ { s with regs := _ } = x
  have hxm : x.met.pend = none ∧ x.mem = s.mem := by subst hx; exact ⟨rfl, rfl⟩
  obtain ⟨a, b, c, d⟩ := mch_run (List.finRange 30) (setReg .met 0x3C4 1 (setReg .met 0x3C0 (reg s .met 0x3C0 + 1) x))
  refine ⟨?_, ?_, ?_, ?_⟩
  · rw [raise_reg _ _ _ _ _ (by decide) (by simp), a, reg_setReg_off _ (by decide), reg_setReg_self]
  · rw [raise_reg _ _ _ _ _ (by decide) (by simp), b, reg_setReg_self]
  · rw [raise_met, c, setReg_met, setReg_met]; exact hxm.1
  · rw [raiseIrq_mem, d, setReg_mem, setReg_mem]; exact hxm.2

theorem snap_run' (s : State) (l rest) (h : s.met.latches = l :: rest) (hq : quiescing s .met = false) (hr : metRuns s = true) :
   reg (snapReady s) .met 0x7C0 = reg s .met 0x7C0 + 1 ∧ reg (snapReady s) .met 0x7C4 = word (l.src * 2 ^ 8 + b01 rest.isEmpty) ∧ (snapReady s).met.latches = rest ∧ (snapReady s).mem = s.mem := by
  unfold snapReady; rw [h]; dsimp only; rw [if_neg (by simp [hq, hr])]
  obtain ⟨a, b⟩ := forEach_setReg .met l.words (onMet (fun m => { m with latches := rest }) s)
  generalize hx : forEach _ l.words _ = x at *
  have key : ∀ y : State, (reg y .met 0x7C0 = reg s .met 0x7C0 + 1 ∧ reg y .met 0x7C4 = word (l.src * 2 ^ 8 + b01 rest.isEmpty) ∧ y.met.latches = rest ∧ y.mem = s.mem) → ∀ n, (reg (raiseIrq .met n y) .met 0x7C0 = reg s .met 0x7C0 + 1 ∧ reg (raiseIrq .met n y) .met 0x7C4 = word (l.src * 2 ^ 8 + b01 rest.isEmpty) ∧ (raiseIrq .met n y).met.latches = rest ∧ (raiseIrq .met n y).mem = s.mem) := by
    intro y ⟨h1, h2, h3, h4⟩ n
    exact ⟨(raise_reg _ _ _ _ _ (by decide) (by simp)).trans h1, (raise_reg _ _ _ _ _ (by decide) (by simp)).trans h2, by rw [raise_met]; exact h3, by rw [raiseIrq_mem]; exact h4⟩
  have base : (reg (setReg .met 0x7C4 (word (l.src * 2 ^ 8 + b01 rest.isEmpty)) (setReg .met 0x7C0 (reg s .met 0x7C0 + 1) x)) .met 0x7C0 = reg s .met 0x7C0 + 1 ∧ reg (setReg .met 0x7C4 (word (l.src * 2 ^ 8 + b01 rest.isEmpty)) (setReg .met 0x7C0 (reg s .met 0x7C0 + 1) x)) .met 0x7C4 = word (l.src * 2 ^ 8 + b01 rest.isEmpty) ∧ (setReg .met 0x7C4 (word (l.src * 2 ^ 8 + b01 rest.isEmpty)) (setReg .met 0x7C0 (reg s .met 0x7C0 + 1) x)).met.latches = rest ∧ (setReg .met 0x7C4 (word (l.src * 2 ^ 8 + b01 rest.isEmpty)) (setReg .met 0x7C0 (reg s .met 0x7C0 + 1) x)).mem = s.mem) := by
    refine ⟨by rw [reg_setReg_off _ (by decide), reg_setReg_self], by rw [reg_setReg_self], ?_, ?_⟩
    · rw [setReg_met, setReg_met, a]; rfl
    · rw [setReg_mem, setReg_mem, b]; rfl
  apply key
  cases l.wrap <;> cases l.rev
  · exact base
  · exact key _ base _
  · exact key _ base _
  · exact key _ (key _ base _) _

theorem totOf_put (k t s j) : totOf (putTot k t s) j = if k = j then t else totOf s j := by simp [totOf, putTot, onMet, spGet_spPut]

theorem totOf_writeCopy (s k) : totOf (writeCopy s) k = totOf s k := by unfold writeCopy totOf; dsimp only; rw [totTell_met, onMet_met]; simp

def tcClear (v : Word) (k : Nat) (t : State) : State :=
  if !bit v k then t
    else
      let x := totOf t k
      putTot k (clearedTot x) (evrOffer .met 0x0206 (leBytes 1 k ++ leBytes 8 (native x.imp) ++ leBytes 8 (native x.exp) ++ leBytes 8 (native x.ind) ++ leBytes 8 (native x.cap)) t)

theorem totClr_e (v u) : totClr v u = writeCopy (writeCopy (forEach (tcClear v) (List.range 24) u)) := by unfold totClr tcClear; rfl

theorem tc_one (v k t j) : totOf (tcClear v k t) j = if k = j ∧ bit v k = true then clearedTot (totOf t j) else totOf t j := by
  unfold tcClear
  cases h : bit v k
  · simp
  · simp only [Bool.not_true, Bool.false_eq_true, if_false]
    rw [totOf_put]
    by_cases e : k = j
    · subst e; simp
    · rw [if_neg e, if_neg (fun h => e h.1)]; rfl

theorem tc_run (v : Word) (l : List Nat) (hl : l.Nodup) (t : State) (j : Nat) : totOf (forEach (tcClear v) l t) j = if j ∈ l ∧ bit v j = true then clearedTot (totOf t j) else totOf t j := by
  induction l generalizing t with
  | nil => simp [forEach]
  | cons x l ih =>
    obtain ⟨hx, hl⟩ := List.nodup_cons.mp hl
    rw [forEach, ih hl, tc_one]
    by_cases e : x = j
    · subst e; simp [hx]
    · simp [e, Ne.symm e]

theorem am_setRegF (m x) (h : m < 4) : attrMode (setRegF .attr 0x040 1 0 m x) = m := by
  unfold attrMode regF setRegF; rw [reg_setReg_self, fld_setFld_self _ _ _ _ (by decide) (by decide) h]

theorem am_run (m : Nat) (hm : m < 3) (ini : Ini) (s : State) (h : writeOpen s ini .attr 0x040 = true) :
   ∃ t, done s (attrModeWrite ini m s) = .next t ∧ attrMode t = m ∧ (m = 1 → t.mem = s.mem) := by
  have hf : fld (setFld (reg s .attr 0x040) 1 0 m) 1 0 = m := fld_setFld_self _ _ _ _ (by decide) (by decide) (by omega)
  refine ⟨_, evNext rfl, ?_⟩
  unfold attrModeWrite; rw [admitWrite_open h]; unfold attrCtrlWrite
  rw [hf, show min 2 m = m by omega]
  unfold attrModeSet; dsimp only
  refine ⟨am_setRegF _ _ (by omega), fun h1 => ?_⟩
  subst h1
  rw [if_neg (by simp), settle_mem, setRegF_mem]
  have row : rowOf .attr 0x040 = some ((mapAttr).head (by decide)) := by decide +kernel
  have row2 : (mapAttr).head (by decide) = rw 0x040 0x02580C00 0xFFFFFF03 [.clamp 15 8 0 31, .clamp 1 0 0 2, .lock 0 0xFFFFFF00] := by decide +kernel
  rw [plainWrite, row, row2]
  simp only [rw, applyRules, applyRule]
  by_cases hl : locked (answer .ok s) .attr 0 = true
  · rw [if_pos hl]; dsimp only
    generalize (false || _ != (0 : Word)) = b
    cases b <;> simp
  · rw [if_neg hl]; simp

theorem raise_reg_own (p : Page) (n : Nat) (o : Nat) (u : State) (h : 0x14 ≠ o) : reg (raiseIrq p n u) p o = reg u p o := by
  unfold raiseIrq setRegB; exact reg_setReg_off _ h _ _

theorem attrRound_put (c r s d) : attrRound (putRound c r s) d = if c = d then r else attrRound s d := by simp [attrRound, putRound, spGet_spPut]

theorem clearView_f (l : List Nat) (u : State) : (forEach (fun k t => setReg .attr (0x144 + 8 * k) 0 (setReg .attr (0x140 + 8 * k) 0 t)) l u).mem = u.mem :=
  forEach_inv (fun t => t.mem = u.mem) _ _ (fun x _ t ht => by rw [setReg_mem, setReg_mem]; exact ht) u rfl

theorem view_f (l : List (Nat × Word)) (u : State) : (forEach (fun x t => setReg .attr x.1 x.2 t) l u).mem = u.mem :=
  forEach_inv (fun t => t.mem = u.mem) _ _ (fun x _ t ht => by rw [setReg_mem]; exact ht) u rfl

theorem dimQueue_attr' (e u) : (dimQueue e u).attr = u.attr := by
  unfold dimQueue dimBacklog levelIrq; dsimp only; split
  · first | rfl | (split <;> simp [raiseIrq, setRegB]) | simp [raiseIrq, setRegB]
  · rfl

theorem attrVoid_state (c k : Nat) (u : State) (h : attrOpen (attrRound u c) = true) : (attrRound (attrVoid c k u) c).state = 4 := by
  unfold attrVoid; dsimp only; rw [if_neg (by simp [h])]
  generalize attrUnoffer _ _ = x
  have e : ∀ (y : State), attrRound (raiseIrq .attr 2 (bumpRegF .attr 0x050 31 16 y)) c = attrRound y c := by
    intro y; unfold attrRound; simp [raiseIrq, setRegB, bumpRegF, setRegF]
  have e2 : ∀ (y : State), attrRound (setRegB .attr 0x104 0 true y) c = attrRound y c := by
    intro y; unfold attrRound; simp [setRegB]
  have e3 : ∀ d (y : State), attrRound (dimQueue d y) c = attrRound y c := by
    intro d y; unfold attrRound; rw [dimQueue_attr']
  split
  · split
    · rw [e, attrRound_put, if_pos rfl]
    · rw [e2, e, attrRound_put, if_pos rfl]
  · split
    · rw [e, attrRound_put, if_pos rfl]
    · rw [e3, e, attrRound_put, if_pos rfl]

theorem done_run (c : Nat) (s : State) :
      reg (roundShow c s) .attr 0x100 = reg s .attr 0x100 + 1 ∧
      reg (roundShow c s) .attr 0x104 = word (c * 2 ^ 16 + (attrRound s c).lans.length * 2 ^ 8 + 1) ∧
      reg (roundShow c s) .attr 0x108 = word ((attrRound s c).s % 2 ^ 32) ∧ (attrRound (roundShow c s) c).state = 4 ∧ regB (roundShow c s) .attr 0x014 0 = true ∧
      (roundShow c s).mem = s.mem := by
  unfold roundShow; dsimp only
  have m1 := clearView_f (List.range 16) s
  generalize hx : forEach _ (List.range 16) s = x at *
  have m2 := view_f (attrRound s c).view x
  generalize hy : forEach _ (attrRound s c).view x = y at *
  refine ⟨?_, ?_, ?_, ?_, ?_, ?_⟩
  · rw [raise_reg_own _ _ _ _ (by decide)]; unfold bumpRegF setRegF; rw [reg_setReg_off _ (by decide)]; exact reg_setReg_self ..
  · rw [raise_reg_own _ _ _ _ (by decide)]; unfold bumpRegF setRegF; rw [reg_setReg_off _ (by decide)]
    show reg (setReg .attr 0x100 _ (setReg .attr 0x108 _ (setReg .attr 0x104 _ y))) .attr 0x104 = _
    rw [reg_setReg_off _ (by decide), reg_setReg_off _ (by decide), reg_setReg_self]
  · rw [raise_reg_own _ _ _ _ (by decide)]; unfold bumpRegF setRegF; rw [reg_setReg_off _ (by decide)]
    show reg (setReg .attr 0x100 _ (setReg .attr 0x108 _ (setReg .attr 0x104 _ y))) .attr 0x108 = _
    rw [reg_setReg_off _ (by decide), reg_setReg_self]
  · have : ∀ (u : State) k, attrRound (raiseIrq .attr 0 (bumpRegF .attr 0x050 15 0 u)) k = attrRound u k := by
      intro u k; unfold attrRound; simp [raiseIrq, setRegB, bumpRegF, setRegF]
    rw [this, attrRound_put, if_pos rfl]
  · unfold raiseIrq; exact regB_setRegB_self _ _ _ _ _ (by decide)
  · rw [raiseIrq_mem, bumpRegF_mem]
    rw [show ∀ (r : AttrRound) (u : State), (putRound c r u).mem = u.mem from fun _ _ => rfl, setReg_mem, setReg_mem, setReg_mem, m2, m1]

end Sys2Proof.Machine
end

