-- ==== Sys2Proof/Laws/Mir.lean ====
section
/-! SUPPORT. Lemmas on the tracks and diagnosis: what its operations do, said once. -/
namespace Sys2Proof.Machine

theorem trackOf_put (c t s d) : trackOf (putTrack c t s) d = if c = d then t else trackOf s d := by simp [trackOf, putTrack, spGet_spPut]

theorem trackFree_st (c s) : (trackOf (trackFree c s) c).st = 0 := by unfold trackFree; dsimp only; rw [trackOf_put, if_pos rfl]

theorem trackCancel_st (c r s) : (trackOf (trackCancel c r s) c).st = 0 := by unfold trackCancel; exact trackFree_st _ _

theorem putWin_regs (k i w s) : (putWin k i w s).regs = s.regs := by
  unfold putWin; dsimp only; split
  · rfl
  · rw [memWrite_regs]

theorem uncover_regs (c k i s) : (uncoverPoint c k false i s).regs = s.regs := by
  unfold uncoverPoint
  split
  · rfl
  · split
    · rfl
    · dsimp only
      simp only [Bool.false_and, Bool.false_eq_true, if_false]
      split
      · exact putWin_regs ..
      · exact putWin_regs ..

theorem trackFree_regs (c s) : (trackFree c s).regs = s.regs := by
  unfold trackFree
  show (forEach _ _ s).regs = _
  exact forEach_inv (fun t => t.regs = s.regs) _ _ (fun x _ t ht => (uncover_regs ..).trans ht) s rfl

theorem trackFree_all (c s) : trackOf (trackFree c s) c = { gen := (trackOf s c).gen } := by unfold trackFree; dsimp only; rw [trackOf_put, if_pos rfl]

theorem snap_run (i : Fin 10) (ws : List Nat) (l : List Nat) (u : State) (m : Nat) :
   regI (forEach (fun n u => setRegI .mir (0x0C0 + 4 * n) i (word (ws.getD n 0)) u) l u) .mir (0x0C0 + 4 * m) i = if m ∈ l then word (ws.getD m 0) else regI u .mir (0x0C0 + 4 * m) i := by
  induction l generalizing u with
  | nil => simp [forEach]
  | cons x l ih =>
    rw [forEach, ih]
    by_cases hm : m ∈ l
    · simp [hm]
    · rw [if_neg hm]
      by_cases e : x = m
      · subst e; rw [regI_setRegI_self]; simp
      · rw [regI_setRegI_off _ (by omega)]; simp [hm, Ne.symm e]

theorem snap_f (i : Fin 10) (ws : List Nat) (l : List Nat) (u : State) : (forEach (fun n u => setRegI .mir (0x0C0 + 4 * n) i (word (ws.getD n 0)) u) l u).mir = u.mir ∧ (forEach (fun n u => setRegI .mir (0x0C0 + 4 * n) i (word (ws.getD n 0)) u) l u).mem = u.mem :=
  forEach_inv (fun t => t.mir = u.mir ∧ t.mem = u.mem) _ _ (fun x _ t ht => ⟨by rw [setRegI_mir]; exact ht.1, by rw [setRegI_mem]; exact ht.2⟩) u ⟨rfl, rfl⟩

theorem trkIdx_f (i : Fin 10) (v : Word) (s : State) :
    regI (trkIdx i v s) .mir 0x084 i = 2 ∧ regI (trkIdx i v s) .mir 0x0C4 i = word (trackOf s (fld v 7 0)).id ∧ regI (trkIdx i v s) .mir 0x0C8 i = word (trackOf s (fld v 7 0)).x ∧
      regI (trkIdx i v s) .mir 0x0D0 i = word (trackOf s (fld v 7 0)).v ∧ (trkIdx i v s).mir = s.mir ∧ (trkIdx i v s).mem = s.mem := by
  unfold trkIdx; dsimp only
  refine ⟨by rw [regI_setRegI_self], ?_, ?_, ?_, ?_, ?_⟩
  · rw [regI_setRegI_off _ (by decide)]; refine (snap_run i _ (List.range 16) s 1).trans ?_; rw [if_pos (by decide)]; simp only [List.getD_cons_succ, List.getD_cons_zero]
  · rw [regI_setRegI_off _ (by decide)]; refine (snap_run i _ (List.range 16) s 2).trans ?_; rw [if_pos (by decide)]; simp only [List.getD_cons_succ, List.getD_cons_zero]
  · rw [regI_setRegI_off _ (by decide)]; refine (snap_run i _ (List.range 16) s 4).trans ?_; rw [if_pos (by decide)]; simp only [List.getD_cons_succ, List.getD_cons_zero]
  · rw [setRegI_mir, (snap_f ..).1]
  · rw [setRegI_mem, (snap_f ..).2]

@[simp] theorem memWrite_mir (bs : List Byte) (a : Nat) (s : State) : (memWrite a bs s).mir = s.mir := by
  induction bs generalizing a s with
  | nil => rfl
  | cons x bs ih => simp [memWrite, ih]

@[simp] theorem stripLay_mir (k s) : (stripLay k s).mir = s.mir := by unfold stripLay; simp only [memWrite_mir]

theorem mm_setRegF (m x) (h : m < 4) : mirMode (setRegF .mir 0x040 1 0 m x) = m := by
  unfold mirMode regF setRegF; rw [reg_setReg_self, fld_setFld_self _ _ _ _ (by decide) (by decide) h]

theorem exit_f (c s) : (trackExit c s).regs = s.regs ∧ (trackExit c s).mem = s.mem := by
  unfold trackExit; dsimp only; split <;> exact ⟨rfl, rfl⟩

theorem stop_f (s) : (mirStop s).regs = s.regs ∧ (mirStop s).mem = s.mem := by
  unfold mirStop tracksEnd
  exact forEach_inv (fun t => t.regs = s.regs ∧ t.mem = s.mem) _ _ (fun x _ t ht => ⟨(exit_f x t).1.trans ht.1, (exit_f x t).2.trans ht.2⟩) s ⟨rfl, rfl⟩

theorem rowMir : rowOf .mir 0x040 = some (rw 0x040 0x0FA00100 0xFFFF0103 [.clamp 31 16 500 30000, .lock 0 0xFFFF0100]) := by decide +kernel

theorem mirPw (ini w x) : ∃ u, plainWrite ini .mir 0x040 w x = u ∧ u.mem = x.mem ∧ mirMode u = fld w 1 0 ∧ u.pending = x.pending ∧ u.tb = x.tb := by
  have key : ∀ (r : Word) (b : Bool), bit r 0 = bit w 0 → bit r 1 = bit w 1 → ∀ u, u = (if b then recErr .mir errLockedWrite (setReg .mir 0x040 r x) else setReg .mir 0x040 r x) → u.mem = x.mem ∧ mirMode u = fld w 1 0 ∧ u.pending = x.pending ∧ u.tb = x.tb := by
    intro r b b0 b1 u hu
    have hr : reg u .mir 0x040 = r := by
      subst hu; split
      · rw [recErr_reg _ _ _ _ (by decide), reg_setReg_self]
      · rw [reg_setReg_self]
    refine ⟨?_, ?_, ?_, ?_⟩
    · subst hu; split <;> simp
    · unfold mirMode regF; rw [hr]
      apply Nat.eq_of_testBit_eq; intro k; rw [fld_testBit, fld_testBit]
      by_cases hk : k < 2
      · have : k = 0 ∨ k = 1 := by omega
        rcases this with rfl | rfl
        · simp [b0]
        · simp [b1]
      · simp [hk]
    · subst hu; split <;> simp
    · subst hu; split <;> simp
  refine ⟨_, rfl, ?_⟩
  rw [plainWrite, rowMir]
  simp only [rw, applyRules, applyRule]
  have hb : ∀ n, n < 2 → ∀ y, bit (setFld (w &&& word 0xFFFF0103) 31 16 y) n = bit w n := by
    intro n hn y
    rw [bit_setFld _ _ _ _ _ (by decide), if_neg (by omega), bit_and]
    have : n = 0 ∨ n = 1 := by omega
    rcases this with rfl | rfl <;> simp <;> (intro _; decide)
  by_cases hl : locked x .mir 0 = true
  · rw [if_pos hl]; dsimp only
    refine key _ _ ?_ ?_ _ rfl
    · rw [bit_or, bit_and, bit_and, hb 0 (by decide)]; simp [show bit (4294902016#32) 0 = false by decide, show bit (~~~4294902016#32) 0 = true by decide]
    · rw [bit_or, bit_and, bit_and, hb 1 (by decide)]; simp [show bit (4294902016#32) 1 = false by decide, show bit (~~~4294902016#32) 1 = true by decide]
  · rw [if_neg hl]; dsimp only
    exact key _ false (hb 0 (by decide) _) (hb 1 (by decide) _) _ rfl

theorem ms_eq (m : Nat) (hm : m < 4) (x : State) (h2 : ¬ (mirMode x = 2 ∧ m = 1)) : mirMode (mirModeSet m x) = m ∧ (mirModeSet m x).mem = x.mem := by
  have e : mirMode (mirStop (setRegF .mir 0x040 1 0 m x)) = m := by
    have := reg_of_regs (stop_f (setRegF .mir 0x040 1 0 m x)).1
    unfold mirMode regF; rw [this]; exact mm_setRegF m x hm
  unfold mirModeSet; dsimp only
  split
  · exact ⟨mm_setRegF m x hm, by simp⟩
  · split
    · exact ⟨e, by rw [(stop_f _).2]; simp⟩
    · exact ⟨mm_setRegF m x hm, by simp⟩

theorem mmode_lt (x : State) : mirMode x < 4 := by unfold mirMode regF fld nfld; exact Nat.mod_lt _ (by decide)

theorem mode_run (m : Nat) (hm : m < 3) (ini : Ini) (s : State) (h : writeOpen s ini .mir 0x040 = true) :
   ∃ u, mirModeWrite ini m s = mirModeSet m u ∧ u = plainWrite ini .mir 0x040 (setFld (setFld (reg s .mir 0x040) 1 0 m) 1 0 (mirMode s)) (answer .ok s) ∧ mirMode u = mirMode s ∧ u.mem = s.mem := by
  have hf : fld (setFld (reg s .mir 0x040) 1 0 m) 1 0 = m := fld_setFld_self _ _ _ _ (by decide) (by decide) (by omega)
  obtain ⟨u, e, a, b, _⟩ := mirPw ini (setFld (setFld (reg s .mir 0x040) 1 0 m) 1 0 (mirMode s)) (answer .ok s)
  refine ⟨u, ?_, e.symm, b.trans (fld_setFld_self _ _ _ _ (by decide) (by decide) (mmode_lt s)), a⟩
  unfold mirModeWrite; rw [admitWrite_open h]; unfold mirCtrlWrite; dsimp only
  rw [hf, if_neg (by omega)]
  show mirModeSet m (plainWrite ini .mir 0x040 (setFld (setFld (reg s .mir 0x040) 1 0 m) 1 0 (mirMode s)) (answer .ok s)) = _
  rw [e]

theorem mm_settle (s t) : mirMode (settle s t) = mirMode t := rfl

theorem burn_e (l) (s : State) (h1 : working s .diag = true) (h2 : ptReady s = true) (h3 : diagMode s = 1) : (if !working s .diag || diagMode s != 1 then s else if ptReady s then forEach burnPt l s else { s with diag := { s.diag with burns := s.diag.burns + 1 } }) = forEach burnPt l s := by
  rw [if_neg (by simp [h1, h3]), if_pos h2]

theorem dRow : rowOf .diag 0x040 = some (rw 0x040 0x8270 0xF773 [.clamp 1 0 0 2, .lock 0 0xF770]) := by decide +kernel

theorem dPw (ini w x) : (plainWrite ini .diag 0x040 w x).mem = x.mem ∧ (plainWrite ini .diag 0x040 w x).diag = x.diag := by
  rw [plainWrite, dRow]
  simp only [rw, applyRules, applyRule]
  by_cases hl : locked x .diag 0 = true
  · rw [if_pos hl]; dsimp only
    generalize (false || _ != (0 : Word)) = b
    cases b <;> simp [recErr, recErrAt, raiseIrq, setRegB]
  · rw [if_neg hl]; simp

@[simp] theorem memWrite_diag (bs : List Byte) (a : Nat) (s : State) : (memWrite a bs s).diag = s.diag := by
  induction bs generalizing a s with
  | nil => rfl
  | cons x bs ih => simp [memWrite, ih]

theorem dropSus_f (i p s) : (dropSus i p s).regs = s.regs ∧ (dropSus i p s).diag.reps = s.diag.reps := by
  unfold dropSus; dsimp only
  split
  · unfold putDiag; rw [memWrite_regs, memWrite_diag]; exact ⟨rfl, rfl⟩
  · exact ⟨rfl, rfl⟩

theorem noSus_f (s) : (diagNoSus s).regs = s.regs ∧ (diagNoSus s).diag.reps = s.diag.reps := by
  unfold diagNoSus
  exact forEach_inv (fun t => t.regs = s.regs ∧ t.diag.reps = s.diag.reps) _ _ (fun x _ t ht => ⟨(dropSus_f ..).1.trans ht.1, (dropSus_f ..).2.trans ht.2⟩) _ ⟨rfl, rfl⟩

theorem dm_setRegF (m x) (h : m < 4) : diagMode (setRegF .diag 0x040 1 0 m x) = m := by
  unfold diagMode regF setRegF; rw [reg_setReg_self, fld_setFld_self _ _ _ _ (by decide) (by decide) h]

theorem dms (m x) (h : m < 3) : diagMode (diagModeSet m x) = m ∧ (diagModeSet m x).diag.reps = x.diag.reps ∧ (m ≠ 1 → (diagModeSet m x).mem = x.mem) := by
  unfold diagModeSet; dsimp only
  split
  · refine ⟨?_, ?_, fun h => absurd (by simp_all) h⟩
    · have := reg_of_regs (noSus_f (setRegF .diag 0x040 1 0 m x)).1
      unfold diagMode regF; rw [this]; exact dm_setRegF m x (by omega)
    · rw [(noSus_f _).2]; simp [setRegF]
  · exact ⟨dm_setRegF m x (by omega), by simp [setRegF], fun _ => by simp⟩

theorem dm_run (m : Nat) (hm : m < 3) (ini : Ini) (s : State) (h : writeOpen s ini .diag 0x040 = true) :
  ∃ t, done s (diagModeWrite ini m s) = .next t ∧ diagMode t = m ∧ t.diag.reps = s.diag.reps ∧ (m ≠ 1 → t.mem = s.mem) := by
  have hf : fld (setFld (reg s .diag 0x040) 1 0 m) 1 0 = m := fld_setFld_self _ _ _ _ (by decide) (by decide) (by omega)
  refine ⟨_, evNext rfl, ?_⟩
  unfold diagModeWrite; rw [admitWrite_open h]; unfold diagCtrlWrite
  rw [hf, show min 2 m = m by omega]
  obtain ⟨a, b, c⟩ := dms m (plainWrite ini .diag 0x040 (setFld (setFld (reg s .diag 0x040) 1 0 m) 1 0 (diagMode (answer .ok s))) (answer .ok s)) hm
  refine ⟨a, ?_, fun h => ?_⟩
  · rw [settle_diag, b, (dPw ..).2]; rfl
  · rw [settle_mem, c h, (dPw ..).1]; rfl

end Sys2Proof.Machine
end

