-- ==== Sys2Proof/Laws/Oasis.lean ====
section
/-! SUPPORT. Lemmas on OASIS: what its operations do, said once. -/
namespace Sys2Proof.Machine

theorem rtcSet_stalled (n s) : (rtcSet n s).stalled = s.stalled := by simp [rtcSet, setRegB, onOas]

theorem rtcSet_mem (n s) : (rtcSet n s).mem = s.mem := by simp [rtcSet, onOas]

theorem rtcSet_rtc (n s) : (rtcSet n s).rtc = n := by simp [rtcSet, setRegB, onOas]

theorem rtcSet_flight (n s) : (rtcSet n s).oas.flight = s.oas.flight := by simp [rtcSet, setRegB, onOas]

theorem oasW (ini : Ini) (off v) (s : State) (h : writeOpen s ini .oasis off = true) (hf : s.oas.flight = none) :
  done s (admitWrite ini .oasis off v (oasWrite ini off v) s) = .next (onOas (fun o => { o with flight := some { ini := ini, addr := pageBase .oasis + off, val := some v } }) (answer .ok s)) := by
  refine admNext' h ?_ rfl rfl
  unfold oasWrite; dsimp only
  rw [if_neg]
  rw [show (answer .ok s).oas = s.oas from rfl, hf]; decide

theorem oas_hk (ini : Ini) : ∀ a b : Nat, a ≠ b → a < 4096 → b < 4096 → regKeyI .oasis a ini.id ≠ regKeyI .oasis b ini.id := by
      intro a b h1 h2 h3; unfold regKeyI; omega

theorem oas_c0 (s : State) (ini : Ini) (d : Resp) (c1 c2 c3 c4 : Word) (t : State) (ht : t = answer d (setRegI .oasis 0x048 ini.id c4 (setRegI .oasis 0x04C ini.id c3
      (setRegI .oasis 0x064 ini.id c1 (setRegI .oasis 0x068 ini.id c2 s))))) : t.mem = s.mem ∧ t.resp = d ∧ regI t .oasis 0x048 ini.id = c4 ∧
   regI t .oasis 0x04C ini.id = c3 ∧ regI t .oasis 0x064 ini.id = c1 ∧ regI t .oasis 0x068 ini.id = c2 := by
    subst ht
    refine ⟨?_, ?_, ?_, ?_, ?_, ?_⟩
    · rw [answer_mem, setRegI_mem, setRegI_mem, setRegI_mem, setRegI_mem]
    · rfl
    · rw [regI_answer, regI_setRegI_self]
    · rw [regI_answer, regI_setRegI, if_neg (oas_hk _ _ _ (by decide) (by decide) (by decide)), regI_setRegI_self]
    · rw [regI_answer, regI_setRegI, if_neg (oas_hk _ _ _ (by decide) (by decide) (by decide)), regI_setRegI, if_neg (oas_hk _ _ _ (by decide) (by decide) (by decide)), regI_setRegI_self]
    · rw [regI_answer, regI_setRegI, if_neg (oas_hk _ _ _ (by decide) (by decide) (by decide)), regI_setRegI, if_neg (oas_hk _ _ _ (by decide) (by decide) (by decide)), regI_setRegI, if_neg (oas_hk _ _ _ (by decide) (by decide) (by decide)), regI_setRegI_self]

theorem oas_c (s : State) (ini : Ini) : rtcFracRead ini s = answer (.data (word (s.rtc % 2 ^ 15)))
    (setRegI .oasis 0x048 ini.id (word (rtcSec s % 2 ^ 32)) (setRegI .oasis 0x04C ini.id (word (rtcSec s / 2 ^ 32))
      (setRegI .oasis 0x064 ini.id (calDate (rtcSec s)) (setRegI .oasis 0x068 ini.id (calTime (rtcSec s)) s)))) := rfl

theorem oas_d (u : State) : rtcCmd 0x52000001 u = rtcSetBin u := by
  unfold rtcCmd keyed; rw [if_pos (by decide)]; dsimp only; rw [if_neg (by decide), if_pos (by decide)]

theorem oas_e (u : State) : rtcCmd 0x52000002 u = rtcSetCal u := by
  unfold rtcCmd keyed; rw [if_pos (by decide)]; dsimp only; rw [if_pos (by decide), if_neg (by decide)]

theorem sync_cmd (i : Ini) (w : Word) (s x : State) (hf : s.oas.flight = some { ini := i, addr := 0x4015005C, val := some w })
   (hx : rtcCmd w (onOas (fun o => { o with flight := none }) s) = x) (hs : (x.stalled.find? fun y => y.addr / 0x1000 == 0x40150) = none) : syncBusyEnd s = x := by
  have key : ∀ (y : Stalled), s.oas.flight = some y → oasApply y.ini (y.addr % 0x1000) (y.val.getD 0) (onOas (fun o => { o with flight := none }) s) = x → syncBusyEnd s = x := by
    intro y hy hx
    unfold syncBusyEnd; rw [hy]; dsimp only; rw [hx, hs]
  have ea : ∀ u, oasApply i (0x4015005C % 0x1000) ((some w).getD 0) u = rtcCmd w u := fun u => by
    rw [show 0x4015005C % 0x1000 = 0x05C by decide, show (some w).getD 0 = w from rfl]; rfl
  exact key _ hf ((ea _).trans hx)

theorem cal_facts (n : Nat) (u : State) (t : State) (ht : t = setRegB .oasis 0x074 0 false (rtcSet n u)) : t.rtc = n ∧ regB t .oasis 0x074 0 = false ∧ t.oas.flight = u.oas.flight ∧ t.mem = u.mem ∧ t.stalled = u.stalled := by
  subst ht
  refine ⟨?_, ?_, ?_, ?_, ?_⟩
  · unfold setRegB; rw [setReg_rtc, rtcSet_rtc]
  · exact regB_setRegB_self _ _ _ _ _ (by decide)
  · unfold setRegB; rw [setReg_oas, rtcSet_flight]
  · rw [setRegB_mem, rtcSet_mem]
  · unfold setRegB; rw [setReg_stalled, rtcSet_stalled]

theorem bin_facts (n : Nat) (u : State) (t : State) (ht : t = rtcSet n u) : t.rtc = n ∧ regB t .oasis 0x040 0 = true ∧ t.oas.flight = u.oas.flight ∧ t.mem = u.mem ∧ t.stalled = u.stalled := by
  subst ht
  exact ⟨rtcSet_rtc .., by unfold rtcSet; exact regB_setRegB_self _ _ _ _ _ (by decide), rtcSet_flight .., rtcSet_mem .., rtcSet_stalled ..⟩

theorem corePor_oas (b s) : (corePor b s).oas = s.oas ∧ (corePor b s).rtc = s.rtc ∧ (corePor b s).rst.active = true := by
  have hl : ∀ (l : List (Fin 16 × Nat)) (a b : State), True := fun _ _ _ => trivial
  have core : ∀ u, (coreReset u).oas = u.oas ∧ (coreReset u).rtc = u.rtc ∧ (coreReset u).rst.active = u.rst.active := by
    intro u
    have hc : (nandCut u).oas = u.oas ∧ (nandCut u).rtc = u.rtc ∧ (nandCut u).rst = u.rst := by
      unfold nandCut; split
      · split
        · exact ⟨rfl, rfl, rfl⟩
        · simp [nandSpoil]
      · exact ⟨rfl, rfl, rfl⟩
    unfold coreReset; dsimp only
    have hs : ∀ (old x : State), (landLevels old x).oas = x.oas ∧ (landLevels old x).rtc = x.rtc ∧ (landLevels old x).rst = x.rst := by
      intro old x
      unfold landLevels
      have := forEach_inv (fun t => t.oas = x.oas ∧ t.rtc = x.rtc ∧ t.rst = x.rst) (fun (n : Nat) t => setRegB .det (0x10C + 0x10 * n) 16 (regB old .det (0x10C + 0x10 * n) 16) t) (List.range 16)
        (fun n _ t ht => by simp only [setRegB, setReg_oas, setReg_rtc, setReg_rst]; exact ht) x ⟨rfl, rfl, rfl⟩
      simp only [setRegB, setReg_oas, setReg_rtc, setReg_rst]
      exact this
    obtain ⟨a, b, c⟩ := hc
    refine ⟨(hs _ _).1.trans a, (hs _ _).2.1.trans b, ?_⟩
    rw [(hs _ _).2.2]; dsimp only; rw [c]
  unfold corePor episode; dsimp only
  obtain ⟨a, b', c⟩ := core s
  split
  · rename_i h; refine ⟨a, b', ?_⟩
    exact c.trans h
  · exact ⟨a, b', rfl⟩

end Sys2Proof.Machine
end

