-- ==== Sys2Proof/Laws/PointTable.lean ====
section
/-! SUPPORT. Lemmas on the point table: what its operations do, said once. -/
namespace Sys2Proof.Machine

theorem ptLine_put (i j l s) : ptLine (putLine i l s) j = if i = j then l else ptLine s j := by simp [ptLine, putLine, spGet_spPut]

@[simp] theorem setReg_ptLine (p o v s i) : ptLine (setReg p o v s) i = ptLine s i := by unfold ptLine; rw [setReg_ptab]

theorem ptPoke_line (i w v s j) (h : (ptLine s i).isSome) : ∃ l, ptLine (ptPoke i w v s) j = if i = j then some l else ptLine s j := by
  unfold ptPoke
  cases hl : ptLine s i with
  | none => rw [hl] at h; cases h
  | some l => exact ⟨_, ptLine_put ..⟩

theorem raiseIrq_ptLine (p n s i) : ptLine (raiseIrq p n s) i = ptLine s i := by simp [raiseIrq, setRegB]

theorem ptCheck_line (i s) (h : (ptLine s i).isSome) : (ptLine (ptCheck i s) i).isSome := by
  unfold ptCheck
  split
  · split
    · obtain ⟨l, e⟩ := ptPoke_line i 46 (setFld (ptWord s i 46) 0 0 0) s i h
      unfold ptPokeF; rw [e]; simp
    · exact h
  · rw [raiseIrq_ptLine]; split
    · exact h
    · obtain ⟨l, e⟩ := ptPoke_line i 46 (setFld (ptWord s i 46) 0 0 1) s i h
      unfold ptPokeF; rw [e]; simp

theorem ptFill_line (i s) : (ptLine (ptFill i s) i).isSome := by
  unfold ptFill; apply ptCheck_line; rw [ptLine_put]; simp

theorem ptPin_pins (i s) (hp : ptPinned s i = false) (hn : ptPinsInSet s i < 4) : ptPinned (ptPin i s) i = true := by
  unfold ptPin; rw [if_neg (by simp [hp]), if_neg (by omega)]
  dsimp only
  have hs : (ptLine (if (ptLine s i).isSome = true then s else ptFill i s) i).isSome := by
    split
    · assumption
    · exact ptFill_line i s
  generalize (if (ptLine s i).isSome = true then s else ptFill i s) = t at *
  cases h : ptLine t i with
  | none => rw [h] at hs; cases hs
  | some l => unfold ptPinned; rw [ptLine_put, if_pos rfl]

theorem cmdw (op : Fin 8) (i : Fin 16384) : fld (ptCmdWord op.val i) 31 28 = op.val ∧ fld (ptCmdWord op.val i) 13 0 = i.val := by
  unfold ptCmdWord fld nfld word
  rw [BitVec.toNat_ofNat, Nat.shiftRight_eq_div_pow, Nat.shiftRight_eq_div_pow]
  have := op.isLt; have := i.isLt
  constructor <;> omega

theorem ptCmd_run (s ini) (op : Fin 8) (i : Fin 16384) (h : writeOpen s ini .ptab 0x054 = true) (hr : restoring s = false) (h0 : op.val ≠ 0) (h6 : op.val ≤ 6) (hi : i.val < 12288) :
   admitWrite ini .ptab 0x054 (ptCmdWord op.val i) (ptCmd (ptCmdWord op.val i)) s = (match op.val with
    | 1 => setRegB .ptab 0x048 0 true (answer .ok s)
    | 2 => setRegB .ptab 0x048 2 true (ptWriteBackAll (answer .ok s))
    | 3 => setRegB .ptab 0x048 2 true (ptWriteBack i.val (answer .ok s))
    | 4 => ptPin i.val (answer .ok s)
    | 5 => ptUnpin i.val (answer .ok s)
    | _ => setRegB .ptab 0x048 3 true (answer .ok s)) := by
  rw [admitWrite_open h]
  unfold ptCmd
  have hr' : restoring (answer .ok s) = false := hr
  rw [(cmdw op i).1, (cmdw op i).2, hr']
  dsimp only
  rw [if_neg (by simp), if_neg (by omega), if_neg (by unfold ptCount; omega)]
  all_goals rfl

theorem unpin_run (s : State) (i : Nat) : ptPinned (ptUnpin i (answer .ok s)) i = false ∧ (ptUnpin i (answer .ok s)).mem = s.mem ∧ (ptUnpin i (answer .ok s)).regs = s.regs := by
  unfold ptUnpin
  cases h : ptLine (answer .ok s) i with
  | none => exact ⟨by unfold ptPinned; rw [h], rfl, rfl⟩
  | some l => exact ⟨by unfold ptPinned; rw [ptLine_put, if_pos rfl], rfl, rfl⟩

theorem base_run (ini v s) (hl : locked s .ptab 0 = false) : plainWrite ini .ptab 0x040 v s = setReg .ptab 0x40 (v &&& 0xFFFFF000) s := by
  have : rowOf .ptab 0x40 = some (rw 0x040 0x80000000 0xFFFFF000 [.lock 0 0xFFFFFFFF]) := by decide +kernel
  rw [plainWrite, this]
  simp [rw, applyRules, applyRule, hl]

theorem setRegB_B (p o n b s) (h : n < 32) : regB (setRegB p o n b s) p o n = b := regB_setRegB_self _ _ _ _ _ h

theorem ptEmpty_ptab (s) : (ptEmpty s).ptab.cache = [] := rfl

@[simp] theorem answer_regB (r s p o n) : regB (answer r s) p o n = regB s p o n := rfl

theorem ptBaseWrite_run (s ini v) (h : writeOpen s ini .ptab 0x040 = true) (he : enabled s .ptab = false) (hl : locked s .ptab 0 = false) (h1 : 0x80000000 ≤ v.toNat / 4096 * 4096) (h2 : v.toNat / 4096 * 4096 ≤ 0xBFD00000) (hl2 : locked (ptEmpty (ptWriteBackAll (answer .ok s))) .ptab 0 = false) :
      ∃ t, exec (.ptBaseWrite ini v) s = .next t ∧ reg t .ptab 0x040 = v &&& 0xFFFFF000 ∧ t.ptab.cache = [] ∧ t.mem = (ptWriteBackAll (answer .ok s)).mem := by
    have he' : enabled (answer .ok s) .ptab = false := he
    have hl' : locked (answer .ok s) .ptab 0 = false := hl
    have e : admitWrite ini .ptab 0x040 v (ptBaseWrite ini v) s = setReg .ptab 0x40 (v &&& 0xFFFFF000) (ptEmpty (ptWriteBackAll (answer .ok s))) := by
      rw [admitWrite_open h, ptBaseWrite, he', hl', ← base_run ini v _ hl2]
      simp; omega
    refine ⟨_, congrArg (fun x => Host.Outcome.next (settle s x)) e, ?_, ?_, ?_⟩
    · rw [reg_settle, reg_setReg_self]
    · rw [settle_ptab, setReg_ptab, ptEmpty_ptab]
    · rw [settle_mem, setReg_mem]; rfl

theorem bump_line (p o s i) : ptLine (bumpReg p o s) i = ptLine s i := by unfold bumpReg ptLine; rw [setReg_ptab]

theorem word_cached (i s t) (hl : ptLine t i = ptLine s i) (h : (ptLine s i).isSome) (w) : ptWord t i w = ptWord s i w := by
  unfold ptWord; rw [hl]
  cases hh : ptLine s i with
  | none => rw [hh] at h; cases h
  | some l => rfl

end Sys2Proof.Machine
end

