-- ==== Sys2Proof/Laws/Points.lean ====
section
/-! SUPPORT. Lemmas on dimming, schedules and detectors: what its operations do, said once. -/
namespace Sys2Proof.Machine

theorem dimPt_put (i t s j) : dimPt (putDimPt i t s) j = if i = j then t else dimPt s j := by simp [dimPt, putDimPt, spGet_spPut]

theorem dimBacklog_dim (s) : (dimBacklog s).dim = s.dim := by
  unfold dimBacklog levelIrq raiseIrq setRegB; dsimp only; split <;> simp

theorem rq_run (s : State) (ini : Ini) (op : Nat) (ho : op < 5) (h1 : quiescing s .dim = false) (h2 : rqBusy s ini.id = false) (h3 : dimFull s = false)
   (h4 : dimRefusal (setRegI .dim 0x090 ini.id (word op) (answer .ok s)) 0 op (regI s .dim 0x080 ini.id) (regI s .dim 0x084 ini.id) (regI s .dim 0x08C ini.id) = none) :
   rqCmd ini.id (word op) (answer .ok s) = (
     let s2 := dimRequest 0 op (regI s .dim 0x080 ini.id) (regI s .dim 0x084 ini.id) (regI s .dim 0x088 ini.id) (regI s .dim 0x08C ini.id) (setRegI .dim 0x090 ini.id (word op) (answer .ok s)) (some ini.id.val)
     if portIn ini.id.val 0 s2.dim.queue then setRegI .dim 0x094 ini.id 2 s2
       else setRegI .dim 0x094 ini.id 1 { s2 with dim := { s2.dim with entering := s2.dim.entering ++ [ini.id.val] } }) := by
  have q : quiescing (answer .ok s) .dim = false := h1
  have b : rqBusy (answer .ok s) ini.id = false := h2
  have f : dimFull (setRegI .dim 0x090 ini.id (word op) (answer .ok s)) = false := by unfold dimFull; rw [setRegI_dim]; exact h3
  unfold rqCmd; rw [q, b, if_neg (by simp), if_neg (by simp)]; dsimp only
  rw [if_neg (by simp [f])]
  unfold rqRun; dsimp only
  rw [regI_setRegI_self, regI_setRegI_off (a := 0x090) (b := 0x080) _ (by decide), regI_setRegI_off (a := 0x090) (b := 0x084) _ (by decide), regI_setRegI_off (a := 0x090) (b := 0x08C) _ (by decide), regI_setRegI_off (a := 0x090) (b := 0x088) _ (by decide)]
  have : (word op).toNat = op := by unfold word; rw [BitVec.toNat_ofNat]; omega
  rw [this, regI_answer, regI_answer, regI_answer, regI_answer, h4]; rw [if_neg (by simp)]

theorem sp_run (p k l rel) (s : State) (h1 : schedPosts s = true) (h2 : progEn s p = true) (h3 : (sstepOf s p k).valid = true) (h4 : (sstepOf s p k).bad = false)
   (h5 : (sstepOf s p k).release = rel) (h6 : instantNear s p k (if rel then 0 else regF s .sched 0x040 31 16) = some l) :
   stepPosted p k rel s = progStat p l (raiseIrq .sched 1 (schedSend (stepPost p k (sstepOf s p k)) (actOfLocal s l) (pointsOfStep s p k l) s)) := by
  have hw : schedWaits s = false := by unfold schedWaits; rw [h1]; simp
  unfold stepPosted; dsimp only
  rw [if_neg (by simp [hw]), if_neg (by simp [h1, h2, h3]), if_neg (by simp [h4]), if_neg (by simp [h5]), h6]

theorem noBit (n : Nat) : bit (0 : Word) n = false := by rw [bit_eq]; simp

theorem defOf_put (d ws s e) : defOf (putDef d ws s) e = if d = e then ws else defOf s e := by simp [defOf, putDef, spGet_spPut]

theorem edgesOf_ans (r s d) : edgesOf (answer r s) d = edgesOf s d := rfl

theorem defInvalid_f (s : State) (d) : edgesOf (defInvalid s) d = edgesOf s d ∧ (defInvalid s).mem = s.mem ∧ defOf (defInvalid s) d = defOf s d := by
  unfold defInvalid raiseIrq setRegB recErr recErrAt
  refine ⟨?_, ?_, ?_⟩
  · unfold edgesOf; simp [raiseIrq, setRegB]
  · simp
  · unfold defOf; simp [raiseIrq, setRegB]

theorem gg (s : State) (ws) (x) : defGood (answer .ok { s with det := x }) ws = defGood { s with det := x } ws := rfl

end Sys2Proof.Machine
end

