-- ==== Sys2Proof/Laws/Radio.lean ====
section
/-! SUPPORT. Lemmas on the radio, node updates and the fabric: what its operations do, said once. -/
namespace Sys2Proof.Machine

theorem crvRx_new (f : RadioRx) (fx : State → State) (s : State) (h1 : crvRuns s = true) (hf : f.fcs = true) (hk : f.kindOk = true) (h3 : f.good = true)
  (h4 : keyAccepted s f.key = true) (h5 : (sesOf s f.src.val).valid = true) (h6 : f.src ≠ 0) (h7 : (sesOf s f.src.val).fc < f.fc) :
  crvRx f fx s = fx (rfAck f.src.val (putSes f.src.val { sesOf s f.src.val with fc := f.fc % 2 ^ 32, dsn := f.dsn % 256, fcMs := nowMs s } (bumpReg (rfPage s) 0x074 s))) := by
  have h6' : ¬ (f.src.val = 0) := fun h => h6 (Fin.ext h)
  unfold crvRx; dsimp only
  rw [if_neg (by simp [h1]), if_neg (by simp [hf, hk, h3, h4, h5, h6']), if_pos h7, hf]; rfl

theorem setFld_fld (w : Word) (hi lo : Nat) (h : hi < 32) : setFld w hi lo (fld w hi lo) = w := by
  apply BitVec.eq_of_getLsbD_eq
  intro i hi'
  have := bit_setFld w hi lo (fld w hi lo) i h
  simp only [bit_eq] at this
  rw [this]
  split
  · rename_i h'
    rw [fld_testBit, decide_eq_true (by omega), Bool.true_and, show lo + (i - lo) = i by omega, bit_eq]
  · rfl

theorem modeBits (w : Word) (m : Nat) : ((setFld w 1 0 m ^^^ w) &&& 0xFFFFF100) = 0 := by
  apply BitVec.eq_of_getLsbD_eq
  intro i hi
  by_cases h : i ≤ 1
  · have : i = 0 ∨ i = 1 := by omega
    rcases this with rfl | rfl <;> simp
  · have := bit_setFld w 1 0 m i (by decide)
    simp only [bit_eq] at this
    simp only [BitVec.getLsbD_and, BitVec.getLsbD_xor]
    rw [this, if_neg (by omega)]; simp

theorem ctrlMode (ini : Ini) (m : Nat) (s : State) (hm : m < 3) (h1 : crvRadio s = 0) (hd1 : 1 ≤ crvDepth s) (hd2 : crvDepth s ≤ 8) (h2 : regF s (.rf 0) 0x040 5 4 ≠ 0)
   (h3 : modeRefusal (plainWrite ini .crv 0x040 (setFld (setFld (reg s .crv 0x040) 1 0 m) 1 0 (crvMode s)) (answer .ok s)) m = none) :
   crvCtrlWrite ini (setFld (reg s .crv 0x040) 1 0 m) (answer .ok s) = crvModeSet m (plainWrite ini .crv 0x040 (setFld (setFld (reg s .crv 0x040) 1 0 m) 1 0 (crvMode s)) (answer .ok s)) := by
  have e1 : fld (setFld (reg s .crv 0x040) 1 0 m) 1 0 = m := fld_setFld_self _ _ _ _ (by decide) (by decide) (by omega)
  have e8 : fld (setFld (reg s .crv 0x040) 1 0 m) 8 8 = 0 := by
    rw [fld_setFld_ne _ _ _ _ _ _ (by decide) (by decide)]; exact h1
  have e12 : setFld (setFld (reg s .crv 0x040) 1 0 m) 15 12 (clampNat 1 8 (fld (setFld (reg s .crv 0x040) 1 0 m) 15 12)) = setFld (reg s .crv 0x040) 1 0 m := by
    have : fld (setFld (reg s .crv 0x040) 1 0 m) 15 12 = crvDepth s := fld_setFld_ne _ _ _ _ _ _ (by decide) (by decide)
    rw [show clampNat 1 8 (fld (setFld (reg s .crv 0x040) 1 0 m) 15 12) = fld (setFld (reg s .crv 0x040) 1 0 m) 15 12 by
      rw [this]; unfold clampNat; rw [if_neg (by omega), if_neg (by omega)]]
    exact setFld_fld _ _ _ (by decide)
  unfold crvCtrlWrite; dsimp only
  rw [e12, e1, e8, if_neg (show ¬ m = 3 by omega)]
  rw [if_neg (by simp), if_neg (by simp; intro h; exact absurd h h2), if_neg (by
    rw [show reg (answer .ok s) .crv 0x040 = reg s .crv 0x040 from rfl, modeBits]; simp)]
  rw [show crvMode (answer .ok s) = crvMode s from rfl, h3]

theorem nuDigest_answer (r s) : nuDigest (answer r s) = nuDigest s := by
  unfold nuDigest; rw [memRead_of_mem (answer r s) s rfl]; rfl

theorem nuCmdW (s : State) (ini : Ini) (v : Word) (fx : State → State) (h : workOpen s ini .nupd 0x05C = true)
   (e : ∀ t, nuCmdWrite v t = workRequest .nupd fx t) : admitWrite ini .nupd 0x05C v (nuCmdWrite v) s = fx (answer .ok s) := by
  have h' := h
  simp only [workOpen, Bool.and_eq_true, Bool.not_eq_true'] at h
  rw [admitWrite_open h.1.1, e]
  exact workRequest_open (s := answer .ok s) h.1.2 h.2 fx

theorem ergModeW (ini : Ini) (m : Nat) (s : State) (hm : m < 3) :
   ergCtrlWrite ini (setFld (reg s .erg 0x040) 1 0 m) (answer .ok s) = radioSee (ergModeSet m (plainWrite ini .erg 0x040 (setFld (setFld (reg s .erg 0x040) 1 0 m) 1 0 (ergMode s)) (answer .ok s))) := by
  unfold ergCtrlWrite
  rw [fld_setFld_self _ _ _ _ (by decide) (by decide) (by omega)]; rfl

end Sys2Proof.Machine
end

