-- ==== Sys2Proof/Laws/Sec.lean ====
section
/-! SUPPORT. Lemmas on the security core and CRYP: what its operations do, said once. -/
namespace Sys2Proof.Machine

theorem mbTaken_facts (s : State) (ini : Ini) : (mbTaken s ini).sec = s.sec ∧ (mbTaken s ini).keys = s.keys ∧ (mbTaken s ini).mem = s.mem := by
  have h := forEach_inv (fun t => t.sec = s.sec ∧ t.keys = s.keys ∧ t.mem = s.mem) (fun k t => setRegI .sec (0x100 + 4 * k) ini.id 0 t) (List.range 16)
    (fun x _ t ht => by rw [setRegI_sec, setRegI_keys, setRegI_mem]; exact ht) (setRegI .sec 0x090 ini.id 1 (answer .ok s))
    (by rw [setRegI_sec, setRegI_keys, setRegI_mem]; exact ⟨rfl, rfl, rfl⟩)
  unfold mbTaken
  exact h

theorem onSec_id (f : Sec → Sec) (s : State) (h : f s.sec = s.sec) : onSec f s = s := by unfold onSec; rw [h]

theorem secGo_eq (ini : Ini) (s : State) (h3 : secBusyOf s ini.id = false) :
    secGo ini (answer .ok s) = secNext (onSec (fun c => { c with queue := c.queue ++ [mbReq s ini] }) (mbTaken s ini)) := by
  unfold secGo
  rw [if_neg (by rw [show secBusyOf (answer .ok s) ini.id = secBusyOf s ini.id from rfl, h3]; simp)]
  rfl

theorem secNext_eq (r : SecReq) (x : State) (h4 : x.sec.run = none) (h5 : x.sec.queue = []) :
    secNext (onSec (fun c => { c with queue := c.queue ++ [r] }) x) = secServe r x := by
  unfold secNext
  have e1 : (onSec (fun c => { c with queue := c.queue ++ [r] }) x).sec.run = none := h4
  have e2 : (onSec (fun c => { c with queue := c.queue ++ [r] }) x).sec.queue = [r] := by show x.sec.queue ++ [r] = [r]; rw [h5]; rfl
  rw [e1, e2]
  have e3 : onSec (fun c => { c with queue := [] }) (onSec (fun c => { c with queue := c.queue ++ [r] }) x) = x := by
    show onSec (fun c => { c with queue := [] }) x = x
    refine onSec_id _ _ ?_
    generalize x.sec = c at *
    cases c; simp only at h5; subst h5; rfl
  show secServe r (onSec (fun c => { c with queue := [] }) (onSec (fun c => { c with queue := c.queue ++ [r] }) x)) = _
  rw [e3]

theorem served_1 (r : SecReq) (x t : State) (h : r.op = 1) (e : secInfo r x = t) : secServe r x = mbServed r x t := by
  subst e; unfold secServe mbServed; dsimp only; rw [h]; rfl

theorem served_2 (r : SecReq) (x t : State) (h : r.op = 2) (e : secLoad r x = t) : secServe r x = mbServed r x t := by
  subst e; unfold secServe mbServed; dsimp only; rw [h]; rfl

theorem served_3 (r : SecReq) (x t : State) (h : r.op = 3) (e : secVerify r x = t) : secServe r x = mbServed r x t := by
  subst e; unfold secServe mbServed; dsimp only; rw [h]; rfl

theorem served_4 (r : SecReq) (x t : State) (h : r.op = 4) (e : secCommit r x = t) : secServe r x = mbServed r x t := by
  subst e; unfold secServe mbServed; dsimp only; rw [h]; rfl

theorem served_5 (r : SecReq) (x t : State) (h : r.op = 5) (e : secErase r x = t) : secServe r x = mbServed r x t := by
  subst e; unfold secServe mbServed; dsimp only; rw [h]; rfl

theorem served_6 (r : SecReq) (x t : State) (h : r.op = 6) (e : secDerive r x = t) : secServe r x = mbServed r x t := by
  subst e; unfold secServe mbServed; dsimp only; rw [h]; rfl

theorem served_7 (r : SecReq) (x t : State) (h : r.op = 7) (e : secMac r x = t) : secServe r x = mbServed r x t := by
  subst e; unfold secServe mbServed; dsimp only; rw [h]; rfl

theorem served_8 (r : SecReq) (x t : State) (h : r.op = 8) (e : secSign r x = t) : secServe r x = mbServed r x t := by
  subst e; unfold secServe mbServed; dsimp only; rw [h]; rfl

theorem served_9 (r : SecReq) (x t : State) (h : r.op = 9) (e : secWrap r x = t) : secServe r x = mbServed r x t := by
  subst e; unfold secServe mbServed; dsimp only; rw [h]; rfl

theorem served_10 (r : SecReq) (x t : State) (h : r.op = 10) (e : secExtend r x = t) : secServe r x = mbServed r x t := by
  subst e; unfold secServe mbServed; dsimp only; rw [h]; rfl

theorem served_11 (r : SecReq) (x t : State) (h : r.op = 11) (e : secAttest r x = t) : secServe r x = mbServed r x t := by
  subst e; unfold secServe mbServed; dsimp only; rw [h]; rfl

theorem served_12 (r : SecReq) (x t : State) (h : r.op = 12) (e : secNonce r x = t) : secServe r x = mbServed r x t := by
  subst e; unfold secServe mbServed; dsimp only; rw [h]; rfl

theorem served_13 (r : SecReq) (x t : State) (h : r.op = 13) (e : secExec r x = t) : secServe r x = mbServed r x t := by
  subst e; unfold secServe mbServed; dsimp only; rw [h]; rfl

theorem served_bad (r : SecReq) (x : State) (h : r.op = 0 ∨ 13 < r.op) : secServe r x = mbServed r x (secFail r 0x10C x) := by
  unfold secServe mbServed; dsimp only
  congr 1
  split <;> first | omega | rfl

theorem mb_run (op : Nat) (ini : Ini) (s : State) (h : mbOpen s ini op = true) (t : State)
   (e : (mbReq s ini).op = op → secServe (mbReq s ini) (mbTaken s ini) = mbServed (mbReq s ini) (mbTaken s ini) t) :
   mbOp op ini s = .next (settle s (mbServed (mbReq s ini) (mbTaken s ini) t)) := by
  unfold mbOpen at h
  simp only [Bool.and_eq_true, Bool.not_eq_true', beq_iff_eq, Option.isNone_iff_eq_none, List.isEmpty_iff] at h
  obtain ⟨⟨⟨⟨h1, h2⟩, h3⟩, h4⟩, h5⟩ := h
  unfold mbOp
  rw [if_pos h1]
  have h2' := h2
  simp only [workOpen, Bool.and_eq_true, Bool.not_eq_true'] at h2
  have q : mbGoSec ini 0x5C000000 (answer .ok s) = secGo ini (answer .ok s) := by
    unfold mbGoSec; rw [if_pos rfl]; exact workRequest_open (s := answer .ok s) h2.1.2 h2.2 _
  refine evNext ?_
  obtain ⟨f1, f2, f3⟩ := mbTaken_facts s ini
  have hop : (mbReq s ini).op = op := h1
  rw [admitWrite_open h2.1.1, q, secGo_eq ini s h3, secNext_eq _ _ (by rw [f1]; exact h4) (by rw [f1]; exact h5)]
  exact e hop

theorem cryp_run (ok : Nat → Bool) (ini : Ini) (s t : State) (h : workOpen s ini .cryp 0x058 = true) (hk : ok (regF s .cryp 0x040 3 0) = true)
   (e : crypGo (answer .ok s) = t) : crypOp ok ini s = .next (settle s t) := by
  have h2 := h
  simp only [workOpen, Bool.and_eq_true, Bool.not_eq_true'] at h2
  unfold crypOp; rw [if_pos hk]
  refine evNext ?_
  rw [admitWrite_open h2.1.1]
  unfold crGoWrite; rw [if_pos rfl, workRequest_open (s := answer .ok s) h2.1.2 h2.2, e]

end Sys2Proof.Machine
end

