-- ==== Sys2Proof/Laws/SmallPages.lean ====
section
/-! SUPPORT. Lemmas on the header, the small pages and the serial ports: what its operations do, said once. -/
namespace Sys2Proof.Machine

theorem cancelKey_none (p : Page) (x : State) (h : spGet (fun _ => 0) x.lockKey (pageBase p) = 0) : cancelKey p x = x := by
  unfold cancelKey; rw [if_pos h]

theorem open_keyless {s ini p off} (h : writeOpen s ini p off = true) (ho : off ≠ 0x020) : spGet (fun _ => 0) s.lockKey (pageBase p) = 0 := by
  simp only [writeOpen, keyHolder, Bool.and_eq_true, Bool.or_eq_true, beq_iff_eq] at h
  exact h.1.2.resolve_left ho

theorem rstv : ∀ r : Fin 16, fld (word (0xA5000000 + r.val)) 31 24 = 0xA5 ∧ fld (word (0xA5000000 + r.val)) 3 0 = r.val := by decide

theorem rst_next (s : State) (p : Page) (ini : Ini) (h : writeOpen s ini p 0x024 = true) (ha : s.rst.active = false) (reach : Nat) (v : Word) :
   admitWrite ini p 0x024 v (blkRst p v) s = (if fld v 31 24 != 0xA5 then recErr p errBadKey (answer .ok s)
  else if fld v 3 0 = 1 then resetErrors p (answer .ok s)
  else if (fld v 3 0 != 2 && fld v 3 0 != 3) || refusesReset p then recErr p errBadReset (answer .ok s)
  else if fld v 3 0 = 2 then resetDatapath p (answer .ok s) else resetFull p (answer .ok s)) := by
  have hr : inReset (answer .ok s) p = false := by
    have : inReset s p = false := by
      simp only [writeOpen, Bool.and_eq_true, Bool.not_eq_true'] at h; exact h.1.1.1.2
    simpa [inReset] using this
  rw [admitWrite_open h]; unfold blkRst; simp [hr, ha]

@[simp] theorem putSer_pending (q p s) : (putSer q p s).pending = s.pending := rfl

@[simp] theorem putSer_tb (q p s) : (putSer q p s).tb = s.tb := rfl

@[simp] theorem putSer_mem (q p s) : (putSer q p s).mem = s.mem := rfl

theorem mbEnd_shows (q r e d s) (hq : q < 2) : mbBusy (mbEnd q r e d s) q = false ∧ reg (mbEnd q r e d s) .ser485 (0x114 + 0x200 * q) = word (r * 2 ^ 28 + e * 2 ^ 16 + b01 d * 256 + 2) ∧ (mbEnd q r e d s).mem = s.mem := by
  have e1 : ∀ k x, reg (raiseIrq .ser485 k x) .ser485 (0x114 + 0x200 * q) = reg x .ser485 (0x114 + 0x200 * q) := fun k x => by
    simp only [raiseIrq, setRegB]; rw [reg_setReg_off _ (by omega)]
  refine ⟨?_, ?_, ?_⟩
  · unfold mbEnd; dsimp only; split <;> simp [mbBusy, serPort, raiseIrq, setRegB, putSer]
  · unfold mbEnd; dsimp only; split <;> simp [e1]
  · unfold mbEnd; dsimp only; split <;> simp [raiseIrq]

theorem mbPut_mem (q k v s) : (mbPut q k v s).mem = s.mem := by unfold mbPut; split <;> simp

theorem mbStore_mem (q d s) : ∀ n, (mbStore q d s n).mem = s.mem := by
  intro n; induction n with
  | zero => rfl
  | succ n ih => simp [mbStore, mbPut_mem, ih]

@[simp] theorem raiseIrq_sent (p n s) : (raiseIrq p n s).sent = s.sent := by simp [raiseIrq, setRegB]

@[simp] theorem memWrite_sent (bs : List Byte) (a : Nat) (s : State) : (memWrite a bs s).sent = s.sent := by
  induction bs generalizing a s with
  | nil => rfl
  | cons x bs ih => simp [memWrite, ih]

theorem reg_raiseIrq (p q n off s) (h : off ≠ 0x14 ) : reg (raiseIrq p n s) q off = reg s q off ∨ True := Or.inr trivial

theorem memByte_of_mem {s t : State} (h : t.mem = s.mem) (a) : memByte t a = memByte s a := by simp [memByte, h]

@[simp] theorem raiseIrq_usb (p n s) : (raiseIrq p n s).usb = s.usb := by simp [raiseIrq, setRegB]

@[simp] theorem setRegB_usb (p o n b s) : (setRegB p o n b s).usb = s.usb := by simp [setRegB]

@[simp] theorem setRegF_usb (p o n b c s) : (setRegF p o n b c s).usb = s.usb := by simp [setRegF]

theorem reg_raiseIrq_off (p n b s) (h : b ≠ 0x14) : reg (raiseIrq p n s) p b = reg s p b := by
  simp only [raiseIrq, setRegB]; rw [reg_setReg_off _ (Ne.symm h)]

theorem regB_raiseIrq (p n s) (h : n < 32) : regB (raiseIrq p n s) p 0x14 n = true := by
  simp [raiseIrq, regB_setRegB_self _ _ _ _ _ h]

theorem addr_same (c : Prop) [Decidable c] (x : State) : (if c then usbAddrApply x else x).regs = x.regs ∧ (if c then usbAddrApply x else x).mem = x.mem ∧ (if c then usbAddrApply x else x).sent = x.sent := by
  have h : (usbAddrApply x).regs = x.regs ∧ (usbAddrApply x).mem = x.mem ∧ (usbAddrApply x).sent = x.sent := by
    unfold usbAddrApply; split <;> exact ⟨rfl, rfl, rfl⟩
  split
  · exact h
  · exact ⟨rfl, rfl, rfl⟩

theorem epCancel_keeps (e : Nat) (s : State) : (epCancel e s).mem = s.mem ∧ (epCancel e s).usb = s.usb ∧ reg (epCancel e s) .usbd 0x048 = reg s .usbd 0x048 := by
  unfold epCancel setRegB
  exact ⟨by simp, by simp, by rw [reg_setReg_off _ (by omega)]⟩

theorem epCancel_armed (e f : Nat) (s : State) : epArmed (epCancel e s) f = if e = f then false else epArmed s f := by
  unfold epArmed epCancel
  by_cases h : e = f
  · subst h; rw [if_pos rfl, regB_setRegB_self _ _ _ _ _ (by decide)]
  · rw [if_neg h]; unfold regB setRegB; rw [reg_setReg_off _ (by omega)]

theorem epCancelAll (s : State) : ∃ t, forEach epCancel [0, 1, 2, 3, 4, 5] s = t ∧ t.mem = s.mem ∧ t.usb = s.usb ∧ reg t .usbd 0x048 = reg s .usbd 0x048 ∧ ∀ e, e < 6 → epArmed t e = false := by
  refine ⟨_, rfl, ?_, ?_, ?_, ?_⟩
  · exact forEach_keep (·.mem) _ _ (fun e s => (epCancel_keeps e s).1) s
  · exact forEach_keep (·.usb) _ _ (fun e s => (epCancel_keeps e s).2.1) s
  · exact forEach_keep (reg · .usbd 0x048) _ _ (fun e s => (epCancel_keeps e s).2.2) s
  · intro e he
    simp only [forEach, epCancel_armed]
    interval_cases e <;> simp

end Sys2Proof.Machine
end

