-- ==== Sys2Proof/Laws/Transfers.lean ====
section
/-! SUPPORT. Lemmas on transfers, queues and the recorder: what its operations do, said once. -/
namespace Sys2Proof.Machine

theorem regF_setRegF_self (p off hi lo v s) (h : hi < 32) (hl : lo ≤ hi) (hv : v < 2 ^ (hi + 1 - lo)) : regF (setRegF p off hi lo v s) p off hi lo = v := by
  simp only [regF, setRegF, reg_setReg_self]; exact fld_setFld_self _ _ _ _ h hl hv

@[simp] theorem cqFlags_pending (a b s) : (cqFlags a b s).pending = s.pending := by simp [cqFlags]

theorem setRegB_cmdq (p o n b s) : (setRegB p o n b s).cmdq = s.cmdq := by simp [setRegB]

@[simp] theorem cqFlags_cmdq (a b s) : (cqFlags a b s).cmdq = s.cmdq := by simp [cqFlags, setRegB]

theorem onCq_at {f s q} (h : f s.cmdq = q) : onCq f s = { s with cmdq := q } := by unfold onCq; rw [h]

theorem cqRun_eq {s e rest early} (h : s.cmdq.entries = e :: rest) (h1 : running s .cmdq = true) (h2 : cqHalted s = false) (h3 : regB s .cmdq 0x044 29 = false) :
   cqRun early s = (let r := cqAccess early e s
      match r.2 with
      | .ok w => cqTook (e.tries != 0) e w r.1
      | .fails x => cqFails e x r.1
      | .stalls => s) := by
  unfold cqRun; rw [h]; dsimp only
  rw [if_neg (by rw [h1, h2, h3]; simp)]
  all_goals rfl

theorem cqAccess_w {s e early} (h : resetStop early s e.addr = none) (h1 : e.kind = 0) (h2 : (busWrite e.ini e.addr e.data s).resp = .ok) :
   cqAccess early e s = (busWrite e.ini e.addr e.data s, .ok 0) := by
  unfold cqAccess; rw [h]; dsimp only; rw [if_pos h1, h2]

theorem cqAccess_r {s e early w} (h : resetStop early s e.addr = none) (h1 : e.kind ≠ 0) (h2 : (busRead e.ini e.addr s).resp = .data w) :
   cqAccess early e s = (busRead e.ini e.addr s, .ok w) := by
  unfold cqAccess; rw [h]; dsimp only; rw [if_neg h1, h2]

end Sys2Proof.Machine
end

