-- ==== Sys2Proof/Laws/Whole.lean ====
section
/-! SUPPORT. Lemmas on accesses, claims, streams and records as wholes: what its operations do, said once. -/
namespace Sys2Proof.Machine

theorem pageAt_div (a b : Nat) (h : a / 0x1000 = b / 0x1000) : pageAt a = pageAt b := by unfold pageAt; rw [h]

theorem pageAt_in (p : Page) (off : Nat) (h : off < 0x1000) : pageAt (pageBase p + off) = some p := by
  have hm := pageBase_mod p
  rw [pageAt_div _ (pageBase p) (by omega), pageAt_base]

theorem region_window (a : Nat) : regionOf a = some .window ↔ 0x40000000 ≤ a ∧ a < 0x80000000 := by
  unfold regionOf
  split
  · simp; omega
  · split
    · simp; omega
    · split
      · simp; omega
      · split
        · simp; omega
        · split
          · simp; omega
          · split
            · simp; omega
            · simp; omega

theorem wr_eq {s t ini a bs} (h : busStore ini a bs s = t) : exec (.memAccess ini (.write a bs) .none) s = .next (settleTb s t) :=
  (execStore_none ..).trans (evTb h)

theorem rd_eq {s t ini a len} (h : busLoad ini a len s = t) : exec (.memAccess ini (.read a len) .none) s = .next (settleTb s t) :=
  (execLoad_none ..).trans (evTb h)

theorem recErr_code (p : Page) (c : Nat) (s : State) (hc : c < 65536) : regF (recErr p c s) p 0x018 15 0 = c := by
  have e : reg (recErr p c s) p 0x018 = word (satInc 255 (regF s p 0x018 23 16) * 65536 + c % 65536) := by
    simp only [recErr, recErrAt, raiseIrq, setRegB]
    rw [reg_setReg_off _ (by decide), reg_setReg_off _ (by decide), reg_setReg_off _ (by decide), reg_setReg_off _ (by decide), reg_setReg_self]
  unfold regF; rw [e]
  have hs : satInc 255 (regF s p 0x018 23 16) ≤ 255 := by
    have : regF s p 0x018 23 16 < 256 := Nat.mod_lt _ (by decide)
    unfold satInc; split <;> omega
  generalize satInc 255 (regF s p 0x018 23 16) = k at hs
  have e2 : (word (k * 65536 + c % 65536)).toNat = k * 65536 + c := by
    simp only [word, BitVec.toNat_ofNat]; omega
  simp only [fld, nfld, e2, Nat.shiftRight_zero]; omega

theorem rst_open {s ini p reach} (h : writeOpen s ini p 0x024 = true) : rstRow ini p reach s = doneTb s (blkRst p (word (0xA5000000 + reach)) (answer .ok s)) := by
  unfold rstRow; dsimp only; rw [admitWrite_open h]

theorem dram_range {a : Nat} (h : regionOf a = some .dram) : 0x80000000 ≤ a ∧ a < 0xC0000000 := by
  unfold regionOf at h
  split at h
  · simp at h
  · split at h
    · simp at h
    · split at h
      · simp at h
      · split at h
        · simp at h
        · split at h
          · simp at h
          · split at h
            · assumption
            · simp at h

theorem size_fits {a len : Nat} (h : sizeOk a len = true) : a % len = 0 ∧ 0 < len ∧ len ≤ 64 ∧ (len = 1 ∨ len = 2 ∨ len = 4 ∨ len = 8 ∨ len = 16 ∨ len = 32 ∨ len = 64) := by
  unfold sizeOk at h
  simp only [Bool.and_eq_true, List.contains_eq_mem, decide_eq_true_eq, beq_iff_eq] at h
  have h1 : len = 1 ∨ len = 2 ∨ len = 4 ∨ len = 8 ∨ len = 16 ∨ len = 32 ∨ len = 64 := by simpa using h.1
  refine ⟨h.2, ?_, ?_, h1⟩ <;> rcases h1 with h | h | h | h | h | h | h <;> omega

theorem dram_all {a len k : Nat} (h : regionOf a = some .dram) (hs : sizeOk a len = true) (hk : k < len) : regionOf (a + k) = some .dram := by
  have hr := dram_range h
  obtain ⟨h1, -, -, h2⟩ := size_fits hs
  have : a + k < 0xC0000000 := by rcases h2 with h | h | h | h | h | h | h <;> subst h <;> omega
  unfold regionOf
  rw [if_neg (by omega), if_neg (by omega), if_neg (by omega), if_neg (by omega), if_neg (by omega), if_pos (by omega)]

theorem wd_gen (A B : Word) (loc : Nat) (s : State) :
    fld (reg (raiseIrq .memc 0 (bumpReg .memc 0x058 (setReg .memc 0x054 B (setReg .memc 0x050 A (recErrAt .memc 0x100 loc s))))) .memc 0x018) 15 0 = 0x100 ∧
    reg (raiseIrq .memc 0 (bumpReg .memc 0x058 (setReg .memc 0x054 B (setReg .memc 0x050 A (recErrAt .memc 0x100 loc s))))) .memc 0x050 = A ∧
    reg (raiseIrq .memc 0 (bumpReg .memc 0x058 (setReg .memc 0x054 B (setReg .memc 0x050 A (recErrAt .memc 0x100 loc s))))) .memc 0x054 = B ∧
    (raiseIrq .memc 0 (bumpReg .memc 0x058 (setReg .memc 0x054 B (setReg .memc 0x050 A (recErrAt .memc 0x100 loc s))))).mem = s.mem := by
  refine ⟨?_, ?_, ?_, by simp⟩
  · simp only [raiseIrq, setRegB, bumpReg]
    rw [reg_setReg_off _ (by decide), reg_setReg_off _ (by decide), reg_setReg_off _ (by decide), reg_setReg_off _ (by decide)]
    simp only [recErrAt, raiseIrq, setRegB]
    rw [reg_setReg_off _ (by decide), reg_setReg_off _ (by decide), reg_setReg_off _ (by decide), reg_setReg_off _ (by decide), reg_setReg_self]
    have hn : satInc 255 (regF s .memc 0x018 23 16) ≤ 255 := by
      have : regF s .memc 0x018 23 16 < 256 := Nat.mod_lt _ (by decide)
      unfold satInc; split <;> omega
    generalize satInc 255 (regF s .memc 0x018 23 16) = n at hn
    have e2 : (word (n * 65536 + 0x100 % 65536)).toNat = n * 65536 + 0x100 := by simp only [word, BitVec.toNat_ofNat]; omega
    simp only [fld, nfld, e2, Nat.shiftRight_zero]; omega
  · simp only [raiseIrq, setRegB, bumpReg]
    rw [reg_setReg_off _ (by decide), reg_setReg_off _ (by decide), reg_setReg_off _ (by decide), reg_setReg_self]
  · simp only [raiseIrq, setRegB, bumpReg]
    rw [reg_setReg_off _ (by decide), reg_setReg_off _ (by decide), reg_setReg_self]

theorem best_none {s t N} : bestBelow s t N = none ↔ ∀ n < N, deliverable s t n = false := by
  induction N with
  | zero => simp [bestBelow]
  | succ N ih =>
    unfold bestBelow; dsimp only
    cases hd : deliverable s t N with
    | false =>
      rw [if_neg (by simp), ih]
      constructor
      · intro h n hn
        by_cases e : n = N
        · subst e; exact hd
        · exact h n (by omega)
      · intro h n hn; exact h n (by omega)
    | true =>
      rw [if_pos rfl]
      constructor
      · intro h
        split at h
        · simp at h
        · split at h <;> simp at h
      · intro h; rw [h N (by omega)] at hd; cases hd

theorem best_some {s t N n} (h : bestBelow s t N = some n) : n < N ∧ deliverable s t n = true ∧
    (∀ k < N, deliverable s t k = true → fld (routeOf s k) 19 16 ≤ fld (routeOf s n) 19 16) ∧
    (∀ k < n, deliverable s t k = true → fld (routeOf s k) 19 16 ≠ fld (routeOf s n) 19 16) := by
  induction N generalizing n with
  | zero => simp [bestBelow] at h
  | succ N ih =>
    unfold bestBelow at h; dsimp only at h
    cases hd : deliverable s t N with
    | false =>
      rw [hd, if_neg (by simp)] at h
      obtain ⟨h1, h2, h3, h4⟩ := ih h
      refine ⟨by omega, h2, ?_, h4⟩
      intro k hk hkd
      by_cases e : k = N
      · subst e; rw [hd] at hkd; cases hkd
      · exact h3 k (by omega) hkd
    | true =>
      rw [hd, if_pos rfl] at h
      cases hb : bestBelow s t N with
      | none =>
        rw [hb] at h; dsimp only at h
        injection h with h; subst h
        have hn := best_none.mp hb
        refine ⟨by omega, hd, ?_, ?_⟩
        · intro k hk hkd
          by_cases e : k = N
          · subst e; exact Nat.le_refl _
          · rw [hn k (by omega)] at hkd; cases hkd
        · intro k hk hkd; rw [hn k hk] at hkd; cases hkd
      | some m =>
        rw [hb] at h; dsimp only at h
        obtain ⟨h1, h2, h3, h4⟩ := ih hb
        split at h
        · rename_i hlt
          injection h with h; subst h
          refine ⟨by omega, hd, ?_, ?_⟩
          · intro k hk hkd
            by_cases e : k = N
            · subst e; exact Nat.le_refl _
            · have := h3 k (by omega) hkd; omega
          · intro k hk hkd
            have := h3 k hk hkd; omega
        · rename_i hge
          injection h with h; subst h
          refine ⟨by omega, h2, ?_, h4⟩
          intro k hk hkd
          by_cases e : k = N
          · subst e; omega
          · exact h3 k (by omega) hkd

theorem evStream_put (k t s) : evStream (putStream k t s) k = t := by simp [evStream, putStream, spGet_spPut]

theorem evStream_regs (s t : State) (k) (h : t.evq = s.evq) : evStream t k = evStream s k := by unfold evStream; rw [h]

theorem evStream_ans (r p o i v s k) : evStream (answer r (setRegI p o i v s)) k = evStream s k := evStream_regs _ _ _ (by simp [answer])

theorem resp_ans (r s) : (answer r s).resp = r := rfl

theorem esPop_eq {s : State} {ini : Ini} {k : Fin 8} (h : readOpen s ini .evq = true) (h1 : bit (esCfg s k.val) 31 = true) (h2 : esCount (evStream s k.val) ≠ 0) :
    exec (.esPop ini k) s = .next (answer (.data (word (spGet (fun _ => 0) (evStream s k.val).items ((evStream s k.val).r % 4096) % 2 ^ 32)))
      (setRegI .evq (0x118 + 0x40 * k.val) ini.id (word (spGet (fun _ => 0) (evStream s k.val).items ((evStream s k.val).r % 4096) / 2 ^ 32))
        (putStream k.val { evStream s k.val with r := ((evStream s k.val).r + 1) % 8192 } s))) := by
  refine admrNext' h ?_ (by simp [putStream, answer]) (by simp [putStream, answer])
  unfold esPop; dsimp only
  rw [if_neg]
  rw [h1]; simpa using h2

theorem esLevel_evq (k b s) : (esLevel k b s).evq = s.evq := by unfold esLevel; dsimp only; split <;> simp [setRegB]

theorem esLevel_resetting (k b s) : (esLevel k b s).resetting = s.resetting := by unfold esLevel; dsimp only; split <;> simp [setRegB]

theorem esLevel_regI {k} (hk : k < 8) (b s i off) : regI (esLevel k b s) .evq off i = regI s .evq off i := by
  unfold esLevel; dsimp only; split
  · exact regI_setReg _ _ (by omega) _ _ _
  · rfl

theorem esLevel_cfg {k} (b s) : esCfg (esLevel k b s) k = esCfg s k := by
  unfold esLevel; dsimp only; split
  · exact reg_setReg_off _ (by omega) _ _
  · rfl

theorem esStore_facts {k} (hk : k < 8) (item : Nat) (s : State) :
    (evStream (esStore k item s) k).w = ((evStream s k).w + 1) % 8192 ∧ (evStream (esStore k item s) k).r = (evStream s k).r ∧
    (evStream (esStore k item s) k).items = spPut (fun _ => 0) ((evStream s k).w % 4096) item (evStream s k).items ∧
    (∀ i off, regI (esStore k item s) .evq off i = regI s .evq off i) ∧ esCfg (esStore k item s) k = esCfg s k ∧ (esStore k item s).resetting = s.resetting := by
  unfold esStore; dsimp only
  generalize hl : (decide ((evStream s k).pushed = 4096) && (evStream s k).mark == some (((evStream s k).w + 4096) % 8192)) = l
  cases l with
  | false =>
    rw [if_neg (by decide)]
    rw [evStream_put]
    exact ⟨rfl, rfl, rfl, fun _ _ => rfl, rfl, rfl⟩
  | true =>
    rw [if_pos rfl]
    have e : ∀ x : State, (raiseIrq .evq k (setRegB .evq (0x12C + 0x40 * k) 0 true x)).evq = x.evq := fun x => by simp [raiseIrq, setRegB]
    rw [evStream_regs _ _ _ (e _), evStream_put]
    refine ⟨rfl, rfl, rfl, fun i off => ?_, ?_, ?_⟩
    · simp only [raiseIrq, setRegB]
      rw [regI_setReg _ _ (by decide), regI_setReg _ _ (by omega)]; rfl
    · unfold esCfg; simp only [raiseIrq, setRegB]
      rw [reg_setReg_off _ (by omega), reg_setReg_off _ (by omega)]; rfl
    · simp [raiseIrq, setRegB, putStream]

theorem push_facts {k} (hk : k < 8) (item b : Nat) (s : State) :
    (settle s (esLevel k b (esStore k item (answer .ok s)))).resetting = s.resetting ∧
    esCfg (settle s (esLevel k b (esStore k item (answer .ok s)))) k = esCfg s k ∧
    (∀ i off, regI (settle s (esLevel k b (esStore k item (answer .ok s)))) .evq off i = regI s .evq off i) ∧
    evStream (settle s (esLevel k b (esStore k item (answer .ok s)))) k = evStream (esStore k item (answer .ok s)) k := by
  have hf := esStore_facts hk item (answer .ok s)
  refine ⟨?_, ?_, fun i off => ?_, ?_⟩
  · exact (esLevel_resetting ..).trans hf.2.2.2.2.2
  · exact (esLevel_cfg ..).trans hf.2.2.2.2.1
  · exact (esLevel_regI hk ..).trans (hf.2.2.2.1 i off)
  · exact evStream_regs _ _ _ (esLevel_evq ..)

theorem busLoad_mem {s : State} {ini a len r} (h : regionOf a = some r) (h1 : r = .sram ∨ r = .mram ∨ r = .dram) (h2 : sizeOk a len = true) :
    busLoad ini a len s = answer (.bytes (bytesAt s a len)) (used s) := by
  unfold busLoad
  rw [h]
  rw [if_neg (by rcases h1 with h1 | h1 | h1 <;> subst h1 <;> decide), if_neg (by simp), if_neg (by rw [h2]; decide)]
  unfold memLoad
  rw [h]
  rcases h1 with h1 | h1 | h1 <;> subst h1 <;> dsimp only <;> rw [if_neg (by rintro ⟨e | e, -⟩ <;> cases e)]

theorem takePad_length (n : Nat) (l : List Byte) : (takePad n l).length = n := by unfold takePad; simp

theorem evrBody_length (s r q) : (evrBody s r q).length = 60 := by
  simp only [evrBody, List.length_append, leBytes_length, takePad_length]

theorem crc32Bit_lt {c : Nat} (h : c < 2 ^ 32) : crc32Bit c < 2 ^ 32 := by
  unfold crc32Bit; split
  · exact Nat.xor_lt_two_pow (by omega) (by decide)
  · omega

theorem times_lt {f : Nat → Nat} (hf : ∀ c, c < 2 ^ 32 → f c < 2 ^ 32) (n c : Nat) (h : c < 2 ^ 32) : times f n c < 2 ^ 32 := by
  induction n generalizing c with
  | zero => exact h
  | succ n ih => exact ih _ (hf c h)

theorem crc32Run_lt (bs : List Byte) (c : Nat) (h : c < 2 ^ 32) : crc32Run bs c < 2 ^ 32 := by
  induction bs generalizing c with
  | nil => exact h
  | cons b bs ih =>
    exact ih _ (times_lt (fun _ => crc32Bit_lt) 8 _ (Nat.xor_lt_two_pow h (by have := b.isLt; omega)))

theorem crc32_lt (bs : List Byte) : crc32 bs < 2 ^ 32 := Nat.xor_lt_two_pow (crc32Run_lt bs _ (by decide)) (by decide)

theorem memRead_write (bs : List Byte) (a : Nat) (s : State) : memRead (memWrite a bs s) a bs.length = bs := by
  induction bs generalizing a s with
  | nil => rfl
  | cons x bs ih =>
    show memByte (memWrite (a + 1) bs (memPut a x s)) a :: memRead (memWrite (a + 1) bs (memPut a x s)) (a + 1) bs.length = _
    rw [ih, memByte_memWrite_other _ _ _ _ (by omega), memByte_memPut, if_pos rfl]

theorem memRead_mem {s t : State} (h : t.mem = s.mem) (a n : Nat) : memRead t a n = memRead s a n := by
  induction n generalizing a with
  | zero => rfl
  | succ n ih => simp only [memRead, ih, memByte, h]

theorem evrPop_mem (s : State) : (evrPop s).mem = s.mem ∧ (evrPop s).evr.n = s.evr.n := by unfold evrPop; split <;> exact ⟨rfl, rfl⟩

theorem evrPut_facts (r : EvrRec) (s : State) :
    (evrPut r s).mem = (memWrite (evrBase + 64 * evrSlot ((s.evr.n + 1) % 2 ^ 32 - s.evr.c)) (evrBytes s r ((s.evr.n + 1) % 2 ^ 32)) s).mem ∧
    (evrPut r s).evr.n = (s.evr.n + 1) % 2 ^ 32 := by
  unfold evrPut; dsimp only
  split
  · exact ⟨rfl, rfl⟩
  · constructor <;> simp only [setRegI_mem, setRegI_evr]

theorem op_esLevel (k b s) (hk : k < 8) : OnlyPage .evq s (esLevel k b s) := by
  unfold esLevel; dsimp only; split
  · exact onlyPage_setRegB .evq (by omega) _ _ _
  · exact .refl _ _

theorem op_putStream (k t s) : OnlyPage .evq s (putStream k t s) := .of_eq rfl rfl rfl rfl

theorem op_esStore (k x s) (hk : k < 8) : OnlyPage .evq s (esStore k x s) := by
  unfold esStore; dsimp only; split
  · exact ((op_putStream k _ s).trans (onlyPage_setRegB .evq (by omega) _ _ _)).trans (onlyPage_raiseIrq _ _ _)
  · exact op_putStream k _ s

theorem op_esPush (k x s) (hk : k < 8) : OnlyPage .evq s (esPush k x s).2 := by
  unfold esPush; dsimp only
  split
  · exact .refl _ _
  · split
    · exact onlyPage_recErr _ _ _
    · split
      · exact (op_esStore k x s hk).trans (op_esLevel _ _ _ hk)
      · split
        · exact onlyPage_bumpRegF .evq (by omega) _ _ _
        · exact ((op_esStore k x s hk).trans (op_putStream k _ _)).trans (onlyPage_bumpRegF .evq (by omega) _ _ _)

theorem op_esPop (i k s) (hk : k < 8) : OnlyPage .evq s (esPop i k s) := by
  unfold esPop; dsimp only
  split
  · exact (onlyPage_setRegI .evq (by omega) _ _ _).trans (onlyPage_answer _ _ _)
  · exact ((op_putStream k _ s).trans (onlyPage_setRegI .evq (by omega) _ _ _)).trans (onlyPage_answer _ _ _)

theorem op_esMark (k s) : OnlyPage .evq s (esMark k s) := by
  unfold esMark; split
  · exact onlyPage_recErr _ _ _
  · exact op_putStream _ _ _

theorem op_esRewind (k s) (hk : k < 8) : OnlyPage .evq s (esRewind k s) := by
  unfold esRewind; dsimp only; split
  · exact onlyPage_recErr _ _ _
  · split
    · exact ((onlyPage_recErr _ _ _).trans (op_putStream _ _ _)).trans (op_esLevel _ _ _ hk)
    · split
      · exact onlyPage_recErr _ _ _
      · exact (op_putStream _ _ _).trans (op_esLevel _ _ _ hk)

theorem op_esCmd (k v s) (hk : k < 8) : OnlyPage .evq s (esCmd k v s) := by
  unfold esCmd; dsimp only
  have h1 : OnlyPage .evq s (if bit v 0 then esMark k s else s) := by split; exact op_esMark _ _; exact .refl _ _
  have h2 : ∀ u, OnlyPage .evq u (if bit v 1 then esRewind k u else u) := by intro u; split; exact op_esRewind _ _ hk; exact .refl _ _
  split
  · exact (h1.trans (h2 _)).trans (op_putStream _ _ _)
  · exact h1.trans (h2 _)

theorem op_esCfg (i k v s) (hk : k < 8) : OnlyPage .evq s (esCfgWrite i k v s) := by
  unfold esCfgWrite; dsimp only; split
  · exact (onlyPage_plainWrite _ _ (by omega) _ _).trans (op_putStream _ _ _)
  · exact onlyPage_plainWrite _ _ (by omega) _ _

theorem op_nandCmd (i k s) : OnlyPage .memc s (nandCmd i k s) := by
  unfold nandCmd; dsimp only
  split
  · exact onlyPage_recErr _ _ _
  · split
    · exact .refl _ _
    · split
      · exact onlyPage_recErr _ _ _
      · split
        · exact onlyPage_recErr _ _ _
        · refine OnlyPage.setRegI ?_ (by decide) _ _
          exact .of_eq rfl rfl rfl rfl

theorem op_nand (i v s) : OnlyPage .memc s (nandCmdWrite i v s) := onlyPage_keyed (onlyPage_workRequest (op_nandCmd _ _ _))

theorem op_contArm (v s) : OnlyPage .cont s (contArm v s) := by
  refine onlyPage_keyed ?_
  split
  · exact (onlyPage_recErr _ _ _).trans (onlyPage_answer _ _ _)
  · split
    · exact .of_eq rfl rfl rfl rfl
    · exact onlyPage_recErr _ _ _

theorem op_contStart (b c s) (hc : c < 8) : OnlyPage .cont s (contStart b c s) := by
  unfold contStart; dsimp only
  refine OnlyPage.send ?_ _
  split
  · exact OnlyPage.bumpRegF (.of_eq rfl rfl rfl rfl) (by omega) _ _
  · exact OnlyPage.bumpRegF (.of_eq rfl rfl rfl rfl) (by omega) _ _

theorem fldLt3 (v : Word) : fld v 2 0 < 8 := Nat.mod_lt _ (by decide)

theorem op_contFire (v s) : OnlyPage .cont s (contFire v s) := by
  refine onlyPage_keyed ?_
  split
  · exact (onlyPage_recErr _ _ _).trans (onlyPage_answer _ _ _)
  · split
    · split
      · exact op_contStart _ _ _ (fldLt3 v)
      · refine OnlyPage.recErr ?_ _; exact .of_eq rfl rfl rfl rfl
    · refine OnlyPage.recErr ?_ _; exact .of_eq rfl rfl rfl rfl

theorem op_clearErr (p s) : OnlyPage p s (clearErr p s) :=
  ((onlyPage_setReg p (by decide) _ s).trans (onlyPage_setReg p (by decide) _ _)).trans ((onlyPage_setRegB p (by decide) 3 false _).trans (onlyPage_setRegB p (by decide) 31 false _))

theorem op_irqStat (p v s) : OnlyPage p s (irqStatWrite p v s) := by
  unfold irqStatWrite
  have h := onlyPage_setReg p (off := 0x014) (by decide) (reg s p 0x014 &&& ~~~v) s
  generalize setReg p 0x014 (reg s p 0x014 &&& ~~~v) s = x at h ⊢
  dsimp only
  refine OnlyPage.trans ?_ (onlyPage_cancelKey _ _)
  split
  · exact h.trans (op_clearErr p x)
  · exact h

theorem op_lock (i p v s) : OnlyPage p s (lockWrite i p v s) := by
  unfold lockWrite; dsimp only; split
  · have h : OnlyPage p s (if keyHolder s p = 0 ∨ keyHolder s p = i.id.val + 1 then s else recErr p errBadKey s) := by
      split
      · exact .refl _ _
      · exact onlyPage_recErr _ _ _
    exact h.trans (OnlyPage.of_eq (t := armKey p (i.id.val + 1) _) rfl rfl rfl rfl)
  · split
    · exact (OnlyPage.of_eq (t := armKey p 0 s) rfl rfl rfl rfl).trans (onlyPage_setReg p (by decide) _ _)
    · exact (onlyPage_cancelKey _ _).trans (onlyPage_recErr _ _ _)

theorem op_irqClaim (t s) : OnlyPage .irqr s (irqClaim t s) := by
  unfold irqClaim; split <;> exact .of_eq rfl rfl rfl rfl

theorem op_irqDone (t v s) : OnlyPage .irqr s (irqDone t v s) := by
  unfold irqDone; split
  · exact .of_eq rfl rfl rfl rfl
  · exact .refl _ _

theorem op_rawTx (q v s) (hq : q < 2) : OnlyPage .ser485 s (rawTx q v s) := by
  unfold rawTx; dsimp only
  split
  · exact onlyPage_recErr _ _ _
  · split
    · exact .refl _ _
    · split
      · exact .of_eq rfl rfl rfl rfl
      · exact onlyPage_bumpRegF .ser485 (by omega) _ _ _

theorem op_rawRx (q b s) (hq : q < 2) : OnlyPage .ser485 s (rawRx q b s) := by
  unfold rawRx; dsimp only
  split
  · split
    · exact .of_eq rfl rfl rfl rfl
    · exact OnlyPage.bumpRegF (.of_eq rfl rfl rfl rfl) (by omega) _ _
  · exact .refl _ _

theorem op_rawRxPop (q s) : OnlyPage .ser485 s (rawRxPop q s) := by
  unfold rawRxPop; dsimp only; split <;> exact .of_eq rfl rfl rfl rfl

theorem op_gp (f : Word → Word) (s) : OnlyPage .gpio s (gpOutWrite f s) := by
  unfold gpOutWrite; dsimp only; exact onlyPage_setReg .gpio (by decide) _ _

theorem op_coreRel (v s) : OnlyPage .sys s (coreRel v s) := by
  unfold coreRel; dsimp only; exact OnlyPage.setReg (onlyPage_setReg .sys (by decide) _ _) (by decide) _

theorem op_setChStat (c n s) (hc : c < 16) : OnlyPage .dma s (setChStat c n s) := by
  unfold setChStat setRegB
  exact OnlyPage.setReg (onlyPage_setReg .dma (by unfold chOff; omega) _ _) (by decide) _

theorem op_chGo (c v s) (hc : c < 16) : OnlyPage .dma s (chGo c v s) := by
  unfold chGo; split
  · exact .refl _ _
  · refine onlyPage_workRequest ?_
    split
    · exact onlyPage_recErr _ _ _
    · split
      · exact onlyPage_recErr _ _ _
      · exact (onlyPage_setReg .dma (by unfold chOff; omega) _ _).trans (op_setChStat _ _ _ hc)

theorem op_dmaCmd (v s) : OnlyPage .dma s (dmaCmdWrite v s) := by
  refine onlyPage_keyed ?_
  split
  · unfold dmaClearHalt; split
    · have h0 : OnlyPage .dma s { s with dmaNext := [] } := .of_eq rfl rfl rfl rfl
      refine (h0.trans (onlyPage_setRegB .dma (by decide) _ _ _)).trans (onlyPage_forEach _ (fun c hc t => ?_) _)
      exact op_setChStat _ _ _ (by simpa using hc)
    · exact .refl _ _
  · exact .refl _ _

theorem pageAt_sram {a} (h : 0x10000000 ≤ a) (h2 : a < 0x10400000) : pageAt a = none := by
  have hk : a / 0x1000 < 0x40000 := by omega
  unfold pageAt
  dsimp only
  generalize a / 0x1000 = k at hk
  rw [if_neg (by omega), if_neg (by omega)]
  split <;> first | omega | rfl

theorem region_sram {a} (h : 0x10000000 ≤ a) (h2 : a < 0x10400000) : regionOf a = some .sram := by
  unfold regionOf; rw [if_neg (by omega), if_pos ⟨h, h2⟩]

theorem fetch_sram {s : State} {c : Nat} (ecc : EccEvent) (w : Nat) (h0 : regN s .dma (chOff c 0xC) % 32 = 0) (h : 0x10000000 ≤ regN s .dma (chOff c 0xC)) (h2 : regN s .dma (chOff c 0xC) + 32 ≤ 0x10400000) :
    fetchDesc false c { st := s, ecc := ecc, word := w } = { st := answer (.bytes (bytesAt s (regN s .dma (chOff c 0xC)) 32)) (used s), data := bytesAt s (regN s .dma (chOff c 0xC)) 32, ecc := ecc, word := w } := by
  unfold fetchDesc dmaRead
  dsimp only
  generalize regN s .dma (chOff c 0xC) = a at *
  rw [dmaLoad]
  rw [if_neg (by simp)]
  dsimp only
  have ha : a % 2 ^ 32 = a := Nat.mod_eq_of_lt (by omega)
  have hp : dmaPiece a 32 = 32 := by
    unfold dmaPiece; rw [region_sram h (by omega), if_neg (by decide)]; omega
  have hl : dmaLoad1 false a 32 s = { st := answer (.bytes (bytesAt s a 32)) (used s), data := bytesAt s a 32 } := by
    unfold dmaLoad1 resetStop
    rw [pageAt_sram h (by omega)]
    dsimp only
    rw [region_sram h (by omega), if_neg (by decide)]
    unfold memLoad
    rw [region_sram h (by omega)]
    dsimp only
    rw [if_neg (by rintro ⟨e | e, -⟩ <;> cases e)]
    rfl
  have he : ∀ x : DmaRun, eccHits a 32 x = false := fun x => by
    unfold eccHits; rw [region_sram h (by omega)]; simp
  rw [ha, hp, hl]
  unfold dmaTake
  rw [he]
  rw [dmaLoad, if_pos (by simp)]
  cases ecc <;> simp

theorem bad_of {ws : List Word} (h : let m := fld (ws.getD 0 0) 31 28
    (5 < m ∨ bit (ws.getD 0 0) 24 = true ∨ fld (ws.getD 0 0) 23 0 = 0 ∨
        ((m = 1 ∨ m = 2 ∨ m = 3) ∧ (fld (ws.getD 4 0) 15 0 = 0 ∨ fld (ws.getD 4 0) 31 16 ≠ 0)) ∨
        (bit (ws.getD 0 0) 26 = false ∧ (ws.getD 3 0).toNat % 32 ≠ 0) ∨ ((m = 2 ∨ m = 3) ∧ (ws.getD 5 0).toNat % 4 ≠ 0))) : (descOf ws).bad = true := by
  unfold descOf
  dsimp only at h ⊢
  simp only [Bool.or_eq_true, Bool.and_eq_true, decide_eq_true_eq, beq_iff_eq, bne_iff_ne, Bool.not_eq_true']
  tauto

theorem chStat_self (c n s) (hc : c < 16) : reg (setChStat c n s) .dma (chOff c 8) = word n := by
  unfold setChStat setRegB
  rw [reg_setReg_off _ (by unfold chOff; omega), reg_setReg_self]

theorem chStat_other (c k n s) (h : k ≠ c) : reg (setChStat c n s) .dma (chOff k 8) = reg s .dma (chOff k 8) := by
  unfold setChStat setRegB
  rw [reg_setReg_off _ (by unfold chOff; omega), reg_setReg_off _ (by unfold chOff; omega)]

theorem recErr_off (p c s) {o : Nat} (h : o ≠ 0x014 ∧ o ≠ 0x00C ∧ o ≠ 0x008 ∧ o ≠ 0x01C ∧ o ≠ 0x018) : reg (recErr p c s) p o = reg s p o := by
  unfold recErr recErrAt raiseIrq setRegB
  dsimp only
  rw [reg_setReg_off _ (by omega), reg_setReg_off _ (by omega), reg_setReg_off _ (by omega), reg_setReg_off _ (by omega), reg_setReg_off _ (by omega)]

end Sys2Proof.Machine
end

