-- ==== Sys2Proof/Tests/Slice0.lean ====
section
/-! SUPPORT. The author's tests: small runs of one command, and a concrete state for the hypotheses of every statement. -/
namespace Sys2Proof.Tests
set_option Elab.async false
open Sys2Proof.Machine

/-- The state a command leaves. -/
def after (c : Instr) (s : State) : State := match exec c s with | .next t => t | _ => s

/-- The module with no reset episode open. -/
def up : State := { State.reset with rst := { State.reset.rst with active := false } }

/-- The module with a page enabled. -/
def on (p : Page) (s : State) : State := setReg p 0x004 1 s

/-- The module in control of its installation: it takes no part in a twin pair. -/
def solo : State := setReg .twin 0x040 0xA up

/-- Application core 0 in machine mode, the security core, and a user-mode core. -/
def app : Ini := { id := 0 }
/-- The security core. -/
def secCore : Ini := { id := 8 }
/-- Application core 0 below machine mode. -/
def appUser : Ini := { id := 0, user := true }

/-- Page GPIO, enabled, quiescing, or asleep: a state for each clause of `BlockControlCommandsComplete`. -/
theorem witness_BlockControlCommandsComplete :
    (writeOpen up app .gpio 0x004 = true ∧ locked up .gpio 31 = false ∧ enabled up .gpio = false ∧ quiescing up .gpio = false
      ∧ asleep up .gpio = false) ∧
    (let s := on .gpio up
     writeOpen s app .gpio 0x004 = true ∧ locked s .gpio 31 = false ∧ enabled s .gpio = true ∧ quiescing s .gpio = false
      ∧ asleep s .gpio = false) ∧
    (let s := setReg .gpio 0x004 5 up
     writeOpen s app .gpio 0x004 = true ∧ regB s .gpio 0x004 2 = true ∧ regB s .gpio 0x004 1 = false ∧ asleep s .gpio = false
      ∧ mayQuiesce s .gpio = true) ∧
    (let s := setReg .gpio 0x008 0x12 (setReg .gpio 0x004 3 up)
     writeOpen s app .gpio 0x004 = true ∧ regB s .gpio 0x004 1 = true ∧ regB s .gpio 0x004 2 = false ∧ asleep s .gpio = true) := by
  decide +kernel

/-- Page GPIO with the `LOCK` key free, held, a reset of the page open: a state for each clause of
`HeaderStatusCommandsComplete`. -/
theorem witness_HeaderStatusCommandsComplete :
    writeOpen up app .gpio 0x014 = true ∧ writeOpen up app .gpio 0x020 = true ∧ keyHolder up .gpio = 0 ∧
    (let s := after (.lockKey app .gpio) up
     writeOpen s app .gpio 0x020 = true ∧ keyHolder s .gpio = app.id.val + 1) ∧
    writeOpen up app .gpio 0x024 = true ∧ up.rst.active = false ∧ refusesReset .gpio = false ∧ refusesReset .memc = true ∧
    writeOpen up app .memc 0x024 = true ∧
    (let s := { up with resetting := [(pageBase .gpio, true)] }
     inReset s .gpio = true ∧ s.stalled = []) := by
  decide +kernel

/-- After reset; and with SWI0 routed to core 0 and asserted, and then claimed. -/
theorem witness_InterruptReleaseAndPinCommandsComplete :
    writeOpen up app .irqr 0x040 = true ∧ writeOpen up app .irqr 0x044 = true ∧ readOpen up app .irqr = true ∧
    bestSource up 0 = none ∧
    (let s := setReg .irqr (0x100 + 4 * 248) 0x00010001 { up with swi := 1 }
     readOpen s app .irqr = true ∧ bestSource s 0 = some 248) ∧
    (let s := { up with claims := [(248, 9)] }
     writeOpen s app .irqr (0x604 + 0x10 * 8) = true ∧ spGet (fun _ => 0) s.claims 248 = 8 + 1) ∧
    writeOpen up secCore .sys 0x040 = true ∧ writeOpen up app .gpio 0x048 = true ∧ writeOpen up app .gpio 0x04C = true ∧
    writeOpen up app .gpio 0x050 = true := by
  decide +kernel

/-- SER485 on, port 0 enabled in MODBUS mode with a read of one register of slave 1 set up; and in raw mode. -/
def mbState : State :=
  setReg .ser485 0x10C 1 (setReg .ser485 0x108 0x03010000 (setReg .ser485 0x100 0xC0000000 (on .ser485 solo)))
/-- Port 0 in raw mode. -/
def rawState : State := setReg .ser485 0x100 0x80000000 (on .ser485 solo)

theorem witness_SerialPortCommandsComplete :
    (let s := mbState
     workOpen s app .ser485 0x110 = true ∧ mbBusy s 0 = false ∧ spModbus s 0 = true ∧ spEn s 0 = true ∧ inControl s = true ∧
      mbValid 3 1 1 = true) ∧
    (let x : MbTxn := { attempt := 0, fc := 3, slave := 1, qty := 1 }
     let y : MbTxn := { x with attempt := 1 }
     let z : MbTxn := { fc := 6, slave := 0 }
     mbMatches x [1, 3, 2, 0x12, 0x34] = true ∧
     (serPort (putSer 0 { txn := some x } mbState) 0).txn = some x ∧ x.slave ≠ 0 ∧ x.attempt = 0 ∧
     inControl (putSer 0 { txn := some x } mbState) = true ∧
     (serPort (putSer 0 { txn := some y } mbState) 0).txn = some y ∧ y.attempt ≠ 0 ∧
     (serPort (putSer 0 { txn := some z } mbState) 0).txn = some z ∧ z.slave = 0) ∧
    (let s := rawState
     workOpen s app .ser485 0x120 = true ∧ spModbus s 0 = false ∧ spEn s 0 = true ∧ inControl s = true ∧
      working s .ser485 = true ∧ readOpen s app .ser485 = true ∧ (serPort s 0).rx = [] ∧
      (serPort (putSer 0 { rx := [7#8], rxSince := true } s) 0).rx = [7#8] ∧
      (serPort (putSer 0 { rx := [7#8], rxSince := true } s) 0).rxSince = true) := by
  decide +kernel

/-- USBD on and connected, with endpoint buffers in SRAM; endpoint 3 armed. -/
def usbState : State :=
  setReg .usbd 0x0B4 4 (setReg .usbd 0x0B0 0x10000000 (setReg .usbd 0x040 1 (on .usbd up)))

theorem witness_UsbEndpointCommandsComplete :
    (let s := usbState
     workOpen s app .usbd 0x0B8 = true ∧ epArmed s 3 = false ∧ regN s .usbd 0x0B0 % 64 = 0 ∧
      inRam (regN s .usbd 0x0B0) (regN s .usbd 0x0B4) = true ∧ regN s .usbd 0x0B4 ≤ 65536 ∧ working s .usbd = true ∧
      regB s .usbd 0x040 0 = true) ∧
    (let s := setReg .usbd 0x0BC 0x10000000 usbState
     epArmed s 3 = true ∧ spGet (fun _ => false) s.usb.stall 3 = false ∧ (3 : Fin 6).val % 2 = 1 ∧ [1#8, 2#8, 3#8, 4#8].length = regN s .usbd (0x084 + 0x10 * 3)) ∧
    (let s := setReg .usbd 0x0AC 0x10000000 usbState
     epArmed s 2 = true ∧ spGet (fun _ => false) s.usb.stall 2 = false ∧ (2 : Fin 6).val % 2 = 0) := by
  decide +kernel

theorem witness_UsbBusEventsComplete :
    (let s := setReg .usbd 0x0BC 0x10000000 usbState
     working s .usbd = true ∧ regB s .usbd 0x040 0 = true ∧ epArmed s 3 = true ∧ asleep s .usbd = false ∧
      sees s .usbd = true ∧ regB s .usbd 0x044 3 ≠ true) ∧
    sees (setReg .usbd 0x008 0x10 usbState) .usbd = false := by
  decide +kernel

theorem witness_TimeBaseCommandsComplete :
    writeOpen up app (.tb 3) 0x064 = true ∧ follow up 3 = 0 ∧
    incInRange (Int.ofNat (regF up (.tb 3) 0x060 3 0 * 2 ^ 32 + (0x20C49B : Word).toNat)) = true ∧
    incInRange (Int.ofNat (regF up (.tb 3) 0x060 3 0 * 2 ^ 32 + (0x20C49B : Word).toNat) + 0) = true ∧
    writeOpen up app (.tb 3) 0x06C = true ∧
    incInRange (Int.ofNat (tbOf up.tb 3).inc + signed 32 (regN up (.tb 3) 0x068)) = true ∧
    writeOpen up app (.tb 3) 0x080 = true ∧ readOpen up app (.tb 3) = true ∧ enabled up (.tb 3) = true ∧
    enabled (setReg (.tb 3) 0x004 0 up) (.tb 3) = false := by
  decide +kernel

theorem witness_StepMovesOneTimeBaseOnce :
    writeOpen up app (.tb 1) 0x070 = true ∧ (tbOf up.tb 1).stepAvail = true ∧
    tbNs (tbOf up.tb 1) ≤ (stepTarget up 1 false).1 * 1000000000 + (stepTarget up 1 false).2 ∧
    tbNs (tbOf up.tb 1) ≤ (stepTarget up 1 true).1 * 1000000000 + (stepTarget up 1 true).2 := by
  decide +kernel

/-- Unit 0 armed for PPS_OUT on TB0 at 0 s 0 ns. -/
def trgState : State := setReg .ttrig 0x100 0x00000101 up
/-- Unit 7 stamps rising edges of pin 0 (source 19) on TB1. -/
def capState : State := setReg .ttrig (0x400 + 7 * 0x20) 0x00001315 up

theorem witness_TriggerAndCaptureCommandsComplete :
    (writeOpen up app .ttrig (0x100 + 0x20 * 15) = true ∧ locked up .ttrig 15 = false ∧ trgReserved (fld 0x00000101 15 8) = false ∧
      bit 0x00000101 0 = true ∧ trgEn up 15 = false ∧ trgTime (tbOf up.tb 0) ≤ trgInstant up 15 0) ∧
    (trgRuns trgState = true ∧ trgDue trgState 0 = true ∧ (trgOf trgState 0).crossed = false ∧ trgCollides trgState 0 = false ∧
      reg trgState .ttrig 0x110 = 0) ∧
    (enabled capState .ttrig = true ∧ inReset capState .ttrig = false ∧ capSelects capState 7 19 true = true ∧
      (capOf capState 7).stamps.length < 4) ∧
    (readOpen up app .ttrig = true ∧ (capOf up 0).stamps = [] ∧
      (capOf (putCap 0 { stamps := [(1, 2)] } up) 0).stamps = [(1, 2)] ∧ readOpen (putCap 0 { stamps := [(1, 2)] } up) app .ttrig = true) := by
  decide +kernel

theorem witness_PointBaseAndRestoreCommandsComplete :
    (writeOpen up app .ptab 0x040 = true ∧ enabled up .ptab = false ∧ locked up .ptab 0 = false ∧
      0x80000000 ≤ (0xBFD00000 : Word).toNat / 4096 * 4096) ∧
    (writeOpen up app .ptab 0x054 = true ∧ restoring up = false) ∧ restoring (setReg .ptab 0x048 1 up) = true := by
  decide +kernel

theorem witness_PointCacheCommandsComplete :
    (writeOpen up app .ptab 0x054 = true ∧ restoring up = false ∧ ptPinned up 12287 = false ∧ ptPinsInSet up 12287 < 4) ∧
    regB (setReg .ptab 0x048 4 up) .ptab 0x048 2 = true ∧ regB (setReg .ptab 0x048 8 up) .ptab 0x048 3 = true ∧
    (let s := { up with ptab := { up.ptab with ckptQ := [(5, [])] } }
     s.ptab.ckptQ = [(5, [])] ∧ s.ptab.wait = []) := by
  decide +kernel

/-- PTAB enabled, entry 7 cached and empty. -/
def ptState : State := putLine 7 (some { words := List.replicate 64 0 }) (on .ptab solo)

theorem witness_PointPortCommandsComplete :
    (let s := setRegI .ptab 0x060 0 7 ptState
     let c := wpMerged s 0 7
     writeOpen s app .ptab 0x068 = true ∧ restoring s = false ∧ bit (regI s .ptab 0x06C 0) 0 = false ∧ regB s .pwr 0x044 31 = false ∧
      (regI s .ptab 0x060 0).toNat = 7 ∧ cfgValid c = true ∧ (cfgEn (ptHalf s 7) && cfgIdentityDiffers (ptHalf s 7) c) = false ∧
      s.ptab.ckptQ.length < 16) ∧
    (writeOpen ptState app .ptab 0x058 = true ∧ restoring ptState = false ∧ fld 0x00002FFF 13 0 < 12288) ∧
    writeOpen ptState app .ptab 0x070 = true ∧
    (ptReady ptState = true ∧ (ptLine ptState 7).isSome = true ∧ ptMayWrite ptState .diag 7 45 = true) := by
  decide +kernel

theorem witness_LinePortCommandsComplete :
    (writeOpen up app (.line 63) 0x040 = true ∧ writeTaken (.line 63) 0x040 0x00042110 up = true) ∧
    (let s := { up with line := [(63, { port := { lbd := true } })] }
     (lineOf s 63).port.lbd = true ∧ elBit s 63 2 = false ∧ (lineOf s 63).port.retry = false ∧ driving s 63 = false) ∧
    (let s := { setReg (.line 63) 0x040 0x00042110 up with line := [(63, { port := { lbd := true } })] }
     portMode s 63 ≠ 0 ∧ driving s 63 = false ∧ (lineOf s 63).port.lbd = true ∧ (lineOf s 63).port.retry = false) ∧
    (let s := setReg (.line 0) 0x044 5 up
     drives s 0 = true ∧ contEn s 0 = true ∧ (lineOf s 0).port.retry = false ∧ (lineOf s 0).port.ocpRetry = false ∧
     (lineOf s 0).port.hot = false) ∧
    elBit (setReg (.line 0) 0x044 8 up) 0 3 = true ∧ drives up 0 = false ∧
    (let s := { up with line := [(63, { port := { hot := true } })] }
     (lineOf s 63).port.hot = true) ∧
    (let s := { up with line := [(63, { port := { ocpWait := true } })] }
     (lineOf s 63).port.ocpWait = true) ∧
    (let s := on (.line 1) (setReg (.line 1) 0x040 0x00042110 up)
     portMode s 1 ≠ 0 ∧ working s (.line 1) = true ∧ preambleBits [] ≠ preamble) ∧
    (let s := { on (.line 1) (setReg (.line 1) 0x040 0x00042110 up) with line := [(1, { back := some {} })] }
     portMode s 1 ≠ 0 ∧ working s (.line 1) = true ∧ (lineOf s 1).back.isSome = true ∧
     preambleBits [16, 48, 16, 48, 48, 16, 48, 16, 16, 16, 48, 48, 48, 48, 16, 16] = preamble) ∧
    (let s := { setReg (.line 1) 0x058 0x08000000 (setReg (.line 1) 0x040 0x00042110 up) with line := [(1, { port := { peCount := 255 } })] }
     portMode s 1 = 1 ∧ regB s (.line 1) 0x040 17 = false ∧ regB s (.line 1) 0x050 31 = false ∧ regB s (.line 1) 0x058 27 = true ∧
     regF s (.line 1) 0x058 31 28 ≤ regF s (.line 1) 0x054 11 8 ∧ (lineOf s 1).port.peStep < regF s (.line 1) 0x050 27 24 ∧
     regF s (.line 1) 0x054 31 24 ≤ (lineOf s 1).port.peCount ∧ peKept s 1 = false) := by
  decide +kernel

/-- A lantern line that can send: LINE_0 and LSEQ enabled, RUN, driving, in control. -/
def lineUp : State := setReg (.line 0) 0x080 1 (setReg (.line 0) 0x044 5 (on .lseq (on (.line 0) (on .ptab solo))))

/-- `lineUp` with an urgent command at position 0 and a frame fixed. -/
def lineWork : State :=
  { lineUp with
    line := [(0, { fixed := some {}, pos := [(0, { queue := [{ point := 5, op := 1, urgent := true }] })] })]
    dim := { lineUp.dim with revs := [(5, 0)] } }

theorem witness_SequencerCommandsComplete :
    (writeOpen lineUp app (.line 0) 0x080 = true ∧ lineRun lineUp 0 = true) ∧
    (regB lineWork (.line 0) 0x080 4 = false ∧ idleMode lineWork = false ∧ atCycleStart lineWork 0 = true ∧ lineSends lineWork 0 = true ∧
      linePixel lineWork 0 = false ∧ pairBusy lineWork 0 = false ∧ liveFix lineWork 0 = some {} ∧ urgWaiting lineWork 0 = true ∧
      ptReady lineWork = true ∧ (lineOf lineUp 0).fixed = none) ∧
    (let f : LFrame := { ret := true, ftype := 1 }
     let s := { lineUp with line := [(0, { wire := some f })] }
     (lineOf s 0).wire = some f ∧ trailOf s 0 f = 0) ∧
    workOpen (setReg (.line 0) 0x0A0 0x80000000 lineUp) app (.line 0) 0x098 = true ∧ (lineOf lineUp 0).fw = none ∧
    fld 0x10010040 31 28 = (if linePixel lineUp 0 then 5 else 1) := by
  decide +kernel

/-- `lineUp` with point 5 a lantern at position 0 of the line, a command DIM offers for it, and a revocation. -/
def lineOffer : State :=
  let c := setMem32 0x80000500 0x8001 lineUp
  { c with
    dim := { lineUp.dim with
             offers := [{ point := 5, op := 1, arg := 3 }]
             revs := [(5, 0)] } }

theorem witness_SequencerCommandsComplete_handover :
    offerAt lineOffer 0 0 = some { point := 5, op := 1, arg := 3 } ∧ cmdPlaces lineOffer 5 = some (0, [0]) ∧
    ptServed lineOffer 5 = true ∧ accepting lineOffer .lseq = true ∧ accepting lineOffer (linePage 0) = true ∧ ptReady lineOffer = true ∧ inControl lineOffer = true ∧
    roomFor lineOffer 0 (cmdOnly { point := 5, op := 1, arg := 3 } [0]) { point := 5, op := 1, arg := 3, src := 0, since := tbNs lineOffer.tb.t0 / 1000 } = true ∧
    (revsOf lineOffer false)[0]? = some (5, 0) := by
  decide +kernel

theorem witness_SequencerCommandsComplete_handover_other :
    (let s := { lineOffer with dim := { lineOffer.dim with offers := [{ point := 5, op := 4, arg := 3 }] } }
     offerAt s 0 0 = some { point := 5, op := 4, arg := 3 } ∧ cmdPlaces s 5 = some (0, [0]) ∧ ptServed s 5 = true ∧
     accepting s .lseq = true ∧ accepting s (linePage 0) = true ∧ ptReady s = true ∧ inControl s = true) ∧
    (let s := setMem32 0x80000500 0x1 lineOffer
     offerAt s 0 0 = some { point := 5, op := 1, arg := 3 } ∧ cmdPlaces s 5 = some (0, [0]) ∧ ptServed s 5 = false ∧
     accepting s .lseq = true ∧ accepting s (linePage 0) = true ∧ ptReady s = true ∧ inControl s = true) := by
  decide +kernel

/-- `lineOffer` with point 5 mapped to position 0, whose node has answered, and an urgent command for it. -/
def lineUrgent : State :=
  { setReg (.line 0) 0x100 0xFFFF0005 lineOffer with
    line := [(0, { pos := [(0, { hist := some 0, queue := [{ point := 5, op := 1, urgent := true }] })] })] }

theorem witness_SequencerCommandsComplete_urgent :
    lineSends lineUrgent 0 = true ∧ linePixel lineUrgent 0 = false ∧ pairBusy lineUrgent 0 = false ∧ urgWaiting lineUrgent 0 = true ∧
    ptReady lineUrgent = true ∧ (fixUrgent 0 (urgTop lineUrgent 0) (mapLook 0 lineUrgent)).1.isSome = true := by
  decide +kernel

/-- A pixel line of group 0 that can send, with trigger unit 0 armed for the group. -/
def pixelUp : State :=
  on .ttrig (setReg .ttrig 0x108 0x3B9ACA00 (setReg .ttrig 0x100 0x8001 (setReg .pixb 0x400 0x80010000 (setReg (.line 0) 0x088 4 (on .pixb
    (setReg (.line 0) 0x040 0x00042112 (setReg (.line 0) 0x080 3 lineUp)))))))

theorem witness_ReturnAndPixelCommandsComplete :
    (let s := { pixelUp with line := [(0, { back := some { ftype := 4 }, preOk := true, lastBuf := some (false, 7) })] }
     (lineOf s 0).back = some { ftype := 4 } ∧ (lineOf s 0).preOk = true ∧ ptReady s = true) ∧
    (let s := { lineUp with line := [(0, { back := some { ftype := 1 }, preOk := true })] }
     (lineOf s 0).back = some { ftype := 1 } ∧ (lineOf s 0).preOk = true ∧ ptReady s = true ∧ inControl s = true) ∧
    (let s := { lineUp with line := [(0, { back := some { ftype := 1 } })] }
     (lineOf s 0).back = some { ftype := 1 } ∧ (lineOf s 0).preOk = false) ∧
    (workOpen pixelUp app .pixb 0x104 = true ∧ groupLines pixelUp 0 = [0] ∧ (pixGroup pixelUp 0).wait = none ∧
      (pixGroup pixelUp 0).busyA = false ∧ pixBuf pixelUp 0 false % 64 = 0 ∧
      inDram (pixBuf pixelUp 0 false) (6 * pixCount pixelUp 0) = true) ∧
    (let s := tellDelay 0 3000 { pixelUp with line := [(0, { lastBuf := some (false, 7) })] }
     pixSends s 0 = true ∧ (lineOf s 0).lastBuf = some (false, 7) ∧
     (let i := (0, 1000000000)
      let want := retWanted s 0 i
      let fits := startFits s 0 i true
      let s1 := putLine' 0 { lineOf s 0 with periods := periodOf s 0 i, counted := some i }
        (if want then setRegB (.line 0) 0x084 8 (!fits) s else s)
      nextSwap s (swapGroup s 0) = some i ∧ knownLate s 0 i = false ∧ (lineOf s1 0).pcfgWait < 8 ∧ (choosePix 0 (swapGroup s 0) i s1).1 = some (false, 7))) ∧
    (let s := { pixelUp with line := [(0, { fw := some (4, 1024) })] }
     pixSends s 0 = true ∧ pcfgWaits s 0 = true ∧ placeFits s 0 (pcfgBits (pcfgCount s 0)) = true ∧
      (let s8 := { pixelUp with line := [(0, { fw := some (4, 1024), pcfgWait := 8 })] }
       8 ≤ (lineOf s8 0).pcfgWait ∧ pcfgWaits s8 0 = true ∧ nextSwap s8 (swapGroup s8 0) = some (0, 1000000000))) := by
  decide +kernel

/-- DIM enabled with room, in control, with point 5 a lantern of two slots: one due, one due for release. -/
def dimUp : State :=
  let s := on .dim (on .ptab solo)
  let c := setMem32 0x80000500 0xA001 s
  let d := setMem32 (reqAddr c 5 4 + 8) 0 (setMem32 (reqAddr c 5 4) 0x80800000 c)
  { d with
    dim := { d.dim with
             pts := [(5, { loop := true, newLux := true })]
             queue := [{ points := [5] }] } }

theorem witness_DimmingCommandsComplete :
    (writeOpen dimUp app .dim 0x090 = true ∧ quiescing dimUp .dim = false ∧ rqBusy dimUp app.id = false ∧ dimFull dimUp = false) ∧
    (let s := setRegI .dim 0x080 app.id 5 (setRegI .dim 0x084 app.id 0x03001000 dimUp)
     dimRefusal (setRegI .dim 0x090 app.id (word 1) (answer .ok s)) 0 1 (regI s .dim 0x080 app.id) (regI s .dim 0x084 app.id)
       (regI s .dim 0x08C app.id) = none) ∧
    (inControl dimUp = true ∧ (reqOf dimUp 5 4).valid = true ∧ (reqOf dimUp 5 4).acted = false ∧
      isDue (reqOf dimUp 5 4).act (nowMs dimUp) = true ∧ (reqOf dimUp 5 4).hasRel = true ∧
      isDue (reqOf dimUp 5 4).rel (nowMs dimUp) = true) ∧
    (serving dimUp .dim = true ∧ ptReady dimUp = true ∧ accepting dimUp .dim = true ∧ wantsLoop dimUp 5 = true ∧
      (dimPt dimUp 5).loop = true ∧ (dimPt dimUp 5).newLux = true) ∧
    writeOpen dimUp app .dim 0x0A0 = true ∧ fld 12287 13 0 < 12288 := by
  decide +kernel

theorem witness_DimmingCommandsComplete_loop :
    (let s := setMem32 0x80000510 0x40000000 (setReg .dim 0x040 3 dimUp)
     regB s .dim 0x040 1 = true ∧ wantsLoop s 5 = true ∧ trimMoves s 5 (ptHalf s 5) = true) := by
  decide +kernel

/-- SCHED and the point table enabled, in control; program 0 enabled, its step 0 of every day at 00:00:00. -/
def schedUp : State :=
  setMem32 0x10000004 0x1000 (setMem32 0x10000000 0x80FE0000 (setReg .sched 0x044 0x10000000 (setReg .sched 0x050 1
    (on .sched (on .ptab solo)))))

theorem witness_ScheduleCommandsComplete :
    (schedPosts schedUp = true ∧ progEn schedUp 0 = true ∧ (sstepOf schedUp 0 0).valid = true ∧ (sstepOf schedUp 0 0).bad = false ∧
      (sstepOf schedUp 0 0).release = false ∧ instantNear schedUp 0 0 (regF schedUp .sched 0x040 31 16) = some 0) ∧
    (working schedUp .sched = true ∧ localTime schedUp % 86400 = 0) ∧
    workOpen schedUp app .sched 0x04C = true ∧ bit (0x40 : Word) 6 = true ∧
    writeOpen schedUp app .sched 0x048 = true ∧ writeTaken .sched 0x048 3600 schedUp = true ∧
    writeOpen schedUp app .sched 0x054 = true ∧ writeOpen schedUp app .sched 0x050 = true ∧
    (1 : Word) &&& ~~~(reg schedUp .sched 0x050) = 0 ∧
    (let s := setReg .sched 0x040 1 schedUp
     writeOpen s app .sched 0x040 = true ∧ regB s .sched 0x040 0 = true ∧
     regB (plainWrite app .sched 0x040 (setBit 1 0 false) (answer .ok s)) .sched 0x040 0 = false) ∧
    (let s := setMem32 0x10000008 0x10000 schedUp
     (sstepOf s 0 0).release = true ∧ instantNear s 0 0 0 = some 0) := by
  decide +kernel

theorem witness_DetectorCommandsComplete :
    (let s := { up with detIn := [(15, { fifo := [(7, 8, true)] })] }
     readOpen s app .det = true ∧ (detInput s 15).fifo = [(7, 8, true)]) ∧
    (readOpen up app .det = true ∧ (detInput up 15).fifo = []) ∧
    (let s := setMem32 0x10003FE4 5 (setMem32 0x10003FE0 0xB4000000 (setReg .det 0x040 0x10000000
       (setReg .mir 0x804 9 (setReg .mir 0x800 0xB0000000 up))))
     writeOpen s app .det 0x044 = true ∧ bit (511 : Word) 9 = false ∧ fld 511 8 0 = 511 ∧
     (let ws := memWords s (regN s .det 0x040 + 32 * 511) 8
      bit (wordAt ws 0) 31 = true ∧ defGood s ws = true)) ∧
    (let s := setMem32 0x10003FE4 5 (setMem32 0x10003FE0 0x80000000 (setReg .det 0x040 0x10000000 up))
     let ws := memWords s (regN s .det 0x040 + 32 * 511) 8
     bit (wordAt ws 0) 31 = true ∧ defGood s ws = false) ∧
    (let s := setReg .det 0x040 0x10000000 up
     bit (wordAt (memWords s (regN s .det 0x040 + 32 * 0) 8) 0) 31 = false) := by
  decide +kernel

/-- MIR enabled and ACTIVE, with a tentative track in context 255 that is 1 s old, an exited one, a live one, and an event. -/
def mirUp : State :=
  let s := setReg .mir 0x040 0x0FA00101 (on .mir (on .det solo))
  { s with
    tb := { s.tb with t0 := { s.tb.t0 with sec := 2 } }
    mir := { s.mir with
             tracks := [(0, { st := 2 }), (1, { st := 3 }), (255, { st := 1, tent := true })]
             queue := [{ strip := 3, pos := 0, dir := 1, ms := 0, us := 0, speed := 1, assumed := true, birthConf := false, noBirth := false }] } }

theorem witness_TrackCommandsComplete :
    (working mirUp .mir = true ∧ mirMode mirUp ≠ 0 ∧
      (mirUp.mir.queue.find? (fun e => !mirUp.mir.rebuild.contains e.strip)).isSome = true ∧ nowMs mirUp % 10 = 0) ∧
    (let u := mirDrain mirUp
     working u .mir = true ∧ (trackOf u 255).st = 1 ∧ (trackOf u 255).tent = true ∧
      (stripConf u (trackOf u 255).strip : Int) ≤ actDiff (nowMs u) (trackOf u 255).birth) ∧
    ((trackOf mirUp 1).st = 3 ∧ (trackOf mirUp 1).tent = false ∧ (trackOf mirUp 1).lastRel = none) ∧
    (writeOpen mirUp app .mir 0x088 = true ∧ fld 0xC4000000 31 24 = 0xC4 ∧ trackLive (trackOf mirUp (fld 0xC4000000 7 0)) = true) ∧
    (let s := { mirUp with det := { defs := [(0, [0xB4000000])] } }
     workOpen s app .mir 0x09C = true ∧ defOf s (regI s .mir 0x090 app.id).toNat ≠ [] ∧
     defKind (defOf s (regI s .mir 0x090 app.id).toNat) = 3) ∧
    writeOpen mirUp app .mir 0x080 = true ∧ mirOn mirUp = true ∧ quiescing mirUp .mir = false ∧ inReset mirUp .mir = false := by
  decide +kernel

theorem witness_StripAndModeCommandsComplete :
    (let s := setReg .mir 0x810 0x00640000 (setReg .mir 0x80C 0x01900A05 (setReg .mir 0x804 0x010003E8 mirUp))
     writeOpen s app .mir 0x800 = true ∧ stripEn s 0 = false ∧ stripGood s 0 (setBit 0x30000000 31 true) = true ∧
     stripEn (plainWrite app .mir 0x800 (setBit 0x30000000 31 true) (answer .ok s)) 0 = true) ∧
    (let s := setReg .mir 0x800 0xB0000000 mirUp
     writeOpen s app .mir 0x800 = true ∧ stripEn s 0 = true ∧
     stripEn (plainWrite app .mir 0x800 (setBit 0x30000000 31 false) (answer .ok s)) 0 = false) ∧
    (let s := on .ptab { mirUp with mir := { mirUp.mir with rebuild := [63] } }
     63 ∈ s.mir.rebuild ∧ ptReady s = true ∧ inReset s .mir = false ∧ stripEn s 63 = false) ∧
    writeOpen mirUp app .mir 0x040 = true ∧ mirMode mirUp ≠ 2 ∧ mirMode (setReg .mir 0x040 0x0FA00102 mirUp) = 2 := by
  decide +kernel

/-- DIAG ACTIVE with observations and reports waiting; point 5 a lit lantern whose proof is due, point 6 a radio lantern. -/
def diagUp : State :=
  let s := setReg .diag 0x040 0x8271 (on .diag (on .ptab solo))
  let c := setMem32 0x80000600 0xC002 (setMem32 0x80000604 0x80000000 (setMem32 0x80000580 0x1000 (setMem32 0x80000590 0x80
    (setMem32 0x80000500 0xC001 s))))
  { c with
    tb := { c.tb with t0 := { c.tb.t0 with sec := 1000 } }
    diag := { c.diag with
              obs := [{ point := 5, status := 0, data := 0 }]
              reps := [.silent 3] } }

theorem witness_DiagnosisCommandsComplete :
    (accepting diagUp .diag = true ∧ ptReady diagUp = true ∧ diagMode diagUp = 1 ∧ diagUp.diag.obs.length = 1 ∧
      diagUp.diag.reps.length = 1) ∧
    (proofDue diagUp 5 = true ∧ cfgRadio (ptHalf diagUp 5) = false ∧
      proofsOn diagUp (cfgLine (ptHalf diagUp 5)) < regF diagUp .diag 0x040 15 12 ∧
      ((List.range 5).all fun j => !proofDue diagUp j) = true) ∧
    (let s := setMem32 0x80000680 0x1000 (setMem32 0x80000690 0x80 diagUp)
     proofDue s 6 = true ∧ cfgRadio (ptHalf s 6) = true) ∧
    (let u := ptUse (fld 5 13 0) (answer .ok diagUp)
     writeOpen diagUp app .diag 0x060 = true ∧ diagMode u = 1 ∧ enabled u .diag = true ∧ diagServes u (fld 5 13 0) = true ∧
      isLantern (ptHalf u (fld 5 13 0)) = true ∧ curLevel u (fld 5 13 0) ≠ 0) ∧
    (writeOpen diagUp app .diag 0x064 = true ∧ fld 0xD1FF0005 31 24 = 0xD1 ∧ fld 0xD1FF0005 13 0 < 12288) ∧
    (working diagUp .diag = true ∧ diagServes diagUp 6 = true ∧ cfgKind (ptHalf diagUp 6) = kindRadio ∧
      (diagPt diagUp 6).heard = false) ∧
    (diagPt { diagUp with diag := { pts := [(6, { heard := true })] } } 6).heard = true ∧
    writeOpen diagUp app .diag 0x040 = true := by
  decide +kernel

/-- MET running, with a power sample, a window, a window view and a snapshot that wait. -/
def metUp : State :=
  let s := on .met up
  { s with
    met := { s.met with
             ended := [(23, 5)]
             closed := [{}]
             pend := some []
             latches := [{ src := 1, at' := 0, words := [], wrap := false, rev := false }] } }

theorem witness_MetrologyCommandsComplete :
    (metRuns metUp = true ∧ metUp.met.ended = [(23, 5)] ∧ metUp.met.closed = [{}] ∧ metUp.met.pend = some [] ∧
      quiescing metUp .met = false ∧ metUp.met.latches.length = 1) ∧
    (workOpen metUp app .met 0x050 = true ∧ writeOpen metUp secCore .met 0x054 = true) ∧
    (pageAt 0x400B0100 = some .met ∧ (calOffsets .met).contains (0x400B0100 % 0x1000) = true ∧
      writeOpen metUp app .met (0x400B0100 % 0x1000) = true ∧ writeTaken .met (0x400B0100 % 0x1000) 7 metUp = true ∧
      locked metUp .met 0 = false) ∧
    (writeOpen metUp app .met 0x220 = true ∧ fld 0xB7000003 31 24 = 0xB7 ∧ bit 0xB7000003 1 = true) ∧
    (let s := setReg .gpio 0x040 0x8000 (setReg .gpio 0x060 0x80000000 (setReg .met 0x068 0x800F03E8 { up with met := { testAcc := 2 ^ 60 } }))
     regB s .met 0x068 31 = true ∧ regF s .met 0x068 15 0 ≠ 0 ∧ 1000000 * 2 ^ 40 ≤ s.met.testAcc * regF s .met 0x068 15 0 ∧
     testPin s (regF s .met 0x068 19 16) = true ∧ pinDrives s (regF s .met 0x068 19 16) = true) := by
  decide +kernel

/-- ATTR ACTIVE with MET's windows on its triggers, rounds in every state, and time 200 s. -/
def attrUp : State :=
  let s := setReg .attr 0x048 0xFFFFFF (setReg .attr 0x040 0x02580C01 (setReg .met 0x048 1 (setReg .ttrig 0x10C 200000000
    (setReg .ttrig 0x100 0x2001 (on .ttrig (on .met (on .dim (on .attr (on .ptab solo)))))))))
  { s with
    tb := { s.tb with t0 := { s.tb.t0 with sec := 200 } }
    attr := { s.attr with rounds := [(1, { state := 1, s := 100 }), (2, { state := 2, s := 10, next := 63 }), (3, { state := 3, s := 8 })] } }

theorem witness_AttributionCommandsComplete :
    (attrMode attrUp = 1 ∧ accepting attrUp .attr = true ∧ regB attrUp .attr 0x048 23 = true ∧ (attrRound attrUp 23).state = 0 ∧
      ptReady attrUp = true ∧ attrWinOk attrUp = true) ∧
    ((attrRound attrUp 1).state = 1 ∧ (attrRound attrUp 1).s * 1000000000 ≤ tbNs attrUp.tb.t0) ∧
    (attrRunning (attrRound attrUp 2) = true ∧ (attrRound attrUp 2).next ≤ 63 ∧ accepting attrUp .dim = true ∧
      ((attrRound attrUp 2).s + 2 * (attrRound attrUp 2).next) * 1000000000 ≤
        tbNs attrUp.tb.t0 + (attrRound attrUp 2).lead * 1000000 ∧
      ((attrRound attrUp 2).s + 126) * 1000000000 ≤ tbNs attrUp.tb.t0 ∧ (attrRound attrUp 2).state = 2 ∧
      (0 : Nat) ≤ regF attrUp .attr 0x040 15 8) ∧
    (attrRound attrUp 3).state = 3 ∧
    (writeOpen attrUp app .attr 0x058 = true ∧ fld 0xA7000002 31 24 = 0xA7 ∧ fld 0xA7000002 4 0 = 2) ∧
    writeOpen attrUp app .attr 0x040 = true := by
  decide +kernel

/-- Point 5 is eligible on circuit 0. -/
def attrPt : State :=
  setReg .met 0x080 0xC0901483 (setMem32 0x80000530 0x00010000 (setMem32 0x80000514 0xFFFF0000 (setMem32 0x80000510 0x80000000
    (setMem32 0x80000500 0x8001 attrUp))))

theorem attrInsert_ne (s : State) (i : Nat) (l : List Nat) : attrInsert s i l ≠ [] := by
  cases l with
  | nil => simp [attrInsert]
  | cons j l => unfold attrInsert; split <;> simp

theorem attrInserts_ne (s : State) (is l : List Nat) (h : is ≠ [] ∨ l ≠ []) : is.foldl (fun l i => attrInsert s i l) l ≠ [] := by
  induction is generalizing l with
  | nil => simpa using h
  | cons i is ih => exact ih _ (.inr (attrInsert_ne s i l))

theorem attrPick_ne (s : State) (c i : Nat) (hi : i < ptCount) (h : attrEligible s c i = true) : attrPick s c ≠ [] := by
  have hm : i ∈ (List.range ptCount).filter (attrEligible s c) := by simp [hi, h]
  have := attrInserts_ne s ((List.range ptCount).filter (attrEligible s c)) [] (.inl (List.ne_nil_of_mem hm))
  unfold attrPick
  intro e
  simp only [List.take_eq_nil_iff] at e
  exact e.elim (by decide) this

/-- A selection on circuit 0 has a lantern, and a round may lose more chips than it bears. -/
theorem witness_AttributionCommandsComplete_select :
    (attrMode attrPt = 1 ∧ accepting attrPt .attr = true ∧ regB attrPt .attr 0x048 0 = true ∧ (attrRound attrPt 0).state = 0 ∧
      ptReady attrPt = true ∧ attrWinOk attrPt = true ∧ attrEligible attrPt 0 5 = true) ∧
    (let r : AttrRound := { state := 2, s := 10, lans := [{ point := 5, code := 0, slot := 0, f := 0x8000, d := 655 }] }
     regF attrPt .attr 0x040 15 8 < lostMost { r with heard := 63 } (r.lans.filter fun l => l.inval.isNone)) := by
  decide +kernel

theorem witness_attrPick : (attrPick attrPt 0).zipIdx.map (fun x => attrLan attrPt (attrStart attrPt (regF attrPt .attr 0x044 31 16)) x.1 x.2) ≠ [] := by
  have := attrPick_ne attrPt 0 5 (by decide) witness_AttributionCommandsComplete_select.1.2.2.2.2.2.2
  simpa using this

/-- Caravan ACTIVE on RFA with node 7 a member, time 0. -/
def crvUp : State :=
  let s := setReg .crv 0x040 0x12343001 (setReg (.rf 0) 0x040 0x00000110 (on .crv (on (.rf 0) (on .ptab solo))))
  { s with crv := { s.crv with ses := [(7, { valid := true, eui := 99, parent := 0, depth := 1, fc := 5, sleepy := true })] } }

theorem witness_RadioFramesReceivedComplete :
    (let f : RadioRx := { src := 7, fc := 6, dsn := 1, key := crvNgen crvUp, good := true }
     crvRuns crvUp = true ∧ enabled crvUp .crv = true ∧ ptReady crvUp = true ∧ f.fcs = true ∧ f.kindOk = true ∧ f.good = true ∧ keyAccepted crvUp f.key = true ∧
      (sesOf crvUp f.src.val).valid = true ∧ f.src ≠ 0 ∧ (sesOf crvUp f.src.val).fc < f.fc) ∧
    (let q : JoinReq := { via := 0, eui := 99, jctr := 3, mic := true, flags := 2, pollS := 10 }
     let s := setMem32 0x80000008 99 (setMem32 0x80000004 0x80000007 (setMem32 0x80000000 0x00008002 crvUp))
     crvMode s = 1 ∧ joinAddr s q.eui = some (7, some 0) ∧ joinFresh s q = true ∧ (sesOf s 7).eui = q.eui ∧ otherSleepy s 7 < 32 ∧ (sesOf s 7).valid = true ∧
      (s.crv.ses.find? fun y => y.2.valid && y.2.eui == q.eui && y.1 != 0) = some (7, sesOf s 7)) := by
  decide +kernel

/-- `crvUp` with a frame on the air, a command sent, and one offered by DIM to radio point 0. -/
def crvBusyUp : State :=
  let s := setMem32 0x80000004 0x80000007 (setMem32 0x80000000 0x00008002 crvUp)
  { s with
    dim := { s.dim with offers := [{ point := 0, op := 1 }] }
    crv := { s.crv with
      tx := some { frame := { dst := 7, payload := [] }, onAir := true }
      pos := [(3, { queue := [{ point := 3, op := 1, sent := true, uid := 9 }] })]
      ses := [(7, { valid := true, eui := 99, depth := 1, sleepy := true, held := [{ frame := { dst := 7, payload := [] }, since := 0x10000000 }] })] } }

/-- Every clause's hypotheses hold somewhere: ROLL in its three states too. -/
theorem witness_CaravanCommandsComplete :
    (let s := { crvUp with crv := { crvUp.crv with ses := [(7, { valid := true, depth := 1, sleepy := true, misses := 2 })] } }
     crvRuns s = true ∧ ownSleepy s 7 = true ∧ (sesOf s 7).valid = true ∧ (sesOf s 7).lost = false ∧ 2 ≤ (sesOf s 7).misses) ∧
    (let s := { crvBusyUp with dim := { crvBusyUp.dim with offers := [{ point := 0, op := 4 }] } }
     ptServed s 0 = true ∧ (offerAt s 0 0).map (·.op) = some 4 ∧ ptServed (setMem32 0x80000000 2 s) 0 = false ∧
      cfgRadio (ptHalf (setMem32 0x80000000 2 s) 0) = true) ∧
    (crvRuns crvUp = true ∧ nowMs crvUp % 10 = 0 ∧ enabled crvUp (.tb 0) = true ∧ rfShed crvUp = false ∧ crvMode crvUp = 1 ∧ ptReady crvUp = true) ∧
    (crvBusyUp.crv.tx.map (·.onAir) = some true ∧ crvBusyUp.crv.tx.map (·.second) = some false) ∧
    ((offerAt crvBusyUp 0 0).map (·.members) = some [] ∧ accepting crvBusyUp .crv = true ∧ cfgRadio (ptHalf crvBusyUp 0) = true ∧
      inControl crvBusyUp = true ∧ (rposOf crvBusyUp 0).queue = []) ∧
    (crvBusyUp.crv.groups = [] ∧ ((allCmds (rposOf crvBusyUp 3)).filter (·.sent)).map (·.uid) = [9]) ∧
    (ownSleepy crvUp 7 = true ∧ (sesOf crvUp 7).valid = true ∧ (sesOf crvUp 7).lost = false ∧ (sesOf crvUp 7).misses < 2 ∧
      0 ≤ signed 32 (nowSec crvUp + 2 ^ 32 - (sesOf crvUp 7).lease % 2 ^ 32)) ∧
    (writeOpen crvUp app .crv 0x070 = true ∧ fld 0xE9000007 31 24 = 0xE9 ∧ fld 0xE9000007 11 0 = 7) ∧
    (writeOpen crvUp app .crv 0x074 = true ∧ fld 0x6E000001 31 24 = 0x6E ∧ bit 0x6E000001 0 = true ∧ crvUp.crv.roll = 0) ∧
    (writeOpen crvUp app .crv 0x080 = true ∧ writeOpen crvUp app .crv 0x040 = true ∧ crvRadio crvUp = 0 ∧ 1 ≤ crvDepth crvUp ∧ crvDepth crvUp ≤ 8 ∧
      regF crvUp (.rf 0) 0x040 5 4 ≠ 0) ∧
    (let k : KeySlot := { attr := 0x10000010 }
     let b : KeySlot := { attr := 0x10000030 }
     let s0 := setReg .crv 0x040 0x12343000 { crvUp with keys := [(1, k), (2, b)] }
     let s := setReg .crv 0x04C 0x01020000 (setReg (.rf 0) 0x060 0xFF s0)
     let s1 := fun m => plainWrite app .crv 0x040 (setFld (setFld (reg s .crv 0x040) 1 0 m) 1 0 (crvMode s)) (answer .ok s)
     modeRefusal (s1 1) 1 = none ∧ modeRefusal (s1 2) 2 = none) ∧
    (crvRuns crvBusyUp = true ∧ (64000 : Int) ≤ actDiff (nowMs crvBusyUp) 0xF0000000) := by
  decide +kernel

/-- NUPD in a state of its campaign, with a two-chunk image at 0x80100000 and one target listed at 0x80200000. -/
def nuUp (st : Nat) : State :=
  setRegF .nupd 0x044 23 20 st (setReg .nupd 0x054 1 (setReg .nupd 0x050 0x80200000 (setReg .nupd 0x04C 2 (setReg .nupd 0x048 0x80100000
    (on .nupd (on .ptab solo))))))

/-- `nuUp` with the image's magic bytes and chunk count. -/
def nuImage0 : State := memWrite 0x80100008 [2, 0] (memWrite 0x80100000 [0x48, 0x4E, 0x55, 0x50] (nuUp 1))

/-- `nuImage0` with the digest of its body in its header. -/
def nuImage : State := memWrite 0x80100010 (takePad 32 (Config.sha256 (memRead nuImage0 0x80100200 512))) nuImage0

theorem takePad_length (n : Nat) (l : List Byte) : (takePad n l).length = n := by
  simp [takePad, List.length_take, List.length_append]

/-- The rest of the image is as it was. -/
theorem nuImage_byte (a : Nat) : (a < 0x80100010 ∨ 0x80100030 ≤ a → memByte nuImage a = memByte nuImage0 a) := by
  intro h; exact memByte_memWrite_other _ _ _ _ (by rw [takePad_length]; omega)

theorem memRead_congr (s u : State) (n a : Nat) (h : ∀ k, a ≤ k → k < a + n → memByte s k = memByte u k) : memRead s a n = memRead u a n := by
  induction n generalizing a with
  | zero => rfl
  | succ n ih =>
    show memByte s a :: memRead s (a + 1) n = memByte u a :: memRead u (a + 1) n
    rw [h a (by omega) (by omega), ih (a + 1) fun k h1 h2 => h k (by omega) (by omega)]

theorem memRead_self (bs : List Byte) (a : Nat) (s : State) : memRead (memWrite a bs s) a bs.length = bs := by
  induction bs generalizing a s with
  | nil => rfl
  | cons x bs ih =>
    show memByte (memWrite (a + 1) bs (memPut a x s)) a :: memRead (memWrite (a + 1) bs (memPut a x s)) (a + 1) bs.length = x :: bs
    rw [memByte_memWrite_other _ _ _ _ (by omega), memByte_memPut, if_pos rfl, ih]

theorem memWrite_keeps (bs : List Byte) (a : Nat) (s : State) :
    (memWrite a bs s).regs = s.regs ∧ working (memWrite a bs s) .nupd = working s .nupd ∧ ptReady (memWrite a bs s) = ptReady s := by
  induction bs generalizing a s with
  | nil => exact ⟨rfl, rfl, rfl⟩
  | cons x bs ih => exact ih (a + 1) (memPut a x s)

theorem nuImage_regs : nuImage.regs = nuImage0.regs := (memWrite_keeps _ _ _).1

theorem nuImage_ok : nuImageOk nuImage = true := by
  have hl : nuLen nuImage = 2 := by
    unfold nuLen regN reg; rw [nuImage_regs]; decide +kernel
  have hb : imgBase nuImage = 0x80100000 := by
    unfold imgBase regN reg; rw [nuImage_regs]; decide +kernel
  have h1 : memRead nuImage 0x80100000 4 = [0x48, 0x4E, 0x55, 0x50] := by
    rw [memRead_congr nuImage nuImage0 _ _ fun k h1 h2 => nuImage_byte k (.inl (by omega))]; decide +kernel
  have h2 : memNat nuImage 0x80100008 2 = 2 := by
    unfold memNat
    rw [memRead_congr nuImage nuImage0 _ _ fun k h1 h2 => nuImage_byte k (.inl (by omega))]; decide +kernel
  have h3 : memRead nuImage 0x80100200 512 = memRead nuImage0 0x80100200 512 :=
    memRead_congr nuImage nuImage0 _ _ fun k h1 h2 => nuImage_byte k (.inr (by omega))
  have h4 : memRead nuImage 0x80100010 32 = takePad 32 (Config.sha256 (memRead nuImage0 0x80100200 512)) := by
    have := memRead_self (takePad 32 (Config.sha256 (memRead nuImage0 0x80100200 512))) 0x80100010 nuImage0
    rw [takePad_length] at this; exact this
  unfold nuImageOk
  rw [hb, hl, h1, show (0x80100000 : Nat) + 8 = 0x80100008 from rfl, h2, show (0x80100000 : Nat) + 512 = 0x80100200 from rfl,
    show 512 * (2 - 1) = 512 from rfl, h3, show (0x80100000 : Nat) + 16 = 0x80100010 from rfl, h4]
  simp

/-- The stored digest of a paused campaign is the image's own. -/
theorem witness_NodeUpdateCommandsComplete_resume :
    let s := { nuUp 8 with nupd := { (nuUp 8).nupd with digest := nuDigest (nuUp 8), resumeTo := 3 } }
    nuState s = 8 ∧ s.nupd.digest = nuDigest s := by
  refine ⟨by decide +kernel, ?_⟩
  show nuDigest (nuUp 8) = nuDigest _
  unfold nuDigest
  exact congrArg (fun l => takePad 32 (Config.sha256 l)) (memRead_congr _ _ _ _ fun _ _ _ => rfl)

theorem witness_NodeUpdateCommandsComplete_verify :
    nuState nuImage = 1 ∧ working nuImage .nupd = true ∧ ptReady nuImage = true ∧ nuImageOk nuImage = true := by
  refine ⟨?_, (memWrite_keeps _ _ _).2.1.trans (by decide +kernel), (memWrite_keeps _ _ _).2.2.trans (by decide +kernel), nuImage_ok⟩
  unfold nuState regF reg; rw [nuImage_regs]; decide +kernel

theorem witness_NodeUpdateCommandsComplete :
    (workOpen (nuUp 0) app .nupd 0x05C = true ∧ nuState (nuUp 0) = 0 ∧ inControl (nuUp 0) = true ∧ nuRangeOk (nuUp 0) = true) ∧
    (let s := setReg .nupd 0x058 0x7FFFFFFF (nuUp 4)
     workOpen s app .nupd 0x05C = true ∧ nuState s = 4 ∧
      ((regF s .nupd 0x060 31 16 + 1) * 1000 : Nat) ≤ actDiff (regN s .nupd 0x058) (nowMs s)) ∧
    (workOpen (nuUp 1) app .nupd 0x05C = true ∧ nuState (nuUp 1) = 1) ∧
    (workOpen (nuUp 2) app .nupd 0x05C = true ∧ nuState (nuUp 2) = 2 ∧ nuState (nuUp 6) = 6) ∧
    (workOpen (nuUp 8) app .nupd 0x05C = true) ∧
    (nuState (nuUp 3) = 3 ∧ working (nuUp 3) .nupd = true ∧ ptReady (nuUp 3) = true ∧ nuPassesOver (nuUp 3) = true) ∧
    (nuState (nuUp 5) = 5 ∧ working (nuUp 5) .nupd = true ∧
      actDiff (regN (nuUp 5) .nupd 0x058) (nowMs (nuUp 5)) ≤ (regF (nuUp 5) .nupd 0x060 31 16 * 1000 : Nat)) := by
  decide +kernel

/-- Port 0 with a link. -/
def ethUp : State := setReg (.eth 0) 0x04C 0x80000000 (setReg (.eth 0) 0x048 0x700 (on (.eth 0) solo))

/-- A broadcast frame of 60 bytes and its FCS. -/
def ethFrame : List Byte :=
  let b := List.replicate 6 0xFF#8 ++ [2, 0, 0, 0, 0, 1, 0x88, 0xB5] ++ List.replicate 46 0#8
  b ++ leBytes 4 (crc32 b)

/-- The same port asleep, waiting for its own address. -/
def ethSleeping : State := setRegB (.eth 0) 0x008 4 true (setReg (.eth 0) 0x300 0x80000002 (setReg (.eth 0) 0x050 0xFFFFFFFF (setReg (.eth 0) 0x054 0xFFFF ethUp)))

theorem witness_EthernetPortCommandsComplete :
    (writeOpen ethUp app (ethPage 0) 0x048 = true ∧ bit 0x700 31 = false ∧
      regB (setReg (.eth 0) 0x048 0x80000700 ethUp) (ethPage 0) 0x048 31 = true ∧
      writeOpen (setReg (.eth 0) 0x048 0x80000700 ethUp) app (ethPage 0) 0x048 = true) ∧
    (phyOn ethUp 0 = true ∧ (ethOf (putEth 0 { ethOf ethUp 0 with adv := 7 } ethUp) 0).adv.testBit 2 = true ∧ ethLink ethUp 0 = true) ∧
    (let s1 := putEth 0 { ethOf ethUp 0 with rxFifo := 64 } (setReg (.eth 0) 0x040 0x8000 ethUp)
     let b := ethFrame.take (ethFrame.length - 4)
     working s1 (ethPage 0) = true ∧ quiescing s1 (ethPage 0) = false ∧ ethLink s1 0 = true ∧ 64 ≤ ethFrame.length ∧
      ethFrame.length ≤ regF s1 (ethPage 0) 0x058 13 0 ∧ fcsGood ethFrame = true ∧ pauseOf s1 0 b = none ∧
      ethMatch s1 0 (b.take 6) = some 0xFC ∧ vidPass s1 0 b = true ∧ regB s1 (ethPage 0) 0x040 20 = false) ∧
    regB (setReg (.eth 0) 0x060 1 ethUp) (ethPage 0) 0x060 0 = true ∧
    (writeOpen ethUp app (ethPage 0) 0x088 = true ∧ writeOpen ethUp app (ethPage 0) 0x098 = true) ∧
    (let s1 := ethPump 0 (putEth 0 { ethOf ethUp 0 with erg := [[1]] } ethUp)
     working s1 (ethPage 0) = true ∧ quiesced s1 (ethPage 0) = false ∧ quiescing s1 (ethPage 0) = false ∧ ethLink s1 0 = true ∧
      ethPaused s1 0 = false ∧ (ethOf s1 0).air = none ∧ (ethOf s1 0).erg = [[1]]) ∧
    (let f : EthTx := { bytes := [1], descs := 1, stamp := false, oneStep := none, tag := none }
     let s1 := ethPump 0 (putEth 0 { ethOf ethUp 0 with fifo := some f } ethUp)
     (ethOf s1 0).erg = [] ∧ (ethOf s1 0).fifo = some f ∧
      (ethOf (putEth 0 { ethOf ethUp 0 with air := some (some (f, 1, 2)) } ethUp) 0).air = some (some (f, 1, 2))) ∧
    (asleep ethSleeping (ethPage 0) = true ∧ regB ethSleeping (ethPage 0) 0x300 31 = true ∧
      wakeBits ethSleeping 0 (ethFrame.take (ethFrame.length - 4)) ≠ 0 ∧ regB ethSleeping (ethPage 0) 0x304 31 = false) := by
  decide +kernel

/-- ERG ACTIVE with address 5 and neighbour 9 in entry 2. -/
def ergUp (st : Nat) : State :=
  let s := setReg .erg 0x064 8 (setRegF .erg 0x044 31 28 st (setReg .erg 0x048 5 (setReg .erg 0x040 1 (on .erg crvUp))))
  { s with erg := { s.erg with nbrs := [(2, { valid := true, word0 := 0x80000009 })] } }

theorem witness_FabricCommandsComplete :
    (writeOpen (ergUp 2) app .erg 0x040 = true ∧ ergRuns (ergUp 1) = true ∧ ergMode (ergUp 1) = 1 ∧ ergState (ergUp 1) = 1 ∧ fabAddr (ergUp 1) = 5 ∧
      ergRuns (ergUp 2) = true ∧ ergMode (ergUp 2) = 1 ∧ ergState (ergUp 2) = 2 ∧ ergHeld (ergUp 2) = true ∧ quiescing (ergUp 2) .erg = false ∧
      nbrFor (ergUp 2) 9 = some 2) ∧
    (let m : ErgMessage := { ackReq := true, flood := none, src := 9, dst := 5, ttl := 0, session := 7, seq := 1, payload := List.replicate 12 0 }
     m.dst = fabAddr (ergUp 2) ∧ m.payload.length = 12 ∧ m.src ≠ fabAddr (ergUp 2) ∧ seqClass (peerOf (ergUp 2) m.src) (msgOf m 0x10) = 0 ∧
      needsSlot (ergUp 2) (msgOf m 0x10) = false ∧
      (let s := setReg .erg 0x068 4 (setReg .erg 0x060 0x10000000 (ergUp 2))
       needsSlot s (msgOf m 0x40) = true ∧ hrxFull s = false ∧ nbrFor s 9 = some 2)) ∧
    (let s := { ergUp 2 with mir := { (ergUp 2).mir with out := [{ cancel := false, dst := 9, words := [1] }] } }
     s.mir.out = [{ cancel := false, dst := 9, words := [1] }] ∧ ergHeld s = true ∧ nbrFor s 9 = some 2) ∧
    (writeOpen (ergUp 2) app .erg 0x078 = true ∧ writeOpen (ergUp 2) app .erg 0x068 = true ∧ writeOpen (ergUp 2) app .erg 0x05C = true) ∧
    (let m : ErgMsg := { ackReq := true, flood := none, type := 16, src := 5, dst := 9, ttl := 0, session := 0, seq := 1, payload := [] }
     let s := { ergUp 2 with erg := { (ergUp 2).erg with out := [{ nbr := 2, msg := m, asker := .copy }] } }
     running s .erg = true ∧ (s.erg.out[0]?).map (·.second) = some false) ∧
    (crvRuns (ergUp 2) = true ∧ (spGet (fun _ => (0, 0, 0)) (ergUp 2).crv.ergFc 3).1 < 1) := by
  decide +kernel

/-- A unit that takes part, healthy, with its peer present and both lanes up, in a STATE, in control or not. -/
def twinUp (st : Nat) (ctrl : Bool) : State :=
  setRegB .twin 0x044 4 ctrl (setReg .twin 0x044 (word (2 ^ 11 + 2 ^ 10 + 2 ^ 9 + 2 ^ 8 + st)) (setReg .twin 0x040 1 (on .twin up)))

theorem witness_TwinArbitrationCommandsComplete :
    (twinOn (twinUp 4 true) = true ∧ twinCtrl (twinUp 4 true) = true ∧ twinHealthy (twinUp 4 true) = true ∧ arbIgnored (twinUp 4 true) = false ∧
      lowerSerial (twinUp 4 true) = false) ∧
    (twinOn (twinUp 3 false) = true ∧ twinCtrl (twinUp 3 false) = false) ∧
    (let s := { twinUp 3 false with twin := { (twinUp 3 false).twin with lost := true } }
     twinState s = 3 ∧ s.twin.lost = true ∧ mayTake (setRegB .twin 0x044 13 false (setRegB .twin 0x044 12 false s)) = true) ∧
    (twinState (twinUp 1 false) = 1 ∧ mayTake (setRegB .twin 0x044 13 false (setRegB .twin 0x044 12 false (twinUp 1 false))) = true) ∧
    (writeOpen (twinUp 3 false) app .twin 0x050 = true ∧ fld 0x7E000000 31 24 = 0x7E ∧ twinEn (twinUp 3 false) = true) ∧
    (let s := twinUp 0 false
     let p : TwinIdent := { order := regF s .ident 0x044 7 0, fabAddr := fabAddr s, roleB := true, sameVersion := true, serial := 9, ctrl := true }
     twinPres s = true ∧ laneUp s 0 = true ∧ laneUp s 1 = true ∧ s.twin.left = false ∧ p.roleB = !roleB s) ∧
    (let s := setReg .twin 0x07C 100 (twinUp 2 false)
     ofsWithin s 100000 = true ∧ twinState s = 2 ∧ regF s .twin 0x07C 7 0 = 100) ∧
    (let s := { twinUp 5 true with twin := { (twinUp 5 true).twin with syncing := true } }
     twinOn s = true ∧ ofsWithin s 100000 = true ∧ twinState s = 5 ∧ s.twin.syncing = true ∧ jrnLate s = false) := by
  decide +kernel

/-- `twinUp` with the peer identified, a message out, T at 0 and line 3 still to be driven. -/
def twinLink (st : Nat) (ctrl second : Bool) : State :=
  let s := twinUp st ctrl
  { s with
    twin := { s.twin with
      ident := some { order := 0, fabAddr := 0, roleB := true, sameVersion := true, serial := 9, ctrl := false }
      out := [{ seq := 4, item := .switchReq, since := 0, second := second }]
      switchT := some 0
      toDrive := [3] } }

theorem witness_TwinLinkCommandsComplete :
    (let s := twinLink 4 true false
     twinOn s = true ∧ laneUp s 1 = true ∧ s.twin.ident.isNone = false ∧ s.twin.seqRx.contains 7 = false ∧ twinHealthy s = true ∧
      (s.twin.out.find? fun o => o.seq == 4).map (·.second) = some false ∧ isDue 0 (nowMs s) = true ∧ s.twin.handing = false ∧ twinCtrl s = true ∧
      s.twin.toDrive.contains 3 = true ∧ twinState s = 4) ∧
    ((twinLink 4 true true).twin.out.find? fun o => o.seq == 4).map (·.second) = some true ∧
    (let s := twinUp 4 true
     laneUp s 0 = true ∧ s.twin.switchT = none ∧ writeOpen s app .twin 0x054 = true) ∧
    (let s := twinUp 3 false
     twinState s = 3 ∧ regB s .twin 0x044 12 = false ∧ regB (setRegB .twin 0x044 12 true s) .twin 0x044 12 = true ∧
      mayTake (raiseIrq .twin 6 (onTwin (fun t =>
        { t with lost := true, peerCtrl := false, peerReady := false, syncing := false, switchT := none }) s)) = true ∧
      writeOpen s app .twin 0x054 = true ∧ inControl s = false ∧ regB (setReg .twin 0x040 9 s) .twin 0x040 3 = true ∧ roleB s = false) ∧
    (twinCtrl (twinLink 3 false false) = false ∧ twinState (twinLink 3 false false) = 3) := by
  decide +kernel

/-- The Oasis domain with alarm 0 armed for the start of time, periodic wake and mesh check on. -/
def oasUp : State := setReg .oasis 0x080 1 (setReg .oasis 0x0B0 0x80000005 (setReg .oasis 0x100 0x100 up))

theorem witness_OasisCommandsComplete :
    (up.oas.flight = none ∧ writeOpen up app .oasis 0x05C = true ∧ writeOpen up app .oasis 0x080 = true ∧ writeOpen up secCore .oasis 0x104 = true ∧
      writeOpen up app .oasis 0x0C4 = true) ∧
    (up.stalled.find? fun y => y.addr / 0x1000 == 0x40150) = none ∧
    calPossible 0x001E0311 0x00112E28 = true ∧
    readOpen up app .oasis = true ∧
    (almArmed oasUp 0 = true ∧ almInstant oasUp 0 ≤ oasUp.rtc ∧ regB oasUp .oasis 0x0B0 31 = true ∧ regB oasUp .oasis 0x100 8 = true) ∧
    regB (setReg .oasis 0x040 0x10 up) .oasis 0x040 4 = true ∧ regB (setReg .oasis 0x040 0 up) .oasis 0x040 8 = false := by
  decide +kernel

/-- The security core takes work, its mailbox port of an initiator holds an operation, and slots 3, 4 and 5 hold a symmetric key, a
signature key and a wrapping key. -/
def secUp (ini : Ini) (cmd : Word) : State :=
  let s := setRegI .sec 0x088 ini.id 32 (setRegI .sec 0x084 ini.id 0x80000000 (setRegI .sec 0x080 ini.id cmd (on .sec up)))
  { s with
    keys := [(3, { value := List.replicate 32 1, attr := 0x10020056, gen := 1 }), (4, { value := List.replicate 32 2, attr := 0x20020008, gen := 1 }),
      (5, { value := List.replicate 32 3, attr := 0x10020001, gen := 1 })]
    sec := { s.sec with shadows := [(3, some { value := [1], attr := 0x10020056, ticket := 0, verified := true, wrapped := false })] } }

theorem witness_SecurityRequestsComplete :
    (let s := secUp app 0x01030000
     mbOpen s app 1 = true ∧ ownerAdmits (keySlotOf s 3).attr 0 = true ∧ (mbReq s app).slot = 3 ∧ restricted (mbTaken s app) = false) ∧
    (let s := setRegI .sec 0x0FC app.id 0x10020006 (secUp app 0x02030000)
     mbOpen s app 2 = true ∧ loadRefuses (mbTaken s app) (mbReq s app).slot 0 (argOf (mbReq s app) 15) = none ∧ (mbReq s app).flags = 0) ∧
    (let s := setRegI .sec 0x0FC secCore.id 0x10020006 (secUp secCore 0x02030002)
     mbOpen s secCore 2 = true ∧ loadRefuses (mbTaken s secCore) (mbReq s secCore).slot 8 (argOf (mbReq s secCore) 15) = none ∧
      (mbReq s secCore).flags = 2 ∧ (mbReq s secCore).ini = 8) ∧
    (let s := secUp app 0x04030000
     mbOpen s app 4 = true ∧ slotBarred (mbTaken s app) 3 0 false = none ∧ bit (keySlotOf s 3).attr 7 = false ∧
      (shadowNamed (mbTaken s app) 3 (argOf (mbReq s app) 0)).map (·.verified) = some true) ∧
    (let s := secUp app 0x05030000
     mbOpen s app 5 = true ∧ slotBarred (mbTaken s app) 3 0 true = none) ∧
    (let s := secUp app 0x06030400
     mbOpen s app 6 = true ∧ slotRefuses (mbTaken s app) 3 0 4 0 = none ∧ secInput (mbReq s app) 1 256 = true ∧ bit (keySlotOf s 3).attr 5 = false ∧
      (mbReq s app).flags = 0 ∧ (mbReq s app).slot2 = 4) ∧
    (let s := secUp app 0x07030000
     mbOpen s app 7 = true ∧ slotRefuses (mbTaken s app) 3 0 2 1 = none ∧ secInput (mbReq s app) 0 65536 = true) ∧
    (let s := secUp app 0x08040000
     mbOpen s app 8 = true ∧ slotRefuses (mbTaken s app) 4 0 3 2 = none) ∧
    (let s := secUp app 0x09030500
     mbOpen s app 9 = true ∧ slotRefuses (mbTaken s app) 3 0 6 0 = none ∧ slotRefuses (mbTaken s app) 5 0 0 1 = none) ∧
    (let s := secUp app 0x0A050000
     mbOpen s app 10 = true ∧ 4 ≤ (mbReq s app).slot % 8) ∧
    mbOpen (secUp app 0x0B030000) app 11 = true ∧ mbOpen (secUp app 0x0C000000) app 12 = true ∧ mbOpen (secUp app 0) app 0 = true ∧
    mbOpen (secUp app 0x0E000000) app 14 = true := by
  decide +kernel

/-- Four bytes as a word, and the word as bytes. -/
theorem leBytes_leNat (a b c d : Byte) : leBytes 4 (word (leNat [a, b, c, d])).toNat = [a, b, c, d] := by
  have ha := a.isLt
  have hb := b.isLt
  have hc := c.isLt
  have hd := d.isLt
  have e : (word (leNat [a, b, c, d])).toNat = a.toNat + 256 * (b.toNat + 256 * (c.toNat + 256 * d.toNat)) := by
    simp only [word, leNat, BitVec.toNat_ofNat]
    omega
  rw [e]
  simp only [leBytes, List.cons.injEq, and_true]
  refine ⟨?_, ?_, ?_, ?_⟩ <;> apply BitVec.eq_of_toNat_eq <;> simp only [BitVec.toNat_ofNat] <;> omega

theorem takePad_16 (l : List Byte) : takePad 16 l = (List.range 16).map fun k => (takePad 16 l).getD k 0 := by
  apply List.ext_getElem
  · rw [takePad_length]; simp
  · intro k h1 h2
    rw [List.getElem_map, List.getElem_range, List.getD, List.getElem?_eq_getElem h1, Option.getD_some]

theorem takePad_32 (l : List Byte) : takePad 32 l = (List.range 32).map fun k => (takePad 32 l).getD k 0 := by
  apply List.ext_getElem
  · rw [takePad_length]; simp
  · intro k h1 h2
    rw [List.getElem_map, List.getElem_range, List.getD, List.getElem?_eq_getElem h1, Option.getD_some]

theorem spGet_append {α : Type} (d : Nat → α) (l m : Sparse α) (k : Nat) (h : ∀ x ∈ l, x.1 ≠ k) : spGet d (l ++ m) k = spGet d m k := by
  induction l with
  | nil => rfl
  | cons x l ih =>
    obtain ⟨a, v⟩ := x
    show (if a = k then v else spGet d (l ++ m) k) = _
    rw [if_neg (h (a, v) (by simp)), ih fun x hx => h x (by simp [hx])]

/-- The known answer of slot 3's shadow under an all-zero challenge. -/
def katBytes : List Byte :=
  takePad 16 (Config.hmacSha256 [1] (ascii ['G', 'L', 'F', '-', 'K', 'A', 'T'] ++ List.replicate 16 0))

/-- Word k of it. -/
def katWord (k : Nat) : Word :=
  word (leNat [katBytes.getD (4 * k) 0, katBytes.getD (4 * k + 1) 0, katBytes.getD (4 * k + 2) 0, katBytes.getD (4 * k + 3) 0])

/-- A VERIFY request with that answer. -/
def katState : State :=
  let s := secUp app 0x03030000
  { s with regs := s.regs ++ (List.range 4).map fun k => (regKeyI .sec (0x0D0 + 4 * k) 0, katWord k) }

theorem witness_SecurityRequestsComplete_verify :
    mbOpen katState app 3 = true ∧ slotBarred (mbTaken katState app) (mbReq katState app).slot 0 false = none ∧
    (∃ x, shadowNamed (mbTaken katState app) (mbReq katState app).slot (argOf (mbReq katState app) 8) = some x ∧
      takePad 16 (Config.hmacSha256 x.value (ascii ['G', 'L', 'F', '-', 'K', 'A', 'T'] ++ argBytes (mbReq katState app) 0 4)) =
        argBytes (mbReq katState app) 4 4) := by
  have h0 : argBytes (mbReq katState app) 0 4 = List.replicate 16 0 := by decide +kernel
  have h4 : ((mbReq katState app).args.drop 4).take 4 = [katWord 0, katWord 1, katWord 2, katWord 3] := by
    have e : ∀ k, k < 4 → regI katState .sec (0x0C0 + 4 * (4 + k)) app.id = katWord k := by
      intro k hk
      unfold regI katState
      dsimp only
      rw [spGet_append]
      · have : k = 0 ∨ k = 1 ∨ k = 2 ∨ k = 3 := by omega
        rcases this with rfl | rfl | rfl | rfl <;> simp [List.range, List.range.loop, spGet, regKeyI, app]
      · have h : ∀ x ∈ (secUp app 0x03030000).regs, x.1 < regKeyI .sec 0x0D0 app.id := by decide +kernel
        intro x hx hh
        have := h x hx
        unfold regKeyI at *
        omega
    show [regI katState .sec (0x0C0 + 4 * 4) app.id, regI katState .sec (0x0C0 + 4 * 5) app.id, regI katState .sec (0x0C0 + 4 * 6) app.id,
      regI katState .sec (0x0C0 + 4 * 7) app.id] = _
    rw [e 0 (by decide), e 1 (by decide), e 2 (by decide), e 3 (by decide)]
  refine ⟨by decide +kernel, by decide +kernel, { value := [1], attr := 0x10020056, ticket := 0, verified := true, wrapped := false }, by decide +kernel, ?_⟩
  unfold argBytes at h4 h0 ⊢
  rw [h0, h4]
  show katBytes = [katWord 0, katWord 1, katWord 2, katWord 3].flatMap fun w => leBytes 4 w.toNat
  unfold katWord
  simp only [List.flatMap_cons, List.flatMap_nil, leBytes_leNat]
  unfold katBytes
  rw [takePad_16]
  rfl

/-- A signed instruction at 0x80000000 under slot 3, but for its MAC. -/
def tokState0 : State :=
  let s := memWrite 0x80000000 [0x47, 0x53, 0x49, 0x47, 1, 3] (secUp app 0x0D000000)
  { s with
    keys := [(3, { value := List.replicate 32 1, attr := 0x10020056, gen := 1 })]
    sec := { s.sec with nonce := some (List.replicate 32 0) } }

/-- Its MAC. -/
def tokMac : List Byte := takePad 32 (Config.hmacSha256 (List.replicate 32 1) (memRead tokState0 0x80000000 64))

/-- The signed instruction. -/
def tokState : State := { tokState0 with mem := tokState0.mem ++ (List.range 32).map fun k => (0x80000040 + k, tokMac.getD k 0) }

theorem memRead_append (s : State) (m n a : Nat) : memRead s a (m + n) = memRead s a m ++ memRead s (a + m) n := by
  induction m generalizing a with
  | zero => simp [memRead]
  | succ m ih =>
    rw [show m + 1 + n = (m + n) + 1 by omega]
    show memByte s a :: memRead s (a + 1) (m + n) = (memByte s a :: memRead s (a + 1) m) ++ _
    rw [ih, show a + 1 + m = a + (m + 1) by omega]; rfl

theorem memRead_length (s : State) (n a : Nat) : (memRead s a n).length = n := by
  induction n generalizing a with
  | zero => rfl
  | succ n ih => show (_ :: memRead s (a + 1) n).length = _; simp [ih]

theorem spGet_appended {α : Type} (d : Nat → α) (f : Nat → α) (l : Sparse α) (b n k : Nat) (hl : ∀ x ∈ l, x.1 < b) :
    (k < b → spGet d (l ++ (List.range n).map fun j => (b + j, f j)) k = spGet d l k) ∧
    (∀ j, j < n → spGet d (l ++ (List.range n).map fun j => (b + j, f j)) (b + j) = f j) := by
  refine ⟨fun h => ?_, fun j h => ?_⟩
  · induction l with
    | nil =>
      show spGet d ((List.range n).map fun j => (b + j, f j)) k = d k
      have : ∀ m : List Nat, spGet d (m.map fun j => (b + j, f j)) k = d k := by
        intro m
        induction m with
        | nil => rfl
        | cons x m ih => show (if b + x = k then f x else _) = _; rw [if_neg (by omega)]; exact ih
      exact this _
    | cons x l ih =>
      obtain ⟨a, v⟩ := x
      show (if a = k then v else spGet d (l ++ (List.range n).map fun j => (b + j, f j)) k) = (if a = k then v else spGet d l k)
      rw [ih fun y hy => hl y (by simp [hy])]
  · rw [spGet_append _ _ _ _ fun x hx => by have := hl x hx; omega]
    have : ∀ m : List Nat, j ∈ m → spGet d (m.map fun j => (b + j, f j)) (b + j) = f j := by
      intro m hm
      induction m with
      | nil => simp at hm
      | cons x m ih =>
        show (if b + x = b + j then f x else _) = _
        by_cases hx : x = j
        · rw [if_pos (by omega), hx]
        · rw [if_neg (by omega)]; exact ih ((List.mem_cons.mp hm).resolve_left (Ne.symm hx))
    exact this _ (by simp [h])

/-- What the token reads as. -/
theorem tok_read : memRead tokState 0x80000000 128 = memRead tokState0 0x80000000 64 ++ (tokMac ++ List.replicate 32 0) := by
  have hl : ∀ x ∈ tokState0.mem, x.1 < 0x80000040 := by decide +kernel
  have lo : memRead tokState 0x80000000 64 = memRead tokState0 0x80000000 64 :=
    memRead_congr _ _ _ _ fun k _ h => (spGet_appended _ (fun k => tokMac.getD k 0) _ _ 32 k hl).1 (by omega)
  have hi : memRead tokState 0x80000040 32 = tokMac := by
    have hm : tokMac = (List.range 32).map fun k => tokMac.getD k 0 := takePad_32 _
    rw [hm]
    have : ∀ n a, a + n ≤ 32 → memRead tokState (0x80000040 + a) n = (List.range' a n).map fun k => tokMac.getD k 0 := by
      intro n
      induction n with
      | zero => intro a _; rfl
      | succ n ih =>
        intro a h
        show memByte tokState (0x80000040 + a) :: memRead tokState (0x80000040 + (a + 1)) n = _
        rw [ih (a + 1) (by omega)]
        have := (spGet_appended memReset (fun k => tokMac.getD k 0) _ _ 32 0 hl).2 a (by omega)
        rw [show memByte tokState (0x80000040 + a) = tokMac.getD a 0 from this]; rfl
    have h := this 32 0 (by decide)
    rw [← List.range_eq_range'] at h; exact h
  have top : memRead tokState 0x80000060 32 = List.replicate 32 0 := by
    have h0 : ∀ x ∈ tokState.mem, x.1 < 0x80000060 := by
      intro x hx
      simp only [tokState, List.mem_append, List.mem_map, List.mem_range] at hx
      rcases hx with h | ⟨k, hk, rfl⟩
      · have := hl x h; omega
      · show 0x80000040 + k < 0x80000060; omega
    have hb : ∀ a, 0x80000060 ≤ a → a < 0x80000080 → memByte tokState a = 0 := by
      intro a h1 h2
      have := spGet_append memReset tokState.mem [] a fun x hx => by have := h0 x hx; omega
      rw [List.append_nil] at this
      unfold memByte
      rw [this]
      show memReset a = 0
      unfold memReset
      rw [if_neg (by omega)]
      try rw [if_neg (by omega)]
    have : ∀ n a, 0x80000060 ≤ a → a + n ≤ 0x80000080 → memRead tokState a n = List.replicate n 0 := by
      intro n
      induction n with
      | zero => intro a _ _; rfl
      | succ n ih =>
        intro a h1 h2
        show memByte tokState a :: memRead tokState (a + 1) n = _
        rw [hb a h1 (by omega), ih (a + 1) (by omega) (by omega)]; rfl
    exact this 32 _ (by decide) (by decide)
  have up : memRead tokState 0x80000040 64 = tokMac ++ List.replicate 32 0 := by
    have := memRead_append tokState 32 32 0x80000040
    rw [hi, show (0x80000040 + 32 : Nat) = 0x80000060 from rfl, top] at this; exact this
  have := memRead_append tokState 64 64 0x80000000
  rw [lo, show (0x80000000 + 64 : Nat) = 0x80000040 from rfl, up] at this; exact this

theorem witness_SecurityRequestsComplete_exec :
    (let s := tokState
     let r := mbReq s app
     let s1 := mbTaken s app
     let t := memRead s1 r.ptr 128
     mbOpen s app 13 = true ∧ inRam r.ptr 128 = true ∧ t.take 4 = [0x47, 0x53, 0x49, 0x47] ∧ t.getD 4 0 = 1 ∧
      leNat ((t.drop 8).take 8) = regN s1 .ident 0x04C * 2 ^ 32 + regN s1 .ident 0x048 ∧ s1.sec.nonce = some ((t.drop 16).take 32) ∧
      slotBarred s1 ((t.getD 5 0).toNat % 64) r.ini false = none ∧ tokenSigned t (keySlotOf s1 ((t.getD 5 0).toNat % 64)) = some true) := by
  intro s r s1 t
  have hp : r.ptr = 0x80000000 := by decide +kernel
  have ht : t = memRead tokState0 0x80000000 64 ++ (tokMac ++ List.replicate 32 0) := by
    rw [← tok_read]
    show memRead (mbTaken tokState app) r.ptr 128 = _
    rw [hp]
    refine memRead_congr _ _ _ _ fun k _ _ => ?_
    unfold memByte
    have hm : (mbTaken tokState app).mem = tokState.mem := by
      unfold mbTaken
      have : ∀ (l : List Nat) (u : State), (forEach (fun k t => setRegI .sec (0x100 + 4 * k) app.id 0 t) l u).mem = u.mem := by
        intro l
        induction l with
        | nil => intro u; rfl
        | cons x l ih => intro u; exact ih _
      rw [this]; rfl
    rw [hm]
  have hb : (memRead tokState0 0x80000000 64).length = 64 := memRead_length ..
  have he : memRead tokState0 0x80000000 64 = [0x47, 0x53, 0x49, 0x47, 1, 3] ++ List.replicate 58 0 := by decide +kernel
  have hd : t.drop 64 = tokMac ++ List.replicate 32 0 := by rw [ht, List.drop_append_of_le_length (Nat.le_of_eq hb.symm), List.drop_of_length_le (Nat.le_of_eq hb)]; rfl
  have hk : t.take 64 = memRead tokState0 0x80000000 64 := by rw [ht, List.take_append_of_le_length (Nat.le_of_eq hb.symm), List.take_of_length_le (Nat.le_of_eq hb)]
  have hsmall : ∀ a n, a + n ≤ 64 → (t.drop a).take n = ((memRead tokState0 0x80000000 64).drop a).take n := by
    intro a n h
    rw [ht, List.drop_append_of_le_length (by rw [hb]; omega), List.take_append_of_le_length (by rw [List.length_drop, hb]; omega)]
  have h5 : (t.getD 5 0).toNat % 64 = 3 := by rw [ht, he]; rfl
  refine ⟨by decide +kernel, by decide +kernel, ?_, ?_, ?_, ?_, ?_, ?_⟩
  · have := hsmall 0 4 (by decide); rw [List.drop_zero, List.drop_zero] at this; rw [this, he]; decide
  · rw [ht, he]; rfl
  · rw [hsmall 8 8 (by decide), he]; decide +kernel
  · rw [hsmall 16 32 (by decide), he]; decide +kernel
  · rw [h5]; decide +kernel
  · rw [h5]
    have hs : keySlotOf s1 3 = { value := List.replicate 32 1, attr := 0x10020056, gen := 1 } := by decide +kernel
    rw [hs]
    unfold tokenSigned
    dsimp only
    rw [if_neg (by decide), if_pos (by decide), hd, hk]
    unfold tokMac
    simp

/-- CRYP enabled, its control word as given, and a key in register 0. -/
def crypUp (c : Word) : State :=
  let s := setReg .cryp 0x044 2 (setReg .cryp 0x050 16 (setReg .cryp 0x048 0x80000000 (setReg .cryp 0x040 c (on .cryp up))))
  { s with cryp := { s.cryp with keys := [(0, some (List.replicate 16 7, false))] } }

theorem witness_EngineCommandsComplete :
    (let r : SecReq := { ini := 0, op := 1, slot := 3, slot2 := 0, flags := 0, ptr := 0, len := 0, args := [] }
     let s := { up with sec := { up.sec with run := some { req := r } } }
     s.sec.run.map (fun x => (x.err, x.req.op)) = some (0, 1)) ∧
    (readOpen up app .sec = true ∧ bit (regI (setRegI .sec 0x090 0 2 up) .sec 0x090 app.id) 1 = true) ∧
    (workOpen (crypUp 0) app .cryp 0x058 = true ∧ (crypUp 0).cryp.job = none ∧ fld (reg (crypUp 0) .cryp 0x040) 3 0 = 0 ∧
      (crypKey (crypUp 0) (fld (reg (crypUp 0) .cryp 0x040) 10 8)).isSome = true) ∧
    ((List.range 16).all fun a => workOpen (crypUp (word a)) app .cryp 0x058 && fld (reg (crypUp (word a)) .cryp 0x040) 3 0 == a) = true ∧
    (let j : CrypJob := { alg := 4, dec := false, key := [], src := 0x80000000, dst := 0, len := 16, aad := 0, iv := [], tag := [] }
     let s := { crypUp 4 with cryp := { (crypUp 4).cryp with job := some j } }
     s.cryp.job = some j ∧ running s .cryp = true ∧ crypReach j = true) ∧
    (writeOpen (crypUp 4) app .cryp 0x0A0 = true ∧ fld 0x102 2 0 = 2) ∧
    (readOpen (crypUp 4) app .cryp = true ∧ regB (crypUp 4) .cryp 0x044 1 = true) := by
  decide +kernel

theorem witness_UpdateAndResetCommandsComplete :
    (let s := setReg .optb 0x0C8 1 up
     let d := (List.range 16).flatMap fun k => leBytes 4 (regN s .optb (0x0C0 + 4 * k))
     writeOpen s secCore .optb 0x100 = true ∧ optNewValid { s with opt := d } d = true) ∧
    (let s := { up with boot := { up.boot with st := 2 } }
     writeOpen s app .optb 0x108 = true ∧ s.boot.st = 2 ∧ s.rst.active = false) ∧
    (writeOpen up app .optb 0x110 = true ∧ up.boot.st ≠ 2) ∧
    (State.reset.rst.active = true ∧ State.reset.rst.resetN = false ∧ State.reset.rst.tcxo = false ∧ State.reset.rst.backup = false ∧
      State.reset.railsOn = true) ∧
    (writeOpen up app .rstclk 0x044 = true ∧ writeOpen up secCore .rstclk 0x04C = true) ∧
    (unkicked (setReg .rstclk 0x040 0 up) = 0 ∧ unkicked (setReg .rstclk 0x040 1 up) ≠ 0 ∧ up.rst.active = false) ∧
    (regB up .pwr 0x044 31 = false ∧ regB (setRegB .pwr 0x044 31 true up) .pwr 0x044 31 = true) := by
  decide +kernel

theorem witness_ClockAndPowerStateCommandsComplete :
    pllOn (setReg .rstclk 0x050 0x1717 up) 1 = true ∧
    (let s := setReg (.rf 0) 0x004 1 (setReg .crv 0x040 1 up)
     crvMode s ≠ 0 ∧ crvRadio s = 0 ∧ (rfOf s 0).off = false ∧ enabled s (.rf 0) = true ∧
      (rfOf (putRf 0 { rfOf s 0 with unlocked := true } s) 0).unlocked = true ∧ (rfOf (putRf 0 { rfOf s 0 with unlocked := true } s) 0).off = false) ∧
    (writeOpen up app .pwr 0x048 = true ∧
      ((lanternLines up).any fun n => decide (regF up (linePage n) 0x094 12 0 < 25 * regF up .pwr 0x040 25 16)) = false) ∧
    (let s := setRegF .pwr 0x044 25 24 1 (setReg .irqr 0x608 0 (setReg .irqr 0x100 0x10001 (setReg .lseq 0x014 1 (setReg .lseq 0x010 1 up))))
     idleMode (setReg .irqr (0x100 + 4 * 94) 0x10001 s) = true ∧ (List.range 4).any (anyInterrupt (setReg .irqr (0x100 + 4 * 94) 0x10001 s)) = true) ∧
    writeOpen up app .pwr 0x04C = true ∧
    (let s := setReg .pwr 0x050 0x4020 up
     regB s .pwr 0x050 31 = false ∧ regF s .pwr 0x050 7 0 = 32 ∧ regF s .pwr 0x050 15 8 = 64 ∧ regF s .pwr 0x054 5 0 < 50 ∧
      { s with rst := { s.rst with avsHi := 15 } }.rst.avsHi = 15) := by
  decide +kernel

/-- A channel that runs the descriptor at the start of SRAM: 4 bytes from SRAM + 0x100 to SRAM + 0x200, LAST. -/
def dmaUp : State :=
  let put := fun (a v : Nat) (t : State) => memWrite (0x10000000 + a) (leBytes 4 v) t
  setReg .dma 0x108 1 (setReg .dma 0x040 1 (setReg .dma 0x10C 0x10000000 (on .dma (put 0x100 0x44332211 (put 8 0x10000200 (put 4 0x10000100 (put 0 0x04000004 up)))))))

theorem witness_DmaCommandsComplete :
    (let s := on .dma up
     workOpen s app .dma 0x114 = true ∧ dmaHalted s = false ∧ chBit s 0 0 = false) ∧
    (dmaGoes dmaUp 0 = true ∧ (fetchDesc false 0 { st := dmaUp }).stop = none ∧
      (let f := fetchDesc false 0 { st := dmaUp }
       let d := descOf (wordsOf f.data)
       let r := descRun false d (descFuel d) 0 0 { f with data := [] }
       d.bad = false ∧ r.1.stop = none ∧ (dmaPut false 0x1000001C (leBytes 4 0x80000000) r.1).stop = none ∧
        memRead (after (.descComplete { ch := 0 }) dmaUp) 0x10000200 4 = [0x11, 0x22, 0x33, 0x44])) ∧
    (let s := setReg .dma 0x10C 0x01000000 dmaUp
     dmaGoes s 0 = true ∧ (fetchDesc false 0 { st := s }).stop = some (some .unmapped, 0x01000000)) ∧
    (let s := memWrite 0x10000003 [0x90] dmaUp
     dmaGoes s 0 = true ∧ (fetchDesc false 0 { st := s }).stop = none ∧ (descOf (wordsOf (fetchDesc false 0 { st := s }).data)).bad = true) ∧
    (let s := memWrite 0x1000000B [0x01] dmaUp
     let f := fetchDesc false 0 { st := s }
     let d := descOf (wordsOf f.data)
     f.stop = none ∧ d.bad = false ∧ (descRun false d (descFuel d) 0 0 { f with data := [] }).1.stop = some (some .unmapped, 0x01000200)) ∧
    (let s := setReg .dma 0x040 0x80000000 (on .dma up)
     writeOpen s app .dma 0x048 = true ∧ dmaHalted s = true) := by
  decide +kernel

/-- CMDQ with one entry: a write of DET's `IRQ_EN`, or a wait for a bit of it. -/
def cqUp (kind : Nat) : State :=
  let s := on .cmdq up
  { s with cmdq := { s.cmdq with entries := [{ addr := 0x40091010, kind := kind, data := 1, ini := app }] } }

theorem witness_QueueCommandsComplete :
    (let s := on .cmdq up
     workOpen s app .cmdq 0x04C = true ∧ cqGood 0x40091010 = true ∧ s.cmdq.entries.length < 32) ∧
    (running (cqUp 0) .cmdq = true ∧ cqHalted (cqUp 0) = false ∧ regB (cqUp 0) .cmdq 0x044 29 = false ∧ resetStop false (cqUp 0) 0x40091010 = none ∧
      (busWrite app 0x40091010 1 (cqUp 0)).resp = .ok ∧ cqWaiting (cqUp 0) = false ∧ reg (after (.cqHead false) (cqUp 0)) .det 0x010 = 1) ∧
    ((busRead app 0x40091010 (cqUp 1)).resp = .data 0 ∧ cqMet { addr := 0x40091010, kind := 1, data := 1, ini := app } 0 = false ∧
      cqWaiting (after (.cqHead false) (cqUp 1)) = true) ∧
    (let s := setReg .det 0x010 1 (setReg .cmdq 0x044 0x40000000 (cqUp 1))
     cqWaiting s = true ∧ (busRead app 0x40091010 s).resp = .data 1 ∧ (after .cqWaitPoll s).cmdq.entries = [] ∧ running s .cmdq = true) ∧
    (let s := setReg .cmdq 0x044 0x80000000 (cqUp 1)
     writeOpen s app .cmdq 0x05C = true ∧ cqHalted s = true ∧ s.cmdq.entries ≠ [] ∧ s.cmdq.stalled = []) := by
  decide +kernel

/-- Stream 0 in OVERWRITE mode, with a stream's state. -/
def evqUp (t : EvStream) : State := let s := setReg .evq 0x100 0x80010000 (on .evq up); { s with evq := spPut (fun _ => {}) 0 t s.evq }

theorem witness_StreamCommandsComplete :
    (workOpen (evqUp {}) app .evq 0x120 = true ∧ bit (esCfg (evqUp {}) 0) 31 = true ∧ esCount (evStream (evqUp {}) 0) < 4096) ∧
    (4096 ≤ esCount (evStream (evqUp { w := 4096, pushed := 4096 }) 0) ∧ bit (esCfg (evqUp { w := 4096, pushed := 4096 }) 0) 16 = true) ∧
    (readOpen (evqUp { w := 1, pushed := 1, items := [(0, 7)] }) app .evq = true ∧ esCount (evStream (evqUp { w := 1, pushed := 1, items := [(0, 7)] }) 0) ≠ 0) ∧
    (writeOpen (evqUp {}) app .evq 0x124 = true ∧ (evStream (evqUp { mark := some 0 }) 0).lost = false ∧ (evStream (evqUp { mark := some 0 }) 0).mark = some 0 ∧
      (evStream (evqUp { lost := true }) 0).lost = true) ∧
    (let s := on .evq up
     writeOpen s app .evq 0x100 = true ∧ bit (esCfg s 0) 31 = false ∧ bit (esCfg (plainWrite app .evq 0x100 0x80000000 (answer .ok s)) 0) 31 = true) := by
  decide +kernel

/-- The recorder with a record in slot 1, SEQ 1, CODE 0x8001. -/
def evrUp : State :=
  let s := on .evr up
  memWrite 0x20040040 (evrBytes s { code := 0x8001, pay := [], src := 0, loc := 0 } 1) { s with evr := { s.evr with n := 1 } }

theorem witness_RecorderCommandsComplete :
    (let s := on .evr up
     evrAccepts s = true ∧ workOpen s secCore .evr 0x0B4 = true ∧ bit (regI s .evr 0x0B8 8) 0 = false ∧ fld (regI s .evr 0x080 8) 21 16 ≤ 36 ∧
      s.evr.queue.length < 64) ∧
    (let s := { up with evr := { up.evr with queue := [{ code := 0x8001, pay := [], src := 0, loc := 0 }] } }
     evrScanning s = false ∧ s.evr.gap = none ∧ s.evr.waiting = []) ∧
    (let s := setRegB .evr 0x044 0 true up
     evrScanning s = true ∧ evrValidSlots s = [] ∧ (after .evrScan s).evr.queue.length = 1) ∧
    (let s := up
     let t := setRegB .evr 0x044 0 true (memWrite 0x20040000 (evrBytes s (evrOwn s 0x0004 []) 5) s)
     evrScanning t = true ∧ evrValidSlots t ≠ [] ∧ evrValid (evrRead t 0) = true ∧ evrCode (evrRead t 0) = 0x0004) ∧
    (writeOpen evrUp app .evr 0x0C0 = true ∧ evrHeld evrUp.evr 1 = true ∧ evrValid (evrRead evrUp (evrSlot 1)) = true ∧
      evrSeq (evrRead evrUp (evrSlot 1)) = 1) ∧
    up.railsOn = true := by
  decide +kernel

theorem witness_BusAccessCommandsComplete :
    (regionOf 0x10000000 = some .sram ∧ regionOf 0x20300000 = some .mram ∧ regionOf 0x80000000 = some .dram ∧ sizeOk 0x10000000 64 = true ∧
      (∀ k < 64, wpByte up (0x10000000 + k) = false)) ∧
    (regionOf 0x30000000 = some .nor ∧ sizeOk 0x30000000 4 = true) ∧
    (pageAt 0x40091010 = some .det ∧ 0x40091010 % 0x1000 = 0x010 ∧ writeOpen up app .det 0x010 = true ∧ readOpen up app .det = true ∧
      readPriv app .det 0x010 = false) := by
  decide +kernel

theorem witness_CycleAddsTheIncrement :
    timeLegal up = true ∧ up.pending = [] ∧ clockRuns up = true ∧ enabled up (.tb 0) = true ∧ follow up 0 = 0 ∧ (tbOf up.tb 0).slewLeft = 0 ∧
    writeOpen up app (.tb 0) 0x064 = true ∧ incInRange ((regF up (.tb 0) 0x060 3 0 * 2 ^ 32 + 5 : Nat) : Int) = true ∧
    (State.reset.rst.active = true ∧ State.reset.rst.resetN = false ∧ State.reset.rst.tcxo = false ∧ State.reset.rst.backup = false ∧
      State.reset.railsOn = true) := by
  decide +kernel

/-- A base at the last nanosecond of a second carries into the next. -/
theorem test_second_carries : (tbCycle 0x400000000 { sec := 7, ns := 999999998, frac := 5 }).sec = 8 ∧
    (tbCycle 0x400000000 { sec := 7, ns := 999999998, frac := 5 }).ns = 2 := by decide

theorem witness_WindowAccesses : regionOf 0x40005000 = some .window ∧ pageAt 0x40005000 = none ∧ pageAt 0x40091010 = some .det := by decide

theorem witness_BlockResetRefused :
    (writeOpen up app .memc 0x024 = true ∧ up.rst.active = false) ∧
    (let s := after (.blkRstFull app .det) up
     inReset s .det = true ∧ absentPage .det = false ∧ pageAdmits app .det = true ∧ writeAdmitted app .det 0x024 = true ∧ asleep s .det = false ∧
      keyHolder s .det = 0 ∧ writeIgnored app .det 0x024 = none) := by decide +kernel

theorem witness_StateHalvesAreProtected :
    (let s := setReg .ptab 0x040 0x80000000 up
     regionOf 0x80000080 = some .dram ∧ sizeOk 0x80000080 1 = true ∧ 0x80000080 = regN s .ptab 0x040 + 256 * 0 + 128) ∧
    (let s := setReg .ptab 0x040 0x80000000 up
     regionOf 0x802FFFC0 = some .dram ∧ sizeOk 0x802FFFC0 64 = true ∧ 0x802FFFFF = regN s .ptab 0x040 + 256 * 12287 + 255) := by decide +kernel

/-- A byte of a configuration half is stored. -/
theorem test_config_half_is_stored :
    memByte (after (.memAccess app (.write 0x9000007C [1, 2, 3, 4]) .none) (setReg .ptab 0x040 0x90000000 up)) 0x9000007F = 4 := by decide +kernel

theorem witness_ClaimAnswersTheBestSource :
    readOpen up app .irqr = true ∧ deliverable (setReg .irqr (0x100 + 4 * 94) 0x10001 (setReg .lseq 0x014 1 (setReg .lseq 0x010 1 up))) 0 94 = true := by
  decide +kernel

/-- Of two pending sources of one priority the lower number is claimed. -/
theorem test_claim_lowest_number :
    (let s := setReg .irqr (0x100 + 4 * 95) 0x10001 (setReg .irqr (0x100 + 4 * 94) 0x10001 (setReg .pixb 0x014 1 (setReg .pixb 0x010 1 (setReg .lseq 0x014 1 (setReg .lseq 0x010 1 up)))))
     (after (.irqClaim app 0) s).resp = .data 94) := by decide +kernel

theorem witness_PushedItemIsPopped :
    (readOpen (evqUp {}) app .evq = true ∧ workOpen (evqUp {}) app .evq 0x120 = true ∧ bit (esCfg (evqUp {}) 0) 31 = true ∧
      esCount (evStream (evqUp {}) 0) = 0 ∧ (evStream (evqUp {}) 0).r = (evStream (evqUp {}) 0).w ∧ fld 0x12345678 31 28 ≠ 15) ∧
    (let s := evqUp { w := 8191, r := 8191, pushed := 4096 }
     (evStream s 0).w < 8192 ∧ (evStream s 0).r = (evStream s 0).w) ∧
    esCount (evStream (evqUp { w := 1, pushed := 1, items := [(0, 7)] }) 0) ≠ 0 := by
  decide +kernel

theorem witness_ArbitrationAndClamp :
    (dimWinner up 0 [] 0).1 = 0 ∧
    ((dimWinner (putReq 0 3 { valid := true, acted := true, level := 5 } up) 0 [0, 0, 0, 0, 0xFF00] 0).1 = 3) := by decide +kernel

theorem witness_StoreIsReadBackAndNothingElse :
    regionOf 0x103FFFC0 = some .sram ∧ sizeOk 0x103FFFC0 64 = true ∧ (∀ k < 64, wpByte up (0x103FFFC0 + k) = false ∧ openByte up (0x103FFFC0 + k) = false) := by
  decide +kernel

theorem witness_WrittenRecordIsValid :
    (let s := { up with evr := { up.evr with queue := [{ code := 0x8001, pay := [], src := 0, loc := 0 }] } }
     s.evr.queue = [{ code := 0x8001, pay := [], src := 0, loc := 0 }] ∧ evrScanning s = false ∧ s.evr.gap = none) := by decide +kernel

theorem witness_CommandsTouchTheirOwnPage :
    ownPage (.esPush app 3 0x10000005) = some .evq ∧ ∃ t, exec (.esPush app 3 0x10000005) up = .next t := ⟨rfl, _, rfl⟩

/-- The words of the descriptor at the start of SRAM. -/
def descWs (s : State) : List Word := wordsOf (bytesAt s 0x10000000 32)

theorem witness_InvalidDescriptorStopsItsChannel :
    (dmaGoes dmaUp 0 = true ∧ regN dmaUp .dma (chOff 0 0xC) = 0x10000000 ∧ 5 < fld ((descWs (memWrite 0x10000003 [0x60] dmaUp)).getD 0 0) 31 28 ∧
      dmaGoes (memWrite 0x10000003 [0x60] dmaUp) 0 = true) ∧
    bit ((descWs (memWrite 0x10000003 [0x05] dmaUp)).getD 0 0) 24 = true ∧
    fld ((descWs (memWrite 0x10000000 [0] dmaUp)).getD 0 0) 23 0 = 0 ∧
    (fld ((descWs (memWrite 0x10000003 [0x14] dmaUp)).getD 0 0) 31 28 = 1 ∧ fld ((descWs (memWrite 0x10000003 [0x14] dmaUp)).getD 4 0) 15 0 = 0) ∧
    (bit ((descWs (memWrite 0x10000003 [0] dmaUp)).getD 0 0) 26 = false ∧
      ((descWs (memWrite 0x1000000C [0x10] (memWrite 0x10000003 [0] dmaUp))).getD 3 0).toNat % 32 ≠ 0) ∧
    (fld ((descWs (memWrite 0x10000003 [0x24] dmaUp)).getD 0 0) 31 28 = 2 ∧ ((descWs (memWrite 0x10000014 [2] dmaUp)).getD 5 0).toNat % 4 ≠ 0) ∧
    (workOpen dmaUp app .dma 0x114 = true ∧ dmaHalted dmaUp = false ∧ chBit dmaUp 0 0 = true) := by
  decide +kernel

/-! ### Well-formedness: an ill-formed term for each check -/

/-- A radio frame whose header fits. -/
def rx0 : RadioRx := { src := 1, fc := 0, dsn := 0, key := 0, good := true }
/-- A message whose header fits. -/
def msg0 : ErgMessage := { ackReq := true, flood := none, src := 0x014, dst := 0x015, ttl := 0, session := 1, seq := 1, payload := [] }

theorem test_wf_accepts : ([.regWrite app 0x40008040 1, .setup (List.replicate 8 0), .handover 0 12287, .poll rx0 0, .ergMsg 0 0x10 msg0,
    .vbatMeasure 3000] : List Instr).all Instr.wf = true := by decide +kernel

theorem test_wf_refuses_addresses : ([.regWrite app 0x40008041 1, .regWrite app 0x100000000 1, .memAccess app (.read 0x10000000 0) .none,
    .memAccess app (.write 0xFFFFFFFF [1, 2]) .none, .calChange app 0x400B0102 0] : List Instr).all (fun c => !c.wf) = true := by
  decide +kernel

theorem test_wf_refuses_lengths : ([.mbResponse 0 (List.replicate 257 0) true, .setup [0], .ergRf 0 0 0 true (List.replicate 128 0),
    .ergMsg 0 0x10 { msg0 with payload := List.replicate 1009 0 },
    .linkMessage 0 0 (.cfg 0 []), .linkMessage 0 0 (.st 0 [])] : List Instr).all (fun c => !c.wf) = true := by decide +kernel

theorem test_wf_refuses_numbers : ([.ptLookup .dim 65536 none, .returnPreamble 0 [] 32768 0 0, .returnPreamble 0 (List.replicate 65 0) 0 0 0,
    .handover 0 12288, .lseqRevoke false 12288, .crvHandover 0 12288 false, .returnStream 0 [(2 ^ 32, 0)] 0,
    .pixelReturn 0 [(65536, 0)], .mfFrame .ok [[2 ^ 23]], .xoffRepeat 0 65537, .ergAckTmo 65536,
    .reassemblyTimeout 65536, .linkAckTimeout (2 ^ 32), .vbatMeasure 65536, .rxFrame 0 [] 65537] : List Instr).all (fun c => !c.wf) = true := by
  decide +kernel

theorem test_wf_refuses_radio : ([.status { rx0 with fc := 2 ^ 32 } none 0 0 0, .sensor rx0 none 256 0 0 0, .poll { rx0 with dsn := 256 } 0,
    .joinReq { via := 0, eui := 2 ^ 64, jctr := 0, mic := true, flags := 0, pollS := 0 },
    .keyReq { via := 0, eui := 0, jctr := 0, mic := true, flags := 256, pollS := 0 }, .reparent { rx0 with key := 256 } none 1,
    .nack rx0 none 65536 0 0, .ergRf 65536 0 0 true []] : List Instr).all (fun c => !c.wf) = true := by decide +kernel

theorem test_wf_refuses_messages : ([.ergAck 0 { msg0 with src := 4096 }, .ergMsg 0 256 msg0, .hello 0 (2 ^ 48) 0 msg0,
    .linkMessage 0 (2 ^ 32) .switchReq, .linkMessage 0 0 (.heartbeat 0 1000000000 true 0), .linkMessage 0 0 (.preEmph 0 16),
    .linkMessage 0 0 (.nupd (2 ^ 24) [0]), .linkMessage 0 0 (.flood 4096 0)] : List Instr).all (fun c => !c.wf) = true := by decide +kernel

/-! ### Hypotheses met by concrete states -/

theorem witness_NandContactorAndEdgeCommandsComplete :
    (let s := setRegI .memc 0x084 app.id 0x10000000 (on .memc up)
     workOpen s app .memc 0x088 = true ∧ nandBusy s app.id = false ∧ (regI s .memc 0x080 app.id).toNat < 1048576 ∧
      (regI s .memc 0x084 app.id).toNat % 64 = 0 ∧ inRam (regI s .memc 0x084 app.id).toNat 4096 = true ∧
      app.id.val ∈ nandWriters (regI s .memc 0x080 app.id).toNat) ∧
    (let s := setRegI .memc 0x080 secCore.id 1048575 (on .memc up)
     workOpen s secCore .memc 0x088 = true ∧ (regI s .memc 0x080 secCore.id).toNat < 1048576) ∧
    (let o : NandOp := { ini := 9, kind := 1, page := 0, buf := 0x10000000 }
     ({ up with nand := { up.nand with ops := [o] } }).nand.ops = [o] ∧ o.ini = (9 : Fin 10).val) ∧
    (let s := setReg .cont 0x040 0xFF (on .cont up)
     let t : State := { s with cont := { s.cont with armed := some (true, 7) } }
     writeOpen s app .cont 0x044 = true ∧ fld 0x41000017 31 24 = 0x41 ∧ quiescing s .cont = false ∧ contReady s (fld 0x41000017 2 0) = true ∧
      writeOpen t app .cont 0x048 = true ∧ fld 0x46000017 31 24 = 0x46 ∧ contReady t (fld 0x46000017 2 0) = true ∧
      t.cont.armed = some (bit 0x46000017 4, fld 0x46000017 2 0) ∧ t.cont.armed.isSome = true) ∧
    (contPulse { up with cont := { up.cont with pulse := [(7, some (true, 1))] } } 7).isSome = true := by decide +kernel

theorem witness_EveryStepKeepsTimeLegal :
    timeLegal up = true ∧ (∃ t, step up = .next t) ∧ ∃ t, step { up with pending := [.incCommit app 0 0x04000000] } = .next t :=
  ⟨by decide +kernel, ⟨_, rfl⟩, ⟨_, rfl⟩⟩

theorem witness_RefusedAccessHasNoEffect :
    absentPage .usbd = false ∧ pageAdmits { id := 5 } .usbd = false ∧ absentPage .sec = false ∧ pageAdmits { id := 9 } .sec = false ∧
    (absentPage .sys = false ∧ writeAdmitted { id := 0 } .sys 0x040 = false) ∧ absentPage .oasis = false ∧ readPriv { id := 0 } .oasis 0x260 = true := by
  decide +kernel

/-! ### The manual's worked examples -/

/-- The slots of the example "a guess withdrawn" (R163, R230): LEVEL, REVOKE, and the compensating LEVEL. -/
theorem test_lantern_slots :
    lanternSlot 1 6 0xCCCC 1 = 0x16CCCC47 ∧ lanternSlot 4 7 6 0 = 0x4700062E ∧ lanternSlot 1 7 0xBA5E 0 = 0x17BA5E0F ∧
    lanternSlot 1 8 0xBA5E 0 = 0x18BA5E0E := by decide +kernel

/-- The return slots of the example "proving a dim lantern" (R170), and the first with one bit changed. -/
theorem test_return_slots :
    returnCheck 0xCA800542 0x4E20 = true ∧ returnCheck 0xCB800541 0x4E20 = true ∧ returnCheck 0xCA800542 0x4E21 = false := by
  decide +kernel

/-- Lantern 209 in a round on circuit 1 (R337, R338): D, and the signs of chips 0 to 4 under code 5. -/
theorem test_attribution_chips :
    attrStep 47710 = 954 ∧ (List.range 5).map (attrPlus 5) = [false, true, true, true, true] := by decide +kernel

/-- The message of the handover to the tunnel (R271, R439). -/
def tunnelMsg : ErgMsg where
  ackReq := true
  flood := none
  type := 0x10
  src := 0x014
  dst := 0x015
  ttl := 0
  session := 0x2F4C1008
  seq := 0x1A2F
  payload := [0x01417041, 0x00240000, 0x3B9BB09A, 0x8A, 0x3B9B752C, 0].flatMap (beBytes 4)

theorem test_erg_message : (ergBytes tunnelMsg).take 24 =
    ([0x18, 0x10, 0x00, 0x18, 0x01, 0x40, 0x15, 0x00, 0x2F, 0x4C, 0x10, 0x08, 0x00, 0x00, 0x1A, 0x2F, 0x01, 0x41, 0x70, 0x41, 0x00, 0x24, 0x00,
      0x00] : List Byte) ∧ (ergBytes tunnelMsg).length = 40 := by decide +kernel

/-- The entry time of the car (R270): 8,500 dm on at 138 dm/s. -/
theorem test_entry_time : passAt { x := 6500, t := 0x3B9AC000, v := 138, dir := 1 } 15000 1 false = 0x3B9BB09A := by decide +kernel

/-- The calendar of the example "setting the RTC" (R485). -/
theorem test_calendar : calDate 953315200 = 0x001E0311 ∧ calTime 953315200 = 0x00112E28 := by decide +kernel

/-- The slots of the example "reading Harbour Road's record" (R585). -/
theorem test_recorder_slots :
    (let e : Evr := { State.reset.evr with c := 10768, n := 50768 }
     evrSlot (11000 - e.c) = 232 ∧ evrHeld e 11000 = true ∧ evrHeld e 20000 = false ∧ evrHeld e 35409 = true ∧
      evrSlot (35409 - e.c) = 9281 ∧ evrSlot (50768 - e.c) = 9280 ∧ evrBase + 64 * 232 = 0x20043A00) := by decide +kernel

/-- The trace stream overtaken (R578, R579): the push over the mark loses it, and REWIND then goes to the oldest item. -/
theorem test_mark_lost :
    (let s0 := setReg .evq 0x280 0x80010000 (on .evq up)
     let s := putStream 6 { w := 0x1100, r := 0x0164, pushed := 4096, mark := some 0x0100 } s0
     let t := (esPush 6 5 s).2
     (evStream t 6).mark = none ∧ (evStream t 6).lost = true ∧ (evStream (esRewind 6 (esStore 6 5 t)) 6).r = 0x0102) := by
  decide +kernel

/-- The location code of a page's own error (R598, R599), for the serial of the Quayside tunnel's unit B. -/
theorem test_location_code : locOfPage 0x7A3C .ptab = 0x7A3C1300FFFFFFFF := by decide +kernel

end Sys2Proof.Tests
end

section
/-! SUPPORT. Claims of the interrupt router: what a read of `CLAIM_t` does, and which source it answers (R46, R47). -/
namespace Sys2Proof.Machine

/-- A claim with nothing to deliver answers 0x1FF and changes nothing else. -/
theorem exec_irqClaim_none {s : State} {ini : Ini} {t : Fin 9} (h : readOpen s ini .irqr = true) (hb : bestSource s t.val = none) :
    exec (.irqClaim ini t) s = .next (answer (.data 0x1FF) s) :=
  admrNext' h (by simp only [irqClaim, hb]) rfl rfl

/-- A claim answers the best source and marks it claimed by the target. -/
theorem exec_irqClaim_some {s : State} {ini : Ini} {t : Fin 9} {n : Nat} (h : readOpen s ini .irqr = true)
    (hb : bestSource s t.val = some n) :
    exec (.irqClaim ini t) s =
      .next { answer (.data (word n)) s with claims := spPut (fun _ => 0) n (t.val + 1) s.claims } :=
  admrNext' h (by simp only [irqClaim, hb]; rfl) rfl rfl

/-- A source that a target has claimed is not pending. -/
theorem srcPending_of_claimed {s : State} {n t : Nat} (h : spGet (fun _ => 0) s.claims n = t + 1) : srcPending s n = false := by
  simp [srcPending, claimed, h]

/-- Settles O51: the claim takes `bestSource`, and `best_some` says that it is the best of the deliverable ones. -/
theorem claimAnswersTheBestSource : Obligations.ClaimAnswersTheBestSource := by
  intro s ini t h
  refine ⟨fun hn => exec_irqClaim_none h (best_none.mpr hn), fun m hm hd => ?_⟩
  cases hb : bestSource s t.val with
  | none => simp [best_none.mp hb m hm] at hd
  | some n =>
    obtain ⟨hn, hdel, hmax, hfirst⟩ := best_some hb
    have hclaim : spGet (fun _ => 0) (spPut (fun _ => 0) n (t.val + 1) s.claims) n = t.val + 1 := spGet_spPut_self ..
    exact ⟨n, hn, hdel, hmax, hfirst, _, exec_irqClaim_some h hb, rfl, hclaim, srcPending_of_claimed hclaim⟩

end Sys2Proof.Machine
end

section
/-! SUPPORT. Loads and stores of memory as commands (R20, R21, R50, R630). -/
namespace Sys2Proof.Machine

/-- A store to writable memory that MEMC lets through writes its bytes and answers. -/
theorem exec_store {s : State} {ini : Ini} {a : Nat} {bs : List Byte} {r : Region} (h : regionOf a = some r)
    (hr : r = .sram ∨ r = .mram ∨ r = .dram) (hs : sizeOk a bs.length = true) (hw : ∀ k < bs.length, wpByte s (a + k) = false) :
    exec (.memAccess ini (.write a bs) .none) s = .next (answer .ok (memWrite a bs s)) := by
  rw [wr_eq (busStore_mem h hr hs hw), settleTb_eq (t := answer .ok (memWrite a bs s)) (memWrite_pending ..)]

/-- A load of memory that the initiator may read answers the bytes there. -/
theorem busLoad_memory {s : State} {ini : Ini} {a len : Nat} {r : Region} (h : regionOf a = some r) (hr : r ≠ .window)
    (hp : (r = .rom ∨ r = .nor) → ini.id = 8) (hs : sizeOk a len = true) :
    busLoad ini a len s = answer (.bytes (bytesAt s a len)) (used s) := by
  have hp' : ¬((r = .rom ∨ r = .nor) ∧ ini.id ≠ 8) := fun ⟨hm, hi⟩ => hi (hp hm)
  have hl : busLoad ini a len s = memLoad ini a len s := by simp [busLoad, h, hr, hs]
  rw [hl, memLoad, h]
  split
  · next e => cases e
  · next e => exact absurd (Option.some.inj e) hr
  · next e =>
    cases e
    exact if_neg hp'

theorem exec_load {s : State} {ini : Ini} {a len : Nat} {r : Region} (h : regionOf a = some r) (hr : r ≠ .window)
    (hp : (r = .rom ∨ r = .nor) → ini.id = 8) (hs : sizeOk a len = true) :
    exec (.memAccess ini (.read a len) .none) s = .next (answer (.bytes (bytesAt s a len)) (used s)) :=
  rd_eq (busLoad_memory h hr hp hs)

/-- Which bytes are open depends on the registers alone. -/
theorem openByte_of_regs {s t : State} (h : t.regs = s.regs) (a : Nat) : openByte t a = openByte s a := by
  unfold openByte dimWork mirWork regN
  rw [reg_of_regs h, reg_of_regs h, reg_of_regs h]

/-- A read of bytes none of which is open finds what memory holds. -/
theorem bytesAt_eq_of_memByte {s : State} {a : Nat} {bs : List Byte} (ho : ∀ k < bs.length, openByte s (a + k) = false)
    (hm : ∀ k (h : k < bs.length), memByte s (a + k) = bs[k]) : bytesAt s a bs.length = bs := by
  refine List.ext_getElem (by simp [bytesAt]) fun k _ hk => ?_
  simp [bytesAt, ho k hk, hm k hk]

/-- Settles O54, from the laws of `memWrite`: each byte written reads back, every other address and the registers stay. -/
theorem storeIsReadBackAndNothingElse : Obligations.StoreIsReadBackAndNothingElse := by
  intro s ini a bs r h hr hs hw
  have hback : ∀ k (hk : k < bs.length), memByte (answer .ok (memWrite a bs s)) (a + k) = bs[k] :=
    fun k hk => memByte_memWrite_self bs a k s hk
  refine ⟨_, exec_store h hr hs hw, hback, fun b hb => memByte_memWrite_other bs a b s hb, memWrite_regs .., memWrite_tb ..,
    memWrite_pending .., memWrite_wf bs a, fun ho => ?_⟩
  have ho' : ∀ k < bs.length, openByte (answer .ok (memWrite a bs s)) (a + k) = false := fun k hk =>
    (openByte_of_regs (memWrite_regs bs a s) _).trans (ho k hk)
  refine ⟨_, exec_load h ?_ ?_ hs, by rw [bytesAt_eq_of_memByte ho' hback]; rfl⟩
  · rcases hr with rfl | rfl | rfl <;> decide
  · rcases hr with rfl | rfl | rfl <;> simp

end Sys2Proof.Machine
end

section
/-! SUPPORT. The frame of the small pages' commands (R25, R31, R45, R47, R52, R56, R64, R565, R576, R579). -/
namespace Sys2Proof.Machine

/-- A push by a processor stays in EVQ. -/
theorem onlyPage_esPushWrite (ini : Ini) {k : Nat} (v : Word) (s : State) (hk : k < 8) : OnlyPage .evq s (esPushWrite ini k v s) :=
  onlyPage_workRequest (op_esPush k _ s hk)

theorem onlyPage_swiSet (v : Word) (s : State) : OnlyPage .irqr s (swiSet v s) := .of_eq rfl rfl rfl rfl

theorem onlyPage_swiClr (v : Word) (s : State) : OnlyPage .irqr s (swiClr v s) := .of_eq rfl rfl rfl rfl

theorem onlyPage_armLapsed {s t : State} (h : execArmLapsed s = .next t) : OnlyPage .cont s t := by
  refine onlyPage_done ?_ h
  split
  · exact (OnlyPage.of_eq rfl rfl rfl rfl).raiseIrq _
  · exact .refl _ _

theorem onlyPage_pulseDone {c : Fin 8} {s t : State} (h : execPulseDone c s = .next t) : OnlyPage .cont s t := by
  refine onlyPage_done ?_ h
  split
  · exact (OnlyPage.of_eq rfl rfl rfl rfl).raiseIrq _
  · exact .refl _ _

theorem onlyPage_holdOffEnd {c : Fin 8} {s t : State} (h : execHoldOffEnd c s = .next t) : OnlyPage .cont s t :=
  onlyPage_done (t := { s with cont := { s.cont with hold := spPut (fun _ => false) c.val false s.cont.hold } })
    (.of_eq rfl rfl rfl rfl) h

theorem onlyPage_rawRxSilence {q : Fin 2} {s t : State} (h : execRawRxSilence q s = .next t) : OnlyPage .ser485 s t := by
  refine onlyPage_done ?_ h
  split
  · exact (OnlyPage.of_eq rfl rfl rfl rfl).raiseIrq _
  · exact .refl _ _

/-- An admitted write whose effect stays in its page, run as a command. -/
theorem onlyPage_write {ini : Ini} {p : Page} {off : Nat} {v : Word} {fx : State → State} {s t : State}
    (h : ∀ s, OnlyPage p s (fx s)) (e : done s (admitWrite ini p off v fx s) = .next t) : OnlyPage p s t :=
  onlyPage_done (onlyPage_admitWrite h s) e

/-- An admitted read whose effect stays in its page, run as a command. -/
theorem onlyPage_read {ini : Ini} {p : Page} {off : Nat} {fx : State → State} {s t : State}
    (h : ∀ s, OnlyPage p s (fx s)) (e : done s (admitRead ini p off fx s) = .next t) : OnlyPage p s t :=
  onlyPage_done (onlyPage_admitRead h s) e

/-- Settles O56, command by command: each is an admitted access, or an event, whose effect stays in its page. -/
theorem commandsTouchTheirOwnPage : Obligations.CommandsTouchTheirOwnPage := by
  intro i p s t hp e
  cases i with
  | irqStatClear ini q v => cases hp; exact onlyPage_write (op_irqStat _ v) e
  | lockKey ini q => cases hp; exact onlyPage_write (op_lock ini _ _) e
  | lockMask ini q v => cases hp; exact onlyPage_write (op_lock ini _ v) e
  | swiSet ini v => cases hp; exact onlyPage_write (onlyPage_swiSet v) e
  | swiClr ini v => cases hp; exact onlyPage_write (onlyPage_swiClr v) e
  | irqClaim ini c => cases hp; exact onlyPage_read (op_irqClaim c.val) e
  | irqDone ini c v => cases hp; exact onlyPage_write (op_irqDone c.val v) e
  | coreRel ini v => cases hp; exact onlyPage_write (op_coreRel v) e
  | nandRead ini => cases hp; exact onlyPage_write (op_nand ini _) e
  | nandProgram ini => cases hp; exact onlyPage_write (op_nand ini _) e
  | nandErase ini => cases hp; exact onlyPage_write (op_nand ini _) e
  | arm ini v => cases hp; exact onlyPage_write (op_contArm v) e
  | fire ini v => cases hp; exact onlyPage_write (op_contFire v) e
  | armLapsed => cases hp; exact onlyPage_armLapsed e
  | pulseDone c => cases hp; exact onlyPage_pulseDone e
  | holdOffEnd c => cases hp; exact onlyPage_holdOffEnd e
  | gpSet ini v => cases hp; exact onlyPage_write (op_gp _) e
  | gpClr ini v => cases hp; exact onlyPage_write (op_gp _) e
  | gpTgl ini v => cases hp; exact onlyPage_write (op_gp _) e
  | rawTxWrite ini q v =>
    cases hp; exact onlyPage_write (fun u => onlyPage_workRequest (op_rawTx q.val v u q.isLt)) e
  | rawRxByte q b => cases hp; exact onlyPage_done (op_rawRx q.val b s q.isLt) e
  | rawRxPop ini q => cases hp; exact onlyPage_read (op_rawRxPop q.val) e
  | rawRxSilence q => cases hp; exact onlyPage_rawRxSilence e
  | chGo ini c => cases hp; exact onlyPage_write (fun u => op_chGo c.val 1 u c.isLt) e
  | clearHalt ini => cases hp; exact onlyPage_write (op_dmaCmd _) e
  | esPush ini k v => cases hp; exact onlyPage_write (fun u => onlyPage_esPushWrite ini v u k.isLt) e
  | esPop ini k => cases hp; exact onlyPage_read (fun u => op_esPop ini k.val u k.isLt) e
  | mark ini k => cases hp; exact onlyPage_write (fun u => op_esCmd k.val 1 u k.isLt) e
  | rewind ini k => cases hp; exact onlyPage_write (fun u => op_esCmd k.val 2 u k.isLt) e
  | esFlush ini k => cases hp; exact onlyPage_write (fun u => op_esCmd k.val 4 u k.isLt) e
  | esEnable ini k v => cases hp; exact onlyPage_write (fun u => op_esCfg ini k.val _ u k.isLt) e
  | _ => cases hp

end Sys2Proof.Machine
end

section
/-! SUPPORT. The header's commands: `BLK_CTRL`, `IRQ_STAT`, `LOCK`, `BLK_RST` and the end of a block reset (R28-R42, R631). -/
namespace Sys2Proof.Machine

/-! ### `BLK_CTRL` -/

/-- The three bits of `BLK_CTRL` pass its mask. -/
theorem bit_and_seven (v : Word) {n : Nat} (h : n < 3) : bit (v &&& 7) n = bit v n := by
  have h7 : bit (7 : Word) n = true := by interval_cases n <;> decide
  rw [bit_and, h7, Bool.and_true]

/-- The bit of `BLK_CTRL` that a command writes. -/
theorem bit_ctrl_self (v : Word) {n : Nat} (b : Bool) (hn : n < 3) : bit (setBit v n b &&& 7) n = b := by
  rw [bit_and_seven _ hn, bit_setBit_self v n b (by omega)]

/-- The other bits of `BLK_CTRL` stay. -/
theorem bit_ctrl_ne (v : Word) {n m : Nat} (b : Bool) (hn : n < 3) (hm : m < 3) (h : m ≠ n) :
    bit (setBit v n b &&& 7) m = bit v m := by
  rw [bit_and_seven _ hm, bit_setBit_ne v n m b (by omega) h]

/-- With EN unlocked a write of `BLK_CTRL` stores its three bits, and does what their changes ask for. -/
theorem ctrlWrite_unlocked {s : State} {p : Page} (h : locked s p 31 = false) (v : Word) :
    ctrlWrite p v s = ctrlReq p (reg s p 0x004) (v &&& 7) (quiesced s p) (asleep s p)
      (ctrlEn p (reg s p 0x004) (v &&& 7) (setReg p 0x004 (v &&& 7) s)) := by
  have hv : ctrlValue s p v = v &&& 7 := if_neg (by rw [h]; decide)
  have he : ¬ (bit (v &&& 7) 0 != bit v 0) = true := by rw [bit_and_seven v (by decide)]; simp
  rw [ctrlWrite, hv, if_neg he]

/-- A command of `BLK_CTRL` whose write is admitted, with EN unlocked. -/
theorem ctrlRow_open {s : State} {ini : Ini} {p : Page} (h : writeOpen s ini p 0x004 = true) (hl : locked s p 31 = false)
    (n : Nat) (b : Bool) :
    ctrlRow ini p n b s = .next (settle s
      (ctrlReq p (reg s p 0x004) (setBit (reg s p 0x004) n b &&& 7) (quiesced s p) (asleep s p)
        (ctrlEn p (reg s p 0x004) (setBit (reg s p 0x004) n b &&& 7)
          (setReg p 0x004 (setBit (reg s p 0x004) n b &&& 7) (answer .ok s))))) :=
  admNext h (ctrlWrite_unlocked (s := answer .ok s) hl _)

section
variable {p : Page} {old new : Word}

theorem ctrlEn_set (h : bit old 0 = false) (hn : bit new 0 = true) (s : State) : ctrlEn p old new s = pageEnable p s := by
  simp [ctrlEn, h, hn]

theorem ctrlEn_clear (h : bit old 0 = true) (hn : bit new 0 = false) (s : State) : ctrlEn p old new s = pageDisable p s := by
  simp [ctrlEn, h, hn]

theorem ctrlEn_same (h : bit new 0 = bit old 0) (s : State) : ctrlEn p old new s = s := by simp [ctrlEn, h]

/-- No request before or after: nothing to do. -/
theorem ctrlReq_none (h2 : bit old 2 = false) (h1 : bit old 1 = false) (n2 : bit new 2 = false) (n1 : bit new 1 = false)
    (quiet : Bool) (s : State) : ctrlReq p old new quiet false s = s := by
  simp [ctrlReq, h2, h1, n2, n1]

/-- A first request, of a block that is neither quiesced nor asleep: the quiesce begins. -/
theorem ctrlReq_begin (h2 : bit old 2 = false) (h1 : bit old 1 = false) (hn : bit new 2 = true ∨ bit new 1 = true) (s : State) :
    ctrlReq p old new false false s = pageQuiesce p s := by
  simp [ctrlReq, h2, h1, hn]

/-- The last request falls, of a block that is awake: QUIESCED clears. -/
theorem ctrlReq_end (ho : bit old 2 = true ∨ bit old 1 = true) (n2 : bit new 2 = false) (n1 : bit new 1 = false)
    (quiet : Bool) (s : State) : ctrlReq p old new quiet false s = pageRelease p (setRegB p 0x008 1 false s) := by
  simp [ctrlReq, ho, n2, n1]

/-- The last request falls, of a block that is asleep: it wakes, and QUIESCED clears. -/
theorem ctrlReq_wake (ho : bit old 2 = true ∨ bit old 1 = true) (n2 : bit new 2 = false) (n1 : bit new 1 = false)
    (quiet : Bool) (s : State) : ctrlReq p old new quiet true s = pageRelease p (setRegB p 0x008 1 false (blkWake p s)) := by
  simp [ctrlReq, ho, n2, n1]

end

/-- A page that neither request asks to quiesce, and that is not QUIESCED. -/
theorem quiescing_false {s : State} {p : Page} (h : quiescing s p = false) :
    bit (reg s p 0x004) 2 = false ∧ bit (reg s p 0x004) 1 = false ∧ quiesced s p = false := by
  simpa [quiescing, regB, and_assoc] using h

/-- Settles O2: `BLK_CTRL` changes one bit, and the page's hook for that change acts. -/
theorem blockControlCommandsComplete : Obligations.BlockControlCommandsComplete := by
  intro s ini p h hl
  have keep {n m : Nat} (b : Bool) (hn : n < 3) (hm : m < 3) (e : m ≠ n) := bit_ctrl_ne (reg s p 0x004) b hn hm e
  have put {n : Nat} (b : Bool) (hn : n < 3) := bit_ctrl_self (reg s p 0x004) b hn
  refine ⟨fun he hq ha => ?enable, fun he hq ha => ?disable, fun hq ha => ?quiesceReq, fun h2 h1 ha => ?quiesceRelease,
    fun hq ha => ?sleepReq, fun h1 h2 ha => ?sleepRelease, fun hm h1 => ?quiesced⟩
  case enable =>
    obtain ⟨h2, h1, -⟩ := quiescing_false hq
    refine (ctrlRow_open h hl 0 true).trans ?_
    rw [ctrlEn_set he (put true (by decide)), ha, ctrlReq_none h2 h1 ((keep true ?_ ?_ ?_).trans h2) ((keep true ?_ ?_ ?_).trans h1)]
    all_goals decide
  case disable =>
    obtain ⟨h2, h1, -⟩ := quiescing_false hq
    refine (ctrlRow_open h hl 0 false).trans ?_
    rw [ctrlEn_clear he (put false (by decide)), ha, ctrlReq_none h2 h1 ((keep false ?_ ?_ ?_).trans h2) ((keep false ?_ ?_ ?_).trans h1)]
    all_goals decide
  case quiesceReq =>
    obtain ⟨h2, h1, hd⟩ := quiescing_false hq
    refine (ctrlRow_open h hl 2 true).trans ?_
    rw [ctrlEn_same (keep true ?_ ?_ ?_), ha, hd, ctrlReq_begin h2 h1 (.inl (put true ?_))]
    all_goals decide
  case quiesceRelease =>
    refine (ctrlRow_open h hl 2 false).trans ?_
    rw [ctrlEn_same (keep false ?_ ?_ ?_), ha, ctrlReq_end (.inl h2) (put false ?_) ((keep false ?_ ?_ ?_).trans h1)]
    all_goals decide
  case sleepReq =>
    obtain ⟨h2, h1, hd⟩ := quiescing_false hq
    refine (ctrlRow_open h hl 1 true).trans ?_
    rw [ctrlEn_same (keep true ?_ ?_ ?_), ha, hd, ctrlReq_begin h2 h1 (.inr (put true ?_))]
    all_goals decide
  case sleepRelease =>
    refine (ctrlRow_open h hl 1 false).trans ?_
    rw [ctrlEn_same (keep false ?_ ?_ ?_), ha, ctrlReq_wake (.inr h1) ((keep false ?_ ?_ ?_).trans h2) (put false ?_), blkWake]
    all_goals decide
  case quiesced => exact evNext (by simp [blkQuiesced, hm, h1])

/-! ### `IRQ_STAT` and `LOCK` -/

/-- A write of `IRQ_STAT` with no key to cancel clears the bits written, and with bit 31 the error record. -/
theorem irqStatWrite_keyless {s : State} {p : Page} (h : keyHolder s p = 0) (v : Word) :
    irqStatWrite p v s =
      (let s1 := setReg p 0x014 (reg s p 0x014 &&& ~~~v) s
       if bit v 31 then clearErr p s1 else s1) := by
  refine cancelKey_none p _ ?_
  split
  · simpa [clearErr, setRegB, keyHolder] using h
  · simpa [keyHolder] using h

/-- The key, while none is armed, arms `LOCK` for its initiator. -/
theorem lockWrite_key {s : State} {ini : Ini} {p : Page} (hk : keyHolder s p = 0) :
    lockWrite ini p 0x4C4B s = armKey p (ini.id.val + 1) s := by
  rw [lockWrite, if_pos rfl, if_pos (.inl hk)]

/-- A mask from the initiator whose key is armed ORs into `LOCK`. -/
theorem lockWrite_mask {s : State} {ini : Ini} {p : Page} {v : Word} (hv : v ≠ 0x4C4B) (hk : keyHolder s p = ini.id.val + 1) :
    lockWrite ini p v s = setReg p 0x020 (reg s p 0x020 ||| v) (armKey p 0 s) := by
  rw [lockWrite, if_neg hv, if_pos hk]

/-! ### `BLK_RST` -/

/-- A `BLK_RST` that is admitted outside a reset episode, by its reach. -/
theorem rstRow_open {s : State} {ini : Ini} {p : Page} (h : writeOpen s ini p 0x024 = true) (ha : s.rst.active = false) (r : Fin 16) :
    rstRow ini p r.val s = doneTb s
      (if r.val = 1 then resetErrors p (answer .ok s)
      else if (r.val != 2 && r.val != 3) || refusesReset p then recErr p errBadReset (answer .ok s)
      else if r.val = 2 then resetDatapath p (answer .ok s) else resetFull p (answer .ok s)) := by
  obtain ⟨hk, hr⟩ := rstv r
  unfold rstRow
  dsimp only
  rw [rst_next s p ini h ha r.val, hk, hr]
  rfl

/-- Reach DATAPATH takes the page into reset. -/
theorem inReset_resetDatapath (p : Page) (s : State) : inReset (resetDatapath p s) p = true := by
  simp [resetDatapath, inReset, timeKept_resetting, enterReset]

/-- Reach FULL takes the page into reset. -/
theorem inReset_resetFull (p : Page) (s : State) : inReset (resetFull p s) p = true := by
  simp [resetFull, inReset, timeKept_resetting, enterReset]

/-- A reach that is none, or that the page refuses, is recorded and nothing else. -/
theorem rstRow_bad {s : State} {ini : Ini} {p : Page} (h : writeOpen s ini p 0x024 = true) (ha : s.rst.active = false) {r : Fin 16}
    (h1 : r.val ≠ 1) (hbad : (r.val ≠ 2 ∧ r.val ≠ 3) ∨ refusesReset p = true) :
    rstRow ini p r.val s = .next (recErr p errBadReset (answer .ok s)) := by
  have hc : ((r.val != 2 && r.val != 3) || refusesReset p) = true := by simpa using hbad
  rw [rstRow_open h ha, if_neg h1, if_pos hc, doneTb_eq (by simp)]

/-- With nothing stalled, the end of a block reset makes the page ready. -/
theorem blockResetDone_unstalled {s : State} {p : Page} (hr : inReset s p = true) (hs : s.stalled = []) :
    blockResetDone p s =
      { pageReady p { s with resetting := spPut (fun _ => false) (pageBase p) false s.resetting } with tb := s.tb } := by
  simp only [blockResetDone, hr, hs]
  rfl

/-- Settles O3, from what each header register's write does. -/
theorem headerStatusCommandsComplete : Obligations.HeaderStatusCommandsComplete := by
  intro s ini p v
  refine ⟨fun h hv => ?statClear, fun h hv => ?statClearErr, fun h hk => ?lockKey, fun h hk hv => ?lockMask,
    fun h ha => ⟨?errors, fun hp => ⟨?datapath, ?full⟩, fun reach hbad => ?badReset⟩, fun hr hs => ?resetDone⟩
  case statClear =>
    have hk := open_keyless h (by decide)
    exact admNext' h ((irqStatWrite_keyless (s := answer .ok s) hk v).trans (if_neg (by simp [hv]))) (by simp) (by simp)
  case statClearErr =>
    have hk := open_keyless h (by decide)
    exact admNext' h ((irqStatWrite_keyless (s := answer .ok s) hk v).trans (if_pos hv)) (by simp) (by simp)
  case lockKey => exact admNext' h (lockWrite_key (s := answer .ok s) hk) rfl rfl
  case lockMask => exact admNext' h (lockWrite_mask (s := answer .ok s) hv hk) rfl rfl
  case errors => exact (rstRow_open h ha 1).trans (doneTb_eq (by simp [resetErrors, clearErr]))
  case datapath =>
    have e : exec (.blkRstDatapath ini p) s = .next (settleTb s (resetDatapath p (answer .ok s))) := by
      refine (rstRow_open h ha 2).trans ?_
      rw [hp]
      rfl
    exact ⟨_, e, inReset_resetDatapath p _, rfl⟩
  case full =>
    have e : exec (.blkRstFull ini p) s = .next (settleTb s (resetFull p (answer .ok s))) := by
      refine (rstRow_open h ha 3).trans ?_
      rw [hp]
      rfl
    exact ⟨_, e, inReset_resetFull p _, rfl⟩
  case badReset =>
    refine rstRow_bad h ha ?_ ?_
    · rcases hbad with hb | hb <;> exact Fin.val_ne_of_ne hb.1
    · exact hbad.imp (fun hb => ⟨Fin.val_ne_of_ne hb.2.1, Fin.val_ne_of_ne hb.2.2⟩) (·.2)
  case resetDone => exact evTb (blockResetDone_unstalled hr hs)

end Sys2Proof.Machine
end

section
/-! SUPPORT. The commands of IRQR, SYS and GPIO's outputs (R45, R47, R49, R58). -/
namespace Sys2Proof.Machine

/-- A completion by the target that holds the claim ends it. -/
theorem irqDone_own {s : State} {t : Nat} {v : Word} (hv : v.toNat < 256) (hc : spGet (fun _ => 0) s.claims v.toNat = t + 1) :
    irqDone t v s = { s with claims := spPut (fun _ => 0) v.toNat 0 s.claims } :=
  if_pos ⟨hv, hc⟩

/-- A write of an output register changes the writable bits of `GP_OUT`, and its bus answer. -/
theorem exec_gpOut {s : State} {ini : Ini} {off : Nat} (h : writeOpen s ini .gpio off = true) (v : Word) (f : Word → Word) :
    done s (admitWrite ini .gpio off v (gpOutWrite f) s) = .next (setReg .gpio 0x044
      ((reg s .gpio 0x044 &&& ~~~(gpWritable s)) ||| (f (reg s .gpio 0x044) &&& gpWritable s &&& 0xFFFF)) (answer .ok s)) :=
  admNext' h rfl rfl rfl

/-- Settles O4: each command is an admitted access with the one effect that the statement names. -/
theorem interruptReleaseAndPinCommandsComplete : Obligations.InterruptReleaseAndPinCommandsComplete := by
  intro s ini v
  refine ⟨fun h => ?swiSet, fun h => ?swiClr, fun t h hb => exec_irqClaim_none h hb, fun t n h hb => exec_irqClaim_some h hb,
    fun t h hv hc => ?done, fun h => ?coreRel, fun h => exec_gpOut h v _, fun h => exec_gpOut h v _, fun h => exec_gpOut h v _⟩
  case swiSet => exact admNext' h rfl rfl rfl
  case swiClr => exact admNext' h rfl rfl rfl
  case done => exact admNext' h (irqDone_own (s := answer .ok s) hv hc) rfl rfl
  case coreRel => exact admNext' h rfl rfl rfl

end Sys2Proof.Machine
end

section
/-! SUPPORT. The NAND port, the contactor drivers and the pin inputs (R51, R52, R55, R56, R59). -/
namespace Sys2Proof.Machine

/-! ### NAND -/

/-- A write with its key is carried out. -/
theorem keyed_match {p : Page} {k : Nat} {v : Word} (h : fld v 31 24 = k) (fx : State → State) (s : State) :
    keyed p k v fx s = fx s := if_pos h

/-- The operation that a NAND port's registers describe. -/
def nandRequest (s : State) (ini : Ini) (kind : Nat) : NandOp :=
  { ini := ini.id.val, kind := kind, page := (regI s .memc 0x080 ini.id).toNat, buf := (regI s .memc 0x084 ini.id).toNat }

/-- An operation that R52 and R54 accept joins the list, and its port shows BUSY. -/
theorem nandCmd_accepted {s : State} {ini : Ini} {kind : Nat} (h0 : kind ≠ 0) (hb : nandBusy s ini.id = false)
    (hp : (regI s .memc 0x080 ini.id).toNat < 1048576)
    (hbuf : kind = 3 ∨ (regI s .memc 0x084 ini.id).toNat % 64 = 0 ∧ inRam (regI s .memc 0x084 ini.id).toNat 4096 = true)
    (hw : kind = 1 ∨ ini.id.val ∈ nandWriters (regI s .memc 0x080 ini.id).toNat) :
    nandCmd ini kind s = setRegI .memc 0x08C ini.id 1
      { s with nand := { s.nand with ops := s.nand.ops ++ [nandRequest s ini kind] } } := by
  have hrange : ¬ (1048576 ≤ (regI s .memc 0x080 ini.id).toNat ||
      (kind != 3 && ((regI s .memc 0x084 ini.id).toNat % 64 != 0 || !inRam (regI s .memc 0x084 ini.id).toNat 4096))) = true := by
    rcases hbuf with rfl | ⟨hm, hr⟩
    · simp; omega
    · simp [hm, hr]; omega
  have hright : ¬ (kind != 1 && !(nandWriters (regI s .memc 0x080 ini.id).toNat).contains ini.id.val) = true := by
    rcases hw with rfl | hw <;> simp [*]
  unfold nandCmd
  dsimp only
  rw [if_neg (by rw [hb]; decide), if_neg h0, if_neg hrange, if_neg hright]
  rfl

/-- A keyed `NAND_CMD` that reaches a port taking work runs its operation's command. -/
theorem nandCmdWrite_open {s : State} {ini : Ini} {v : Word} {kind : Nat} (h : workOpen s ini .memc 0x088 = true)
    (hv : fld v 31 24 = 0x4D ∧ fld v 1 0 = kind) :
    done s (admitWrite ini .memc 0x088 v (nandCmdWrite ini v) s) = done s (nandCmd ini kind (answer .ok s)) := by
  have h' := h
  simp only [workOpen, Bool.and_eq_true, Bool.not_eq_true'] at h'
  obtain ⟨⟨ho, he⟩, hq⟩ := h'
  rw [admitWrite_open ho, nandCmdWrite, keyed_match hv.1, workRequest_open (s := answer .ok s) he hq, hv.2]

/-! ### The contactor drivers -/

/-- ARM of a ready contactor arms the driver that it names. -/
theorem contArm_ready {s : State} {v : Word} (hk : fld v 31 24 = 0x41) (hq : quiescing s .cont = false)
    (hr : contReady s (fld v 2 0) = true) :
    contArm v s = { s with cont := { s.cont with armed := some (bit v 4, fld v 2 0) } } := by
  rw [contArm, keyed_match hk, if_neg (by rw [hq]; decide), if_pos hr]

/-- FIRE of the armed driver of a ready contactor starts its pulse. -/
theorem contFire_armed {s : State} {v : Word} (hk : fld v 31 24 = 0x46) (hq : quiescing s .cont = false)
    (hr : contReady s (fld v 2 0) = true) (ha : s.cont.armed = some (bit v 4, fld v 2 0)) :
    contFire v s = contStart (bit v 4) (fld v 2 0) s := by
  rw [contFire, keyed_match hk, if_neg (by rw [hq]; decide), if_pos ha, if_pos hr]

/-- The count of a driver's pulses touches registers alone. -/
theorem bumpRegF_cont (p : Page) (off hi lo : Nat) (s : State) : (bumpRegF p off hi lo s).cont = s.cont := by
  simp [bumpRegF, setRegF]

theorem bumpRegF_sent (p : Page) (off hi lo : Nat) (s : State) : (bumpRegF p off hi lo s).sent = s.sent := by
  simp [bumpRegF, setRegF]

/-- What the start of a pulse leaves: no driver armed, the pulse running, the coil told, memory as it was. -/
theorem contStart_shows (coil : Bool) (c : Nat) (s : State) :
    (contStart coil c s).cont.armed = none ∧ contPulse (contStart coil c s) c = some (coil, regF s .cont 0x040 15 8) ∧
      (contStart coil c s).sent = s.sent ++ [.coil c coil (regF s .cont 0x040 15 8)] ∧ (contStart coil c s).mem = s.mem ∧
      (contStart coil c s).pending = s.pending ∧ (contStart coil c s).tb = s.tb := by
  cases coil <;> simp [contStart, contPulse, bumpRegF_cont, bumpRegF_sent]

/-! ### The pin inputs -/

/-- An edge that GPIO does not see changes no register and no memory. -/
theorem gpioEdge_unseen {n : Nat} {rising : Bool} {s : State} (h : sees s .gpio = false) :
    (gpioEdge n rising s).regs = s.regs ∧ (gpioEdge n rising s).mem = s.mem := by
  have hs : (!sees s .gpio) = true := by rw [h]; rfl
  rw [gpioEdge, if_pos hs]
  exact ⟨rfl, rfl⟩

/-- A bit of another register is not touched. -/
theorem regB_setRegB_off (p : Page) {a b : Nat} (h : a ≠ b) (n m : Nat) (v : Bool) (s : State) :
    regB (setRegB p a n v s) p b m = regB s p b m := congrArg (bit · m) (reg_setReg_off p h _ s)

/-- `GP_EVT` may set: the level seen and memory are as before. -/
theorem gpEvent_keeps (c : Prop) [Decidable c] (n m : Nat) (s : State) :
    regB (if c then setRegB .gpio 0x068 n true s else s) .gpio 0x054 m = regB s .gpio 0x054 m ∧
      (if c then setRegB .gpio 0x068 n true s else s).mem = s.mem := by
  split
  · exact ⟨regB_setRegB_off .gpio (by decide) n m true s, setRegB_mem ..⟩
  · exact ⟨rfl, rfl⟩

/-- An edge that GPIO sees leaves its level in `GP_IN`'s store, and memory as it was. -/
theorem gpioEdge_seen {n : Nat} {rising : Bool} {s : State} (hn : n < 32) (h : sees s .gpio = true) :
    regB (gpioEdge n rising s) .gpio 0x054 n = rising ∧ (gpioEdge n rising s).mem = s.mem := by
  have hs : ¬ (!sees s .gpio) = true := by rw [h]; decide
  rw [gpioEdge, if_neg hs]
  obtain ⟨hreg, hmem, -, -⟩ := capEdge_frame (19 + n) rising _ 0x054 (by decide)
  refine ⟨(congrArg (bit · n) hreg).trans ((gpEvent_keeps _ n n _).1.trans ?_), hmem.trans ((gpEvent_keeps _ n n _).2.trans ?_)⟩
  · exact regB_setRegB_self _ _ _ _ _ hn
  · exact setRegB_mem ..

/-- Settles O5, from what the NAND port, the drivers and the pins do with a command that meets their conditions. -/
theorem nandContactorAndEdgeCommandsComplete : Obligations.NandContactorAndEdgeCommandsComplete := by
  intro s ini v
  refine ⟨fun kind hk0 h hb hp hbuf hw => ?nand, fun i r o rest ho hi => ?nandDone, fun h hk hq hr => ?arm, fun h hk hq hr ha => ?fire,
    fun h => ?armLapsed, fun c h => ?pulseDone, fun c => ?holdOffEnd, fun n rising => ⟨fun h => ?edgeSeen, fun h => ?edgeUnseen⟩⟩
  case nand =>
    have accepted := nandCmd_accepted (s := answer .ok s) (ini := ini) (kind := kind.val) (Fin.val_ne_of_ne hk0) hb hp
      (hbuf.imp_left (congrArg Fin.val)) (hw.imp_left (congrArg Fin.val))
    have run := evNext' (s := s) accepted (by simp) (by simp)
    match kind, hk0, run with
    | 1, _, run => exact (nandCmdWrite_open h (by decide)).trans run
    | 2, _, run => exact (nandCmdWrite_open h (by decide)).trans run
    | 3, _, run => exact (nandCmdWrite_open h (by decide)).trans run
  case nandDone =>
    have e : nandDone i r s = nandFinish i o r { s with nand := { s.nand with ops := rest } } := by
      simp only [nandDone, ho, hi, if_true]
    obtain ⟨hops, hbusy, hdone⟩ := nandFinish_ns i o r { s with nand := { s.nand with ops := rest } }
    exact ⟨_, evNext e, hops, hbusy, hdone⟩
  case arm => exact admNext' h (contArm_ready (s := answer .ok s) hk hq hr) rfl rfl
  case fire =>
    obtain ⟨harmed, hpulse, hsent, hmem, hpend, htb⟩ := contStart_shows (bit v 4) (fld v 2 0) (answer .ok s)
    exact ⟨_, admNext' h (contFire_armed (s := answer .ok s) hk hq hr ha) hpend htb, harmed, hpulse, hsent, hmem⟩
  case armLapsed => exact evNext' (if_pos h) (by simp) (by simp)
  case pulseDone =>
    refine ⟨_, evNext' (if_pos h) (by simp) (by simp), ?_, ?_, regB_raiseIrq _ _ _ (by decide), by simp⟩
    · simp [contPulse, raiseIrq, setRegB]
    · simp [contHold, raiseIrq, setRegB]
  case holdOffEnd => exact ⟨_, evNext' rfl rfl rfl, by simp [contHold], rfl, rfl⟩
  case edgeSeen =>
    obtain ⟨hlevel, hmem⟩ := gpioEdge_seen (rising := rising) (n := n.val) (by omega) h
    exact ⟨_, evNext rfl, hlevel, hmem⟩
  case edgeUnseen =>
    obtain ⟨hregs, hmem⟩ := gpioEdge_unseen (rising := rising) (n := n.val) h
    exact ⟨_, evNext rfl, hregs, hmem⟩

end Sys2Proof.Machine
end

section
/-! SUPPORT. The commands of SER485: Modbus transactions and the raw FIFOs (R61-R64). -/
namespace Sys2Proof.Machine

/-! ### Modbus -/

/-- A valid transaction on a free Modbus port of a unit in control sends its request, and the port is BUSY. -/
theorem mbGo_valid {s : State} {q : Nat} (hb : mbBusy s q = false) (hm : spModbus s q = true) (he : spEn s q = true)
    (hc : inControl s = true)
    (hv : mbValid (fld (reg s .ser485 (0x108 + 0x200 * q)) 31 24) (fld (reg s .ser485 (0x108 + 0x200 * q)) 23 16)
      (regF s .ser485 (0x10C + 0x200 * q) 15 0) = true) :
    mbGo q 1 s =
      (let r := reg s .ser485 (0x108 + 0x200 * q)
       let qty := regF s .ser485 (0x10C + 0x200 * q) 15 0
       let f := mbRequest s q (fld r 31 24) (fld r 23 16) (fld r 15 0) qty
       send (.modbus q f) (setReg .ser485 (0x114 + 0x200 * q) 1 (putSer q { serPort s q with
         txn := some { attempt := 0, fc := fld r 31 24, slave := fld r 23 16, addr := fld r 15 0, qty := qty, frame := f } } s))) := by
  unfold mbGo
  dsimp only
  rw [if_neg (by rw [hb]; decide), if_neg (by decide), if_neg (by rw [hm, hv]; decide), if_neg (by rw [he]; decide),
    if_neg (by rw [hc]; decide)]

/-- A first failed attempt of a unit in control sends the request once more (R16, R63). -/
theorem mbAttemptFailed_first {s : State} {x : MbTxn} (q cause : Nat) (ha : x.attempt = 0) (hc : inControl s = true) :
    mbAttemptFailed q cause x s =
      send (.modbus q x.frame) (putSer q { serPort s q with txn := some { x with attempt := 1 } } s) := by
  rw [mbAttemptFailed, if_neg (by simp [hc]), if_pos ha]

/-- A second failed attempt ends the transaction with its cause. -/
theorem mbAttemptFailed_last {s : State} {x : MbTxn} (q cause : Nat) (ha : x.attempt ≠ 0) :
    mbAttemptFailed q cause x s = mbEnd q cause 0 false (bumpRegF .ser485 (0x118 + 0x200 * q) 31 16 s) := by
  rw [mbAttemptFailed, if_neg (by simp [ha]), if_neg ha]

/-- What the end of a transaction shows: the port free, the result in `MB_STAT`, memory as it was. -/
def MbShows (q : Nat) (w : Word) (s t : State) : Prop :=
  mbBusy t q = false ∧ reg t .ser485 (0x114 + 0x200 * q) = w ∧ t.mem = s.mem

/-- A valid answer ends the transaction with its result, and says whether it took the retry. -/
theorem mbAnswered_shows {q : Nat} (hq : q < 2) (result exc : Nat) (x : MbTxn) (s : State) :
    MbShows q (word (result * 2 ^ 28 + exc * 2 ^ 16 + b01 (x.attempt != 0) * 256 + 2)) s (mbAnswered q result exc x s) := by
  unfold mbAnswered
  split
  · next h =>
    rw [show (x.attempt != 0) = false by simp [h]]
    exact mbEnd_shows q result exc false s hq
  · next h =>
    obtain ⟨hb, hr, hm⟩ := mbEnd_shows q result exc true (bumpRegF .ser485 (0x118 + 0x200 * q) 15 0 s) hq
    rw [show (x.attempt != 0) = true by simp [h]]
    exact ⟨hb, hr, hm.trans (bumpRegF_mem ..)⟩

/-- A function code of a normal answer is not that of an exception (R63). -/
theorem leBytes_exception_ne (fc : Nat) : leBytes 1 (fc + 0x80) ≠ leBytes 1 fc := by
  simp only [leBytes, ne_eq, List.cons.injEq, and_true]
  intro h
  have := congrArg BitVec.toNat h
  simp only [BitVec.toNat_ofNat] at this
  omega

/-- A frame that ends with its CRC, of a body that matches the request, is answered with OK. -/
theorem mbResponse_match {s : State} {q : Nat} {x : MbTxn} {body : List Byte} (hx : (serPort s q).txn = some x) (hs : x.slave ≠ 0)
    (hl : 2 ≤ body.length) (hm : mbMatches x body = true) :
    mbResponse q (rtuFrame body) true s =
      if x.fc = 3 ∨ x.fc = 4 then mbAnswered q 0 0 x (mbStore q (body.drop 3) s x.qty) else mbAnswered q 0 0 x s := by
  have hlen : (rtuFrame body).length - 2 = body.length := by simp [rtuFrame, leBytes_length]
  have hbody : (rtuFrame body).take body.length = body := by simp [rtuFrame]
  have hcrc : (rtuFrame body).drop body.length = leBytes 2 (crc16 body) := by simp [rtuFrame]
  have hframe : ¬ (!true || decide ((rtuFrame body).length < 4) || leBytes 2 (crc16 body) != leBytes 2 (crc16 body)) = true := by
    simp; omega
  have hnormal : ¬ (body.take 2 == leBytes 1 x.slave ++ leBytes 1 (x.fc + 0x80) && body.length == 3) = true := by
    intro h
    simp only [mbMatches, Bool.and_eq_true, beq_iff_eq] at h hm
    exact leBytes_exception_ne x.fc (List.append_cancel_left (h.1.symm.trans hm.1))
  unfold mbResponse
  rw [hx]
  dsimp only
  rw [if_neg hs, hlen, hbody, hcrc, if_neg hframe, if_neg hnormal, if_pos hm]

/-- A frame whose framing is bad fails its attempt with the cause CRC. -/
theorem mbResponse_badFraming {s : State} {q : Nat} {x : MbTxn} (hx : (serPort s q).txn = some x) (hs : x.slave ≠ 0)
    (frame : List Byte) : mbResponse q frame false s = mbAttemptFailed q 2 x s := by
  unfold mbResponse
  rw [hx]
  dsimp only
  rw [if_neg hs, if_pos (by simp)]

/-- A response timeout is a failed attempt with the cause TIMEOUT. -/
theorem exec_mbRespTimeout {s : State} {q : Fin 2} {x : MbTxn} (hx : (serPort s q.val).txn = some x) (hs : x.slave ≠ 0) :
    exec (.mbRespTimeout q) s = .next (settle s (mbAttemptFailed q.val 1 x s)) :=
  evNext (by simp only [hx, if_neg hs])

/-- A broadcast ends with OK after TURN. -/
theorem exec_mbTurnDone {s : State} {q : Fin 2} {x : MbTxn} (hx : (serPort s q.val).txn = some x) (hs : x.slave = 0) :
    exec (.mbTurnDone q) s = .next (settle s (mbEnd q.val 0 0 false s)) :=
  evNext (by simp only [hx, if_pos hs])

/-! ### The raw FIFOs -/

theorem rawTx_room {s : State} {q : Nat} {v : Word} (hm : spModbus s q = false) (he : spEn s q = true) (hc : inControl s = true)
    (hl : (serPort s q).tx.length < 256) :
    rawTx q v s = putSer q { serPort s q with tx := (serPort s q).tx ++ [BitVec.ofNat 8 v.toNat] } s := by
  rw [rawTx, if_neg (by rw [hm]; decide), if_neg (by rw [he, hc]; decide)]
  exact if_pos hl

theorem rawRx_room {s : State} {q : Nat} {b : Byte} (hm : spModbus s q = false) (he : spEn s q = true)
    (hw : working s .ser485 = true) (hl : (serPort s q).rx.length < 256) :
    rawRx q b s = putSer q { serPort s q with rx := (serPort s q).rx ++ [b], rxSince := true } s := by
  rw [rawRx, if_pos (by rw [hm, he, hw]; decide)]
  exact if_pos hl

theorem rawRxPop_empty {s : State} {q : Nat} (h : (serPort s q).rx = []) : rawRxPop q s = answer (.data 0x100) s := by
  simp only [rawRxPop, h]

theorem rawRxPop_byte {s : State} {q : Nat} {b : Byte} {r : List Byte} (h : (serPort s q).rx = b :: r) :
    rawRxPop q s = answer (.data (word b.toNat)) (putSer q { serPort s q with rx := r } s) := by
  simp only [rawRxPop, h]

/-- Settles O6, from what each step of a transaction and of the raw FIFOs does. -/
theorem serialPortCommandsComplete : Obligations.SerialPortCommandsComplete := by
  intro s ini q
  refine ⟨fun h hb hm he hc hv => ?go, fun x body hx hs hl hm => ?response, fun x frame hx hs ha hc => ?badFrame,
    fun x hx hs ha hc => ?retry, fun x hx hs ha => ?timeout, fun x hx hs => ?broadcast, fun v h hm he hc hl => ?rawTx,
    fun b hm he hw hl => ?rawRx, fun b r h hr => ?pop, fun h hr => ?popEmpty, fun h => ?silence⟩
  case go => exact admwNext' h (mbGo_valid (s := answer .ok s) hb hm he hc hv) (by simp) (by simp)
  case response =>
    have e := mbResponse_match hx hs hl hm
    split at e
    · obtain ⟨hb, hr, hmem⟩ := mbAnswered_shows q.isLt 0 0 x (mbStore q (body.drop 3) s x.qty)
      exact ⟨_, evNext e, hb, by simpa using hr, hmem.trans (mbStore_mem ..)⟩
    · obtain ⟨hb, hr, hmem⟩ := mbAnswered_shows q.isLt 0 0 x s
      exact ⟨_, evNext e, hb, by simpa using hr, hmem⟩
  case badFrame =>
    exact evNext' ((mbResponse_badFraming hx hs frame).trans (mbAttemptFailed_first q.val 2 ha hc)) (by simp) (by simp)
  case retry =>
    rw [exec_mbRespTimeout hx hs, mbAttemptFailed_first q.val 1 ha hc]
    rfl
  case timeout =>
    have e := exec_mbRespTimeout hx hs
    rw [mbAttemptFailed_last q.val 1 ha] at e
    obtain ⟨hb, hr, hmem⟩ := mbEnd_shows q.val 1 0 false (bumpRegF .ser485 (0x118 + 0x200 * q.val) 31 16 s) q.isLt
    exact ⟨_, e, hb, hr.trans (by decide), hmem.trans (bumpRegF_mem ..)⟩
  case broadcast =>
    obtain ⟨hb, hr, hmem⟩ := mbEnd_shows q.val 0 0 false s q.isLt
    exact ⟨_, exec_mbTurnDone hx hs, hb, hr.trans (by decide), hmem⟩
  case rawTx => exact admwNext' h (rawTx_room (s := answer .ok s) hm he hc hl) rfl rfl
  case rawRx => exact evNext' (rawRx_room hm he hw hl) rfl rfl
  case pop => exact admrNext' h (rawRxPop_byte hr) rfl rfl
  case popEmpty => exact admrNext' h (rawRxPop_empty hr) rfl rfl
  case silence => exact evNext' (if_pos h) (by simp) (by simp)

end Sys2Proof.Machine
end

section
/-! SUPPORT. USBD's endpoints and bus events (R66-R68, R37). -/
namespace Sys2Proof.Machine

/-! ### Endpoints -/

/-- An arm with a legal buffer sets `EP_STAT_e` to ARMED alone. -/
theorem epArm_legal {s : State} {e : Nat} {noZlp : Bool} (ha : epArmed s e = false)
    (hb : regN s .usbd (0x080 + 0x10 * e) % 64 = 0)
    (hr : inRam (regN s .usbd (0x080 + 0x10 * e)) (regN s .usbd (0x084 + 0x10 * e)) = true)
    (hl : regN s .usbd (0x084 + 0x10 * e) ≤ 65536) :
    epArm e noZlp s = setReg .usbd (0x08C + 0x10 * e) 0x10000000 { s with usb := { s.usb with
      noZlp := spPut (fun _ => false) e noZlp s.usb.noZlp, stall := spPut (fun _ => false) e false s.usb.stall } } := by
  unfold epArm
  dsimp only
  rw [if_neg (by rw [ha]; decide), if_neg (by simp [hb, hr]; omega)]

/-- What a STALL leaves: the endpoint answers with STALL, `EP_STAT_e` shows it, memory is as it was. -/
theorem epStall_shows (e : Nat) (s : State) :
    spGet (fun _ => false) (epStall e s).usb.stall e = true ∧ regB (epStall e s) .usbd (0x08C + 0x10 * e) 30 = true ∧
      (epStall e s).mem = s.mem := by
  exact ⟨by simp [epStall], regB_setRegB_self _ _ _ _ _ (by decide), by simp [epStall]⟩

/-- A finished IN transfer sends its bytes and shows DONE with its count. -/
theorem epDone_in {s : State} {e : Nat} (ha : epArmed s e = true) (hs : spGet (fun _ => false) s.usb.stall e = false)
    (he : e % 2 = 0) (data : List Byte) (short : Bool) :
    (epDone e data short s).mem = s.mem ∧
      reg (epDone e data short s) .usbd (0x08C + 0x10 * e) = word (2 ^ 31 + regN s .usbd (0x084 + 0x10 * e)) ∧
      (epDone e data short s).sent = s.sent ++ [.usbIn e
        (memRead s (regN s .usbd (0x080 + 0x10 * e)) (regN s .usbd (0x084 + 0x10 * e)))
        (decide (regN s .usbd (0x084 + 0x10 * e) % epPacket s e = 0) && !(spGet (fun _ => false) s.usb.noZlp e))] := by
  unfold epDone
  dsimp only
  rw [if_neg (by rw [ha, hs]; decide), if_pos he]
  refine ⟨(addr_same _ _).2.1.trans (by simp), (reg_of_regs (addr_same _ _).1 _ _).trans ?_, (addr_same _ _).2.2.trans (by simp)⟩
  rw [reg_raiseIrq_off _ _ _ _ (by omega), reg_setReg_self]

/-- A finished OUT transfer of its full length stores its bytes and shows DONE with its count. -/
theorem epDone_out {s : State} {e : Nat} {data : List Byte} (ha : epArmed s e = true)
    (hs : spGet (fun _ => false) s.usb.stall e = false) (he : e % 2 = 1)
    (hd : data.length = regN s .usbd (0x084 + 0x10 * e)) (short : Bool) :
    (epDone e data short s).sent = s.sent ∧
      reg (epDone e data short s) .usbd (0x08C + 0x10 * e) = word (2 ^ 31 + data.length) ∧
      (epDone e data short s).mem = (memWrite (regN s .usbd (0x080 + 0x10 * e)) data s).mem := by
  have hshort : (short && decide (data.length < data.length)) = false := by simp
  unfold epDone
  dsimp only
  rw [if_neg (by rw [ha, hs]; decide), if_neg (by omega), ← hd, List.take_length, hshort]
  refine ⟨(addr_same _ _).2.2.trans (by simp), (reg_of_regs (addr_same _ _).1 _ _).trans ?_, (addr_same _ _).2.1.trans (by simp)⟩
  rw [reg_raiseIrq_off _ _ _ _ (by omega), reg_setReg_self]
  rfl

/-- A list of the right length is its own padding. -/
theorem takePad_eq {n : Nat} {l : List Byte} (h : l.length = n) : takePad n l = l := by
  rw [takePad, ← h, List.take_left]

/-- A SETUP latches its eight bytes and raises its interrupt. -/
theorem usbSetup_shows {s : State} {bytes : List Byte} (hb : bytes.length = 8) (hw : working s .usbd = true)
    (hc : regB s .usbd 0x040 0 = true) :
    reg (usbSetup bytes s) .usbd 0x050 = word (leNat (bytes.take 4)) ∧
      reg (usbSetup bytes s) .usbd 0x054 = word (leNat (bytes.drop 4)) ∧ regB (usbSetup bytes s) .usbd 0x014 6 = true ∧
      (usbSetup bytes s).mem = s.mem := by
  unfold usbSetup
  dsimp only
  rw [if_neg (by rw [hw, hc]; decide), takePad_eq hb]
  refine ⟨?_, ?_, regB_raiseIrq _ _ _ (by decide), by simp [(epCancel_keeps _ _).1]⟩
  · rw [reg_raiseIrq_off _ _ _ _ (by decide), reg_setReg_off _ (by decide), reg_setReg_self]
  · rw [reg_raiseIrq_off _ _ _ _ (by decide), reg_setReg_self]

/-- Settles O7, from what each operation of an endpoint does. -/
theorem usbEndpointCommandsComplete : Obligations.UsbEndpointCommandsComplete := by
  intro s ini e
  refine ⟨fun h ha hb hr hl => ?arm, fun h => ?stall, fun data short ha hs he => ?done_in, fun data short ha hs he hd => ?done_out,
    fun bytes hb hw hc => ?setup⟩
  case arm =>
    exact ⟨_, admwNext h (epArm_legal (s := answer .ok s) ha hb hr hl), reg_setReg_self ..,
      (congrArg (bit · 28) (reg_setReg_self ..)).trans (by decide), by simp⟩
  case stall =>
    obtain ⟨hst, hreg, hmem⟩ := epStall_shows e.val (answer .ok s)
    exact ⟨_, admwNext (t := epStall e.val (answer .ok s)) h rfl, hst, hreg, hmem⟩
  case done_in =>
    obtain ⟨hmem, hreg, hsent⟩ := epDone_in ha hs he data short
    exact ⟨_, evNext rfl, hmem, hreg, hsent⟩
  case done_out =>
    obtain ⟨hsent, hreg, hmem⟩ := epDone_out ha hs he hd short
    refine ⟨_, evNext rfl, hsent, hreg, fun k hk => ?_, fun a h => ?_⟩
    · exact (memByte_of_mem hmem _).trans (memByte_memWrite_self data _ k s hk)
    · exact (memByte_of_mem hmem _).trans (memByte_memWrite_other data _ a s h)
  case setup =>
    obtain ⟨hlow, hhigh, hirq, hmem⟩ := usbSetup_shows hb hw hc
    exact ⟨_, evNext rfl, hlow, hhigh, hirq, hmem⟩

/-! ### Bus events -/

/-- What a bus reset of a connected port leaves. -/
theorem usbBusReset_shows {s : State} (hw : working s .usbd = true) (hc : regB s .usbd 0x040 0 = true) (high : Bool) :
    reg (usbBusReset high s) .usbd 0x048 = 0 ∧ regB (usbBusReset high s) .usbd 0x014 7 = true ∧
      (∀ e, e < 6 → epArmed (usbBusReset high s) e = false) ∧ (usbBusReset high s).usb.stall = s.usb.stall ∧
      (usbBusReset high s).mem = s.mem := by
  unfold usbBusReset
  dsimp only
  rw [if_neg (by rw [hw, hc]; decide)]
  obtain ⟨t, ht, hmem, husb, haddr, harm⟩ := epCancelAll (setReg .usbd 0x048 0
    { s with usb := { s.usb with addrPending := none, addrInForce := 0, ctlBusy := false } })
  rw [ht]
  refine ⟨?_, regB_raiseIrq _ _ _ (by decide), fun e he => ?_, by simp [husb], by simpa using hmem⟩
  · rw [reg_raiseIrq_off _ _ _ _ (by decide), setRegF, reg_setReg_off _ (by decide), setRegB, reg_setReg_off _ (by decide), haddr,
      reg_setReg_self]
  · rw [epArmed, regB, reg_raiseIrq_off _ _ _ _ (by omega), setRegF, reg_setReg_off _ (by omega), setRegB,
      reg_setReg_off _ (by omega)]
    exact harm e he

/-- A change of VBUS shows and raises its interrupt. -/
theorem usbVbus_changed {s : State} (h : regB s .usbd 0x044 3 ≠ s.usb.vbus) :
    usbVbus s = raiseIrq .usbd 9 (setRegB .usbd 0x044 3 s.usb.vbus s) := if_neg h

/-- Settles O8, from what each bus event does. -/
theorem usbBusEventsComplete : Obligations.UsbBusEventsComplete := by
  intro s
  refine ⟨fun high hw hc => ?busReset, fun hw hc => ?suspend, fun ha => ?suspendEnd,
    fun present => ⟨fun hs hv => ?vbusSeen, fun hs => ?vbusUnseen⟩⟩
  case busReset =>
    obtain ⟨haddr, hirq, harm, hstall, hmem⟩ := usbBusReset_shows hw hc high
    exact ⟨_, evNext rfl, haddr, hirq, harm, hstall, hmem⟩
  case suspend => exact evNext' (if_pos (by rw [hw, hc]; decide)) (by simp) (by simp)
  case suspendEnd => exact evNext' (if_neg (by rw [ha]; decide)) (by simp) (by simp)
  case vbusSeen => exact evNext' ((if_pos hs).trans (usbVbus_changed hv)) (by simp) (by simp)
  case vbusUnseen => exact evNext' (if_neg (by rw [hs]; decide)) rfl rfl

end Sys2Proof.Machine
end

section
/-! SUPPORT. Accesses to the peripheral window: pages, registers, refusals (R20-R25, R40, R41). -/
namespace Sys2Proof.Machine

/-! ### Stores to memory by `REG_WRITE` -/

/-- A bus answer does not bear on what a write of bytes leaves. -/
theorem memWrite_answer (r : Resp) (bs : List Byte) (a : Nat) (s : State) :
    memWrite a bs (answer r s) = answer r (memWrite a bs s) := by
  induction bs generalizing a s with
  | nil => rfl
  | cons b bs ih => exact ih (a + 1) (memPut a b s)

/-- A `REG_WRITE` at writable memory is a store of the word's bytes (log 44). -/
theorem exec_regWrite_memory {s : State} {ini : Ini} {a : Nat} {v : Word} {r : Region} (h : regionOf a = some r)
    (hr : r = .sram ∨ r = .mram ∨ r = .dram) (hs : sizeOk a (leBytes 4 v.toNat).length = true)
    (hw : ∀ k < (leBytes 4 v.toNat).length, wpByte s (a + k) = false) :
    exec (.regWrite ini a v) s = .next (setMem32 a v (answer .ok s)) := by
  refine (evTb (busStore_mem h hr hs hw)).trans ?_
  rw [settleTb_eq (t := answer .ok (memWrite a (leBytes 4 v.toNat) s)) (memWrite_pending ..), setMem32, memWrite_answer]

/-! ### Accesses to pages -/

/-- A word stored at a page is a write of its register. -/
theorem busStore_page {s : State} {ini : Ini} {a : Nat} {p : Page} (h : pageAt a = some p) (v : Word) :
    busStore ini a (leBytes 4 v.toNat) s = busWrite ini a v s := by
  rw [busStore, if_pos (pageAt_window h), h]
  dsimp only
  rw [if_pos (leBytes_length 4 _), word_leBytes]

/-- A word loaded at a page is a read of its register. -/
theorem busLoad_page {s : State} {ini : Ini} {a : Nat} {p : Page} (h : pageAt a = some p) :
    busLoad ini a 4 s = busRead ini a s := by
  rw [busLoad, if_pos (pageAt_window h), h]
  rfl

/-- An aligned write at a page goes through its admission to the register's effect. -/
theorem busWrite_aligned {s : State} {ini : Ini} {a : Nat} {p : Page} (h : pageAt a = some p) (ha : a % 4 = 0) (v : Word) :
    busWrite ini a v s = admitWrite ini p (a % 0x1000) v (regWrite ini p (a % 0x1000) v) s := by
  rw [busWrite, h]
  exact if_neg (by rw [ha]; decide)

/-- An aligned read at a page: what `readPriv` refuses answers PRIV, all else goes through the page's admission. -/
theorem busRead_aligned {s : State} {ini : Ini} {a : Nat} {p : Page} (h : pageAt a = some p) (ha : a % 4 = 0) :
    busRead ini a s = if readPriv ini p (a % 0x1000) then answer (.err .priv) s
      else admitRead ini p (a % 0x1000) (regRead ini p (a % 0x1000)) s := by
  rw [busRead, h]
  exact if_neg (by rw [ha]; decide)

/-- A `REG_WRITE` at a page that admits it runs the register's effect. -/
theorem exec_regWrite_open {s : State} {ini : Ini} {a : Nat} {p : Page} (h : pageAt a = some p) (ha : a % 4 = 0)
    (ho : writeOpen s ini p (a % 0x1000) = true) (v : Word) :
    exec (.regWrite ini a v) s = .next (settleTb s (regWrite ini p (a % 0x1000) v (answer .ok s))) :=
  evTb (by rw [busStore_page h, busWrite_aligned h ha, admitWrite_open ho])

/-- A load of a register that admits it runs the register's read. -/
theorem exec_regRead_open {s : State} {ini : Ini} {a : Nat} {p : Page} (h : pageAt a = some p) (ha : a % 4 = 0)
    (ho : readOpen s ini p = true) (hp : readPriv ini p (a % 0x1000) = false) :
    exec (.memAccess ini (.read a 4) .none) s = .next (settleTb s (regRead ini p (a % 0x1000) s)) :=
  rd_eq (by rw [busLoad_page h, busRead_aligned h ha, hp, if_neg (by decide), admitRead_open ho])

/-- The map line of `IRQ_EN` is plain: read and write, every bit, no rule. -/
theorem rowOf_irqEn (p : Page) : rowOf p 0x010 = some (rw 0x010) := rfl

/-- A write of `IRQ_EN` sets the enables that the page has. -/
theorem regWrite_irqEn (ini : Ini) (p : Page) (v : Word) (s : State) :
    regWrite ini p 0x010 v s = setReg p 0x010 (v &&& irqMask p) s := by
  have e : plainWrite ini p 0x010 (v &&& irqMask p) s = setReg p 0x010 (v &&& irqMask p) s := by
    rw [plainWrite, rowOf_irqEn]
    exact congrArg (setReg p 0x010 · s) (and_all _)
  have hw : headerWrite ini p 0x010 v s = setReg p 0x010 (v &&& irqMask p) s := e
  unfold regWrite
  dsimp only
  rw [if_pos (show 0x010 < 0x40 by decide), hw]
  split
  · rfl
  · rfl

/-- Settles O42, from what stores, loads and register accesses do once they are admitted. -/
theorem busAccessCommandsComplete : Obligations.BusAccessCommandsComplete := by
  intro s ini a v
  refine ⟨fun bs r h hr hs hw => ⟨exec_store h hr hs hw, fun e => ?regWriteMemory⟩, fun len r h hr hp hs => exec_load h hr hp hs,
    fun p h ha => ⟨fun ho => ⟨exec_regWrite_open h ha ho v, fun he => ?irqEn⟩, fun ho hp => exec_regRead_open h ha ho hp⟩⟩
  case regWriteMemory =>
    subst e
    exact exec_regWrite_memory h hr hs hw
  case irqEn =>
    rw [exec_regWrite_open h ha ho v, he, regWrite_irqEn, settleTb_eq (by simp)]

/-! ### Refusals -/

/-- A write that the page or the register refuses its initiator answers PRIV. -/
theorem admitWrite_refused {s : State} {ini : Ini} {p : Page} {off : Nat} (ha : absentPage p = false)
    (h : pageAdmits ini p = false ∨ writeAdmitted ini p off = false) (v : Word) (fx : State → State) :
    admitWrite ini p off v fx s = answer (.err .priv) s := by
  rcases h with h | h
  · simp [admitWrite, ha, h]
  · exact admitWrite_priv ha h v fx

/-- A read that the page refuses its initiator answers PRIV. -/
theorem admitRead_refused {s : State} {ini : Ini} {p : Page} (ha : absentPage p = false) (h : pageAdmits ini p = false) (off : Nat)
    (fx : State → State) : admitRead ini p off fx s = answer (.err .priv) s := by
  simp [admitRead, ha, h]

/-- Pages are aligned to their 4 KiB: an address gives its offset back. -/
theorem pageBase_add_mod (p : Page) {off : Nat} (h : off < 0x1000) : (pageBase p + off) % 0x1000 = off := by
  have := pageBase_mod p
  omega

theorem pageBase_add_aligned (p : Page) {off : Nat} (h : off % 4 = 0) : (pageBase p + off) % 4 = 0 := by
  have := pageBase_mod p
  omega

/-- Settles O47: a refusal is found before anything is touched; the security page, a register of RSTCLK and the
backup store show that there are refusals. -/
theorem refusedAccessHasNoEffect : Obligations.RefusedAccessHasNoEffect := by
  refine ⟨fun s ini p off v ho h4 ha => ⟨fun h => ?write, fun h => ?read⟩, ?page, ?writePriv, ?readPriv⟩
  case write =>
    refine (evTb (t := answer (.err .priv) s) ?_).trans rfl
    rw [busStore_page (pageAt_in p off ho), busWrite_aligned (pageAt_in p off ho) (pageBase_add_aligned p h4),
      pageBase_add_mod p ho, admitWrite_refused ha h]
  case read =>
    refine (rd_eq (t := answer (.err .priv) s) ?_).trans rfl
    rw [busLoad_page (pageAt_in p off ho), busRead_aligned (pageAt_in p off ho) (pageBase_add_aligned p h4), pageBase_add_mod p ho]
    split
    · rfl
    · next hr => exact admitRead_refused ha (h.resolve_right hr) off _
  case page => exact ⟨{ id := 9 }, .sec, rfl⟩
  case writePriv => exact ⟨{ id := 9 }, .rstclk, 0x04C, rfl⟩
  case readPriv => exact ⟨{ id := 9 }, .oasis, 0x260, rfl⟩

/-! ### The window -/

/-- Every page lies above the start of the window. -/
theorem le_pageBase (p : Page) : 0x40000000 ≤ pageBase p := by
  cases p <;> simp only [pageBase] <;> omega

/-- A store in the window that lies in no page answers UNMAPPED. -/
theorem busStore_unmapped {s : State} {ini : Ini} {a : Nat} (hw : regionOf a = some .window) (hn : pageAt a = none)
    (bs : List Byte) : busStore ini a bs s = answer (.err .unmapped) s := by
  rw [busStore, if_pos hw, hn]

theorem busLoad_unmapped {s : State} {ini : Ini} {a : Nat} (hw : regionOf a = some .window) (hn : pageAt a = none) (len : Nat) :
    busLoad ini a len s = answer (.err .unmapped) s := by
  rw [busLoad, if_pos hw, hn]

/-- A store at a page that is not an aligned word answers SIZE. -/
theorem busStore_size {s : State} {ini : Ini} {a : Nat} {p : Page} {bs : List Byte} (h : pageAt a = some p)
    (hm : a % 4 ≠ 0 ∨ bs.length ≠ 4) : busStore ini a bs s = answer (.err .size) s := by
  rw [busStore, if_pos (pageAt_window h), h]
  dsimp only
  split
  · next hl =>
    rw [busWrite, h]
    exact if_pos (by simpa using hm.resolve_right (not_not.mpr hl))
  · rfl

theorem busLoad_size {s : State} {ini : Ini} {a len : Nat} {p : Page} (h : pageAt a = some p)
    (hm : a % 4 ≠ 0 ∨ len ≠ 4) : busLoad ini a len s = answer (.err .size) s := by
  rw [busLoad, if_pos (pageAt_window h), h]
  dsimp only
  split
  · next hl =>
    rw [busRead, h]
    exact if_pos (by simpa using hm.resolve_right (not_not.mpr hl))
  · rfl

/-- Settles O48: the page map decides first, the size of the access next. -/
theorem windowAccesses : Obligations.WindowAccesses := by
  refine ⟨fun p off h => ⟨pageAt_in p off h, ?_, ?_⟩, region_window, fun s ini a len bs v hw hn => ⟨?_, ?_, ?_⟩,
    fun s ini a len bs p h => ⟨fun hm => ?_, fun hm => ?_⟩⟩
  · exact (le_pageBase p).trans (Nat.le_add_right _ _)
  · have := pageBase_lt p
    omega
  · exact wr_eq (busStore_unmapped hw hn bs)
  · exact rd_eq (busLoad_unmapped hw hn len)
  · exact evTb (busStore_unmapped hw hn _)
  · exact wr_eq (busStore_size h hm)
  · exact rd_eq (busLoad_size h hm)

/-! ### Block resets that are refused or ignored -/

/-- A `BLK_RST` of any reach at a page in its own reset is ignored (R40). -/
theorem rstRow_inReset {s : State} {ini : Ini} {p : Page} (hr : inReset s p = true) (ha : absentPage p = false)
    (hp : pageAdmits ini p = true) (hw : writeAdmitted ini p 0x024 = true) (hk : keyHolder s p = 0)
    (hi : writeIgnored ini p 0x024 = none) (reach : Nat) :
    rstRow ini p reach s = .next (answer .ok s) := by
  have hadmit : ∀ v, admitWrite ini p 0x024 v (blkRst p v) s = blkRst p v (answer .ok s) := fun v => by
    simp [admitWrite, ha, hp, hw, hi, cancelKey_none p s hk]
  have hblk : ∀ v, blkRst p v (answer .ok s) = answer .ok s := fun v => if_pos (by simp [show inReset (answer .ok s) p = true from hr])
  unfold rstRow
  dsimp only
  rw [hadmit, hblk]
  rfl

/-- Settles O49: the six pages refuse both reaches, and a page in its own reset ignores every one. -/
theorem blockResetRefused : Obligations.BlockResetRefused := by
  refine ⟨fun s ini p hp h ha => ?refused, fun s ini p reach hr habs hadm hw _ hk hi => ?ignored⟩
  case refused =>
    have href : refusesReset p = true := by rcases hp with rfl | rfl | rfl | rfl | rfl | rfl <;> rfl
    exact ⟨rstRow_bad (r := 2) h ha (by decide) (.inr href), rstRow_bad (r := 3) h ha (by decide) (.inr href),
      recErr_code p errBadReset _ (by decide)⟩
  case ignored =>
    have ignored := rstRow_inReset hr habs hadm hw hk hi
    exact ⟨ignored 1, ignored 2, ignored 3, ignored reach.val⟩

end Sys2Proof.Machine
end

section
/-! SUPPORT. Every command ends as `done` or, where it is a row that can move time, as `doneTb`; and legal time is an invariant of every
step (R70-R76). -/
namespace Sys2Proof.Machine

/-! ### How commands end -/

/-- The command ends as `done`: it answers a state, with the queue and the time as they were. -/
def EndsKeepingTime (c : Instr) (s : State) : Prop := ∃ t, exec c s = done s t

theorem endsKeepingTime_calChange (ini : Ini) (a : Nat) (v : Word) (s : State) : EndsKeepingTime (.calChange ini a v) s := by
  show ∃ t, execCalChange ini a v s = done s t
  unfold execCalChange
  split
  · split <;> exact ⟨_, rfl⟩
  · exact ⟨_, rfl⟩

theorem endsKeepingTime_badOp (ini : Ini) (s : State) : EndsKeepingTime (.badOp ini) s := by
  show ∃ t, execBadOp ini s = done s t
  unfold execBadOp
  dsimp only
  split <;> exact ⟨_, rfl⟩

theorem endsKeepingTime_evrRecord (src : EvrSrc) (s : State) : EndsKeepingTime (.evrRecord src) s := by
  cases src <;> exact ⟨_, rfl⟩

/-- Every command ends by keeping the queue and the time, or is a row that can move time and keeps the queue. -/
theorem exec_ends (c : Instr) (s : State) : EndsKeepingTime c s ∨ mayMoveTime c = true ∧ ∃ t, exec c s = doneTb s t := by
  cases c with
  | incCommit | slewStart | slewEnd | slewExpire | stepAbsolute | stepOffset | stepArm => exact .inr ⟨rfl, _, rfl⟩
  | blkRstErrors | blkRstDatapath | blkRstFull | badReset | blockResetDone => exact .inr ⟨rfl, _, rfl⟩
  | resetNAssert | corePor | coreResetRelease | tcxoLoss | watchdog | swRst | pwrOnRelease | backupPor => exact .inr ⟨rfl, _, rfl⟩
  | regWrite | memAccess | descComplete | dmaHalt | cqHead | cqWaitPoll => exact .inr ⟨rfl, _, rfl⟩
  | calChange ini a v => exact .inl (endsKeepingTime_calChange ini a v s)
  | badOp ini => exact .inl (endsKeepingTime_badOp ini s)
  | evrRecord src => exact .inl (endsKeepingTime_evrRecord src s)
  | _ => exact .inl ⟨_, rfl⟩

/-- Settles O44, from how each command ends: `settle` puts back the queue and the time, `settleTb` the queue. -/
theorem everyCommandAnswersAndKeepsTheQueue : Obligations.EveryCommandAnswersAndKeepsTheQueue := by
  intro c s
  rcases exec_ends c s with ⟨t, h⟩ | ⟨hm, t, h⟩
  · exact ⟨_, h, rfl, fun _ => rfl⟩
  · exact ⟨_, h, rfl, fun hf => absurd hm (by simp [hf])⟩

/-- A command that is none of the rows that can move time keeps the four time bases. -/
theorem exec_tb {c : Instr} {s t : State} (hm : mayMoveTime c = false) (h : exec c s = .next t) : t.tb = s.tb := by
  obtain ⟨u, hu, -, htb⟩ := everyCommandAnswersAndKeepsTheQueue c s
  rw [hu] at h
  cases h
  exact htb hm

/-! ### The rows that can move time -/

theorem legal_of_doneTb {s t u : State} (h : doneTb s u = .next t) (w : timeLegal u = true) : timeLegal t = true := by
  cases h
  exact settleTb_legal w

theorem corePor_tb (bits : Nat) (s : State) : (corePor bits s).tb = {} := episode_tb ..

theorem execCorePor_tb (vinLow : Bool) (s : State) :
    (if vinLow then setRegB .oasis 0x040 8 true (onRst (fun r => { r with vin := false }) (corePor 0 s)) else corePor 0 s).tb = {} := by
  split
  · exact (setRegB_tb ..).trans (corePor_tb 0 s)
  · exact corePor_tb 0 s

section
variable {s t : State} (w : timeLegal s = true)
include w

theorem slewExpire_legal (n : Fin 4) :
    timeLegal (if enabled s (.tb n) then putTb n { tbOf s.tb n with slewLeft := 0 } s else s) = true := by
  split
  · obtain ⟨hsec, hns, hfrac, hinc, -⟩ := legal_parts ((timeLegal_iff s).mp w n)
    exact putTb_legal (by unfold TimeBase.legal; simp only [hsec, hns, hfrac, hinc]; rfl) w
  · exact w

theorem blkRstRow_legal (ini : Ini) (p : Page) (v : Word) : timeLegal (admitWrite ini p 0x024 v (blkRst p v) s) = true :=
  admitWrite_legal (fun _ hu => blkRst_legal p v hu) w

theorem watchdog_legal (window : Bool) :
    timeLegal (if s.rst.active then s
      else if window then (if s.boot.st = 2 then episode (2 ^ 12) false s else s)
      else if unkicked s = 0 then setReg .rstclk 0x048 0 s
      else episode (2 ^ 12) false s) = true := by
  have expired : timeLegal (episode (2 ^ 12) false s) = true := timeLegal_zero (episode_tb ..)
  split
  · exact w
  · split
    · split
      · exact expired
      · exact w
    · split
      · exact timeLegal_of_tb (setReg_tb ..) w
      · exact expired

theorem pwrOnRelease_legal : timeLegal (pwrOnRelease s) = true := by
  unfold pwrOnRelease
  split
  · exact w
  · exact timeLegal_zero (corePor_tb ..)

theorem coreResetRelease_legal (b : BootFacts) : timeLegal (coreResetRelease b s) = true := by
  unfold coreResetRelease
  dsimp only
  split
  · exact w
  · exact timeLegal_zero rfl

theorem execMemAccess_legal (ini : Ini) (op : MemOp) (ecc : EccEvent) (h : execMemAccess ini op ecc s = .next t) :
    timeLegal t = true := by
  refine legal_of_doneTb h ?_
  cases op with
  | read a len =>
    have hl := busLoad_legal ini a len w
    dsimp only
    split
    · exact timeLegal_of_tb ((eccSpoils_tb ..).trans (eccOf_tb ..)) hl
    · exact hl
  | write a bs =>
    have hs := busStore_legal ini a bs w
    dsimp only
    split
    · exact timeLegal_of_tb (eccOf_tb ..) hs
    · exact hs

theorem execDescComplete_legal (c : DescEnd) (h : execDescComplete c s = .next t) : timeLegal t = true := by
  refine legal_of_doneTb h ?_
  have hd := descComplete_legal false c.ch.val { st := s, ecc := c.ecc, word := c.word } w
  split
  · exact w
  · split
    · next u e => rw [e] at hd; exact hd
    · next u x a e => rw [e] at hd; exact dmaHalt_legal _ _ _ hd
    · exact w

theorem execDmaHalt_legal (c : Fin 16) (early : Bool) (h : execDmaHalt c early s = .next t) : timeLegal t = true := by
  refine legal_of_doneTb h ?_
  have hd := descComplete_legal early c.val { st := s } w
  split
  · exact w
  · split
    · next u x a e => rw [e] at hd; exact dmaHalt_legal _ _ _ hd
    · exact w

theorem cqHead_legal (early : Bool) : timeLegal (if cqWaiting s then s else cqRun early s) = true := by
  split
  · exact w
  · exact cqRun_legal early w

theorem cqWaitPoll_legal : timeLegal (if cqWaiting s then cqRun false s else s) = true := by
  split
  · exact cqRun_legal false w
  · exact w

/-- Each row that can move time keeps it legal: the time bases' own by their ranges, resets by clearing it, and the rest because
every bus access does. -/
theorem exec_legal_of_mayMoveTime {c : Instr} (hm : mayMoveTime c = true) (h : exec c s = .next t) : timeLegal t = true := by
  cases c with
  | incCommit ini n v => exact legal_of_doneTb h (admitWrite_legal (fun _ => incCommit_legal ini n v) w)
  | slewStart ini n v => exact legal_of_doneTb h (admitWrite_legal (fun _ => slewWrite_legal n v) w)
  | slewEnd ini n => exact legal_of_doneTb h (admitWrite_legal (fun _ => slewWrite_legal n 0) w)
  | slewExpire n => exact legal_of_doneTb h (slewExpire_legal w n)
  | stepAbsolute ini n => exact legal_of_doneTb h (admitWrite_legal (fun _ => stepCtrlWrite_legal n 1) w)
  | stepOffset ini n => exact legal_of_doneTb h (admitWrite_legal (fun _ => stepCtrlWrite_legal n 3) w)
  | stepArm ini n v => exact legal_of_doneTb h (admitWrite_legal (fun _ => stepArmWrite_legal n v) w)
  | blkRstErrors ini p => exact legal_of_doneTb h (blkRstRow_legal w ini p _)
  | blkRstDatapath ini p => exact legal_of_doneTb h (blkRstRow_legal w ini p _)
  | blkRstFull ini p => exact legal_of_doneTb h (blkRstRow_legal w ini p _)
  | badReset ini p reach => exact legal_of_doneTb h (blkRstRow_legal w ini p _)
  | blockResetDone p => exact legal_of_doneTb h (blockResetDone_legal p w)
  | resetNAssert => exact legal_of_doneTb h (timeLegal_zero (episode_tb ..))
  | corePor vinLow => exact legal_of_doneTb h (timeLegal_zero (execCorePor_tb vinLow s))
  | coreResetRelease b => exact legal_of_doneTb h (coreResetRelease_legal w b)
  | tcxoLoss => exact legal_of_doneTb h (timeLegal_zero ((setRegB_tb ..).trans (episode_tb ..)))
  | watchdog window => exact legal_of_doneTb h (watchdog_legal w window)
  | swRst ini v => exact legal_of_doneTb h (admitWrite_legal (fun _ => swRst_legal v) w)
  | pwrOnRelease => exact legal_of_doneTb h (pwrOnRelease_legal w)
  | backupPor => exact legal_of_doneTb h (timeLegal_zero (corePor_tb ..))
  | regWrite ini a v => exact legal_of_doneTb h (busStore_legal ini a _ w)
  | memAccess ini op ecc => exact execMemAccess_legal w ini op ecc h
  | descComplete c => exact execDescComplete_legal w c h
  | dmaHalt c early => exact execDmaHalt_legal w c early h
  | cqHead early => exact legal_of_doneTb h (cqHead_legal w early)
  | cqWaitPoll => exact legal_of_doneTb h (cqWaitPoll_legal w)
  | _ => cases hm

/-- Every command keeps the time legal. -/
theorem exec_legal {c : Instr} (h : exec c s = .next t) : timeLegal t = true := by
  cases hm : mayMoveTime c with
  | true => exact exec_legal_of_mayMoveTime w hm h
  | false => exact timeLegal_of_tb (exec_tb hm h) w

end

/-! ### Steps -/

theorem step_nil {s : State} (h : s.pending = []) : step s = .next (idleTick s) := by rw [step, h]

theorem step_cons {s : State} {c : Instr} {rest : List Instr} (h : s.pending = c :: rest) :
    step s = exec c { s with pending := rest } := by rw [step, h]

/-- Settles O43: a step is a cycle of the clock or the command in front, and both keep the time legal. -/
theorem everyStepKeepsTimeLegal : Obligations.EveryStepKeepsTimeLegal := by
  intro s t w h
  cases hp : s.pending with
  | nil =>
    rw [step_nil hp] at h
    cases h
    exact idleTick_legal w
  | cons c rest =>
    rw [step_cons hp] at h
    have w' : timeLegal { s with pending := rest } = true := timeLegal_of_tb rfl w
    exact exec_legal w' h

end Sys2Proof.Machine
end

section
/-! SUPPORT. The commands of TB0-TB3: increments, slews, steps and reads of `NOW_NS` (R72-R78). -/
namespace Sys2Proof.Machine

/-! ### Increments and slews -/

/-- An admitted write that may set the time, whose effect keeps the queue. -/
theorem admTb' {s t : State} {ini : Ini} {p : Page} {off : Nat} {v : Word} {fx : State → State} (h : writeOpen s ini p off = true)
    (e : fx (answer .ok s) = t) (hp : t.pending = s.pending) : doneTb s (admitWrite ini p off v fx s) = .next t := by
  rw [admitWrite_open h, e, doneTb_eq hp]

/-- `INC_FRAC` takes every value. -/
theorem plainWrite_incFrac (ini : Ini) (n : Fin 4) (v : Word) (s : State) :
    plainWrite ini (.tb n) 0x064 v s = setReg (.tb n) 0x064 v s := by
  have row : rowOf (.tb n) 0x064 = some (rw 0x064) := by revert n; decide
  rw [plainWrite, row]
  simp [rw, applyRules, and_all]

/-- A commit in range puts both halves of INC in force. -/
theorem incCommit_inRange {s : State} {n : Fin 4} {v : Word} (ini : Ini) (hf : follow s n = 0)
    (hi : incInRange (Int.ofNat (regF s (.tb n) 0x060 3 0 * 2 ^ 32 + v.toNat)) = true)
    (hs : incInRange (Int.ofNat (regF s (.tb n) 0x060 3 0 * 2 ^ 32 + v.toNat) +
      (if 0 < (tbOf s.tb n).slewLeft then (tbOf s.tb n).slewOff else 0)) = true) :
    incCommit ini n v s =
      putTb n { tbOf s.tb n with inc := regF s (.tb n) 0x060 3 0 * 2 ^ 32 + v.toNat } (setReg (.tb n) 0x064 v s) := by
  unfold incCommit
  rw [if_neg (by simp [hf])]
  dsimp only
  rw [hi, hs, plainWrite_incFrac]
  rfl

/-- A slew with its total in range starts. -/
theorem slewWrite_start {s : State} {n : Fin 4} {v : Word} (hf : follow s n = 0) (hv : v ≠ 0)
    (hs : incInRange (Int.ofNat (tbOf s.tb n).inc + signed 32 (regN s (.tb n) 0x068)) = true) :
    slewWrite n v s = putTb n { tbOf s.tb n with slewOff := signed 32 (regN s (.tb n) 0x068), slewLeft := v.toNat } s := by
  unfold slewWrite
  dsimp only
  rw [if_neg (by simp [hf]), if_neg hv, if_pos hs]

/-- A write of zero ends a slew. -/
theorem slewWrite_zero {s : State} {n : Fin 4} (hf : follow s n = 0) :
    slewWrite n 0 s = putTb n { tbOf s.tb n with slewLeft := 0 } s := by
  unfold slewWrite
  dsimp only
  rw [if_neg (by simp [hf]), if_pos rfl]

/-- The key permits one more step. -/
theorem stepArmWrite_key (n : Fin 4) (s : State) :
    stepArmWrite n 0x53544550 s = putTb n { tbOf s.tb n with stepAvail := true } s := by
  rw [stepArmWrite, if_pos rfl]

theorem nowNsRead_pending (ini : Ini) (n : Fin 4) (s : State) : (nowNsRead ini n s).pending = s.pending :=
  (answer_pending ..).trans ((setRegI_pending ..).trans (setRegI_pending ..))

theorem nowNsRead_tb (ini : Ini) (n : Fin 4) (s : State) : (nowNsRead ini n s).tb = s.tb :=
  (answer_tb ..).trans ((setRegI_tb ..).trans (setRegI_tb ..))

/-- Settles O9, from what each register's write does under the statement's ranges. -/
theorem timeBaseCommandsComplete : Obligations.TimeBaseCommandsComplete := by
  intro s ini n v
  refine ⟨fun h hf hi hs => ?incCommit, fun h hf hv hs => ?slewStart, fun h hf => ?slewEnd, fun he => ?slewExpire,
    fun he => ?slewKept, fun h => ?stepArm, fun h => ?nowNsRead⟩
  case incCommit => exact admTb' h (incCommit_inRange (s := answer .ok s) ini hf hi hs) rfl
  case slewStart => exact admTb' h (slewWrite_start (s := answer .ok s) hf hv hs) rfl
  case slewEnd => exact admTb' h (slewWrite_zero (s := answer .ok s) hf) rfl
  case slewExpire => exact (evTb (if_pos he)).trans (congrArg _ (settleTb_eq rfl))
  case slewKept => exact evTb (if_neg (by rw [he]; decide))
  case stepArm => exact admTb' h (stepArmWrite_key n (answer .ok s)) rfl
  case nowNsRead => exact admrNext' h rfl (nowNsRead_pending ..) (nowNsRead_tb ..)

/-! ### Steps -/

/-- The base as a step that is carried out leaves it. -/
def steppedBase (s : State) (n : Fin 4) (offset : Bool) : TimeBase :=
  { tbOf s.tb n with sec := (stepTarget s n offset).1, ns := (stepTarget s n offset).2, stepAvail := false, stepped := true }

/-- A step that is available, and that does not take TB1 back, is carried out. -/
theorem stepGo_carriedOut {s : State} {n : Fin 4} {offset : Bool} (ha : (tbOf s.tb n).stepAvail = true)
    (hb : n = 1 → tbNs (tbOf s.tb n) ≤ tbNs (steppedBase s n offset)) :
    stepGo n offset s = { stepEffects n (steppedBase s n offset) s with tb := setTb n (steppedBase s n offset) s.tb } := by
  have hback : ¬ (n = 1 ∧ tbNs (steppedBase s n offset) < tbNs (tbOf s.tb n)) := fun ⟨hn, hlt⟩ => absurd (hb hn) (by omega)
  exact (if_neg (by rw [ha]; decide)).trans (if_neg hback)

/-- The two commands are writes of `STEP_CTRL.GO` with the kind of step in bit 1. -/
theorem exec_step {s : State} {ini : Ini} {n : Fin 4} (h : writeOpen s ini (.tb n) 0x070 = true) (offset : Bool) :
    exec (if offset then .stepOffset ini n else .stepAbsolute ini n) s = .next (settleTb s (stepGo n offset (answer .ok s))) := by
  cases offset <;> exact admTb h rfl

/-- Settles O10: a step that is carried out sets its own base, and puts back the time of the others. -/
theorem stepMovesOneTimeBaseOnce : Obligations.StepMovesOneTimeBaseOnce := by
  intro s ini n offset h ha hb
  have htb : (settleTb s (stepGo n offset (answer .ok s))).tb = setTb n (steppedBase s n offset) s.tb := by
    rw [settleTb_tb, stepGo_carriedOut (s := answer .ok s) ha hb]
    rfl
  refine ⟨_, exec_step h offset, htb, fun m hm => ?_, (stepTarget_lt s n offset).2⟩
  rw [htb, tbOf_setTb, if_neg hm.symm]

end Sys2Proof.Machine
end

section
/-! SUPPORT. A cycle of the 250 MHz clock on an empty queue, and the increment that a commit and the core reset's release leave (R70,
R72, R543). -/
namespace Sys2Proof.Machine

/-! ### One cycle of a base -/

/-- A cycle adds the increment to the time, modulo 2^48 seconds. -/
theorem units_tbCycle {b : TimeBase} {inc : Nat} (h : b.legal = true) (hi : inc < 5 * 2 ^ 32) :
    (tbCycle inc b).units = (b.units + inc) % (2 ^ 48 * 1000000000 * 2 ^ 32) := by
  obtain ⟨hsec, hns, hfrac, -, -⟩ := legal_parts h
  have hsum := Nat.div_add_mod (b.frac + inc) (2 ^ 32)
  have hrest := Nat.mod_lt (b.frac + inc) (show 0 < 2 ^ 32 by decide)
  unfold tbCycle TimeBase.units tbNs
  dsimp only
  generalize (b.frac + inc) / 2 ^ 32 = carry at hsum ⊢
  generalize (b.frac + inc) % 2 ^ 32 = rest at hsum hrest ⊢
  have htotal : (b.sec * 1000000000 + b.ns) * 2 ^ 32 + b.frac + inc = (b.sec * 1000000000 + (b.ns + carry)) * 2 ^ 32 + rest := by omega
  rw [htotal]
  by_cases hc : 1000000000 ≤ b.ns + carry
  · rw [if_pos hc, if_pos hc]
    obtain ⟨past, hpast⟩ := Nat.exists_eq_add_of_le hc
    rw [hpast, Nat.add_sub_cancel_left, show b.sec * 1000000000 + (1000000000 + past) = (b.sec + 1) * 1000000000 + past by ring]
    by_cases hwrap : b.sec + 1 < 2 ^ 48
    · rw [Nat.mod_eq_of_lt hwrap, Nat.mod_eq_of_lt (by omega)]
    · have hlast : b.sec + 1 = 2 ^ 48 := by omega
      have hwrapped : (2 ^ 48 * 1000000000 + past) * 2 ^ 32 + rest = 2 ^ 48 * 1000000000 * 2 ^ 32 + (past * 2 ^ 32 + rest) := by ring
      rw [hlast, hwrapped, Nat.mod_self, Nat.add_mod_left, Nat.mod_eq_of_lt (by omega), Nat.zero_mul, Nat.zero_add]
  · rw [if_neg hc, if_neg hc, Nat.mod_eq_of_lt (by omega)]

/-- The seconds count one up where the nanoseconds reach 10^9. -/
theorem sec_tbCycle (inc : Nat) (b : TimeBase) :
    (tbCycle inc b).sec = if b.ns + (b.frac + inc) / 2 ^ 32 < 1000000000 then b.sec else (b.sec + 1) % 2 ^ 48 := by
  by_cases hc : b.ns + (b.frac + inc) / 2 ^ 32 < 1000000000
  · exact (if_neg (by omega)).trans (if_pos hc).symm
  · exact (if_pos (by omega)).trans (if_neg hc).symm

theorem tbTick_enabled {s : State} {n : Fin 4} (h : enabled s (.tb n) = true) : tbTick s n = tbCycle (effInc s 4 n) (tbOf s.tb n) :=
  if_pos h

theorem tbTick_stopped {s : State} {n : Fin 4} (h : enabled s (.tb n) = false) : tbTick s n = tbOf s.tb n := if_neg (by rw [h]; decide)

/-- A base of its own rate with no slew has its INC in effect. -/
theorem effInc_own {s : State} {n : Fin 4} (hf : follow s n = 0) (hs : (tbOf s.tb n).slewLeft = 0) (k : Nat) :
    effInc s k n = (tbOf s.tb n).inc := by
  cases k with
  | zero => rfl
  | succ k => simp [effInc, slewNow, hf, hs]

/-! ### One cycle of the block -/

/-- On a cycle the clock's tick of all four bases is all that moves time. -/
theorem idleTick_tb {s : State} (h : clockRuns s = true) : (idleTick s).tb = tbsTick s := by
  unfold idleTick
  rw [if_neg (by rw [h]; decide)]
  dsimp only
  rw [rawDrain_tb, rawDrain_tb, settle_tb]
  split <;> rfl

theorem tbOf_tbsTick (s : State) (n : Fin 4) : tbOf (tbsTick s) n = tbTick s n := by
  fin_cases n <;> rfl

/-- The release of the core reset, with no source left, clears the counts. -/
theorem coreResetRelease_tb {s : State} (b : BootFacts) (ha : s.rst.active = true) (hn : s.rst.resetN = false) (ht : s.rst.tcxo = false)
    (hb : s.rst.backup = false) (hr : s.railsOn = true) : (coreResetRelease b s).tb = {} := by
  unfold coreResetRelease
  dsimp only
  rw [if_neg (by simp [ha, hn, ht, hb, hr])]

/-- Settles O46: a step on an empty queue is one cycle of each base, which `units_tbCycle` measures. -/
theorem cycleAddsTheIncrement : Obligations.CycleAddsTheIncrement := by
  refine ⟨fun s n w hp hc => ⟨idleTick s, step_nil hp, ?_⟩, fun s n hf hs => effInc_own hf hs 4, fun s t ini n v h hf hs hi he => ?commit,
    fun s t b n ha hn ht hb hr he => ?release⟩
  · rw [idleTick_tb hc, tbOf_tbsTick]
    refine ⟨fun he => ?running, fun he => tbTick_stopped he⟩
    have hb := (timeLegal_iff s).mp w n
    have hi := effInc_lt w 4 n
    rw [tbTick_enabled he]
    obtain ⟨-, hns, hfrac, -, -⟩ := legal_parts (tbCycle_legal hb hi)
    exact ⟨hns, hfrac, units_tbCycle hb hi, sec_tbCycle _ _⟩
  case commit =>
    have hslew : ¬ 0 < (tbOf s.tb n).slewLeft := by omega
    have e := admTb' (v := v) h (incCommit_inRange (s := answer .ok s) ini hf hi (by rw [answer_tb, if_neg hslew, Int.add_zero]; exact hi)) rfl
    cases (he.symm.trans e)
    exact congrArg TimeBase.inc (setTb_self n _ _)
  case release =>
    cases he
    rw [settleTb_tb, coreResetRelease_tb b ha hn ht hb hr]
    fin_cases n <;> exact ⟨rfl, rfl⟩

end Sys2Proof.Machine
end

section
/-! SUPPORT. What reset leaves in the registers (R26, R28, R70-R73). -/
namespace Sys2Proof.Machine

/-- After reset a register holds what its page and its map line give. -/
theorem reg_reset {p : Page} {off : Nat} (h : off < 0x1000) :
    reg State.reset p off = if off = 0 then word (blkId p) else if off = 4 then word (b01 (pageEnReset p))
      else (rowOf p off).elim 0 fun r => word r.reset := by
  have hb := pageBase_lt p
  have hm := pageBase_mod p
  have ha : regKey p off % 2 ^ 32 = pageBase p + off := Nat.mod_eq_of_lt (by unfold regKey; omega)
  have ho : (pageBase p + off) % 0x1000 = off := by omega
  show regReset (regKey p off) = _
  unfold regReset
  dsimp only
  rw [ha, pageAt_in p off h]
  dsimp only
  rw [ho]
  cases rowOf p off <;> rfl

theorem reg_reset_of_row {p : Page} {off : Nat} {r : RegRow} (h4 : 4 < off) (h : off < 0x1000) (hr : rowOf p off = some r) :
    reg State.reset p off = word r.reset := by
  rw [reg_reset h, if_neg (by omega), if_neg (by omega), hr]
  rfl

/-- After reset `BLK_CTRL` holds the page's EN alone. -/
theorem enabled_reset (p : Page) : enabled State.reset p = pageEnReset p := by
  unfold enabled regB
  rw [reg_reset (by decide), if_neg (by decide), if_pos rfl]
  cases pageEnReset p <;> decide

/-- The header's interrupt, error and lock registers are zero after reset. -/
theorem reg_reset_header (p : Page) :
    reg State.reset p 0x010 = 0 ∧ reg State.reset p 0x014 = 0 ∧ reg State.reset p 0x018 = 0 ∧ reg State.reset p 0x020 = 0 := by
  refine ⟨?_, ?_, ?_, ?_⟩
  · exact reg_reset_of_row (r := rw 0x010) (by decide) (by decide) rfl
  · exact reg_reset_of_row (r := w1c 0x014) (by decide) (by decide) rfl
  · exact reg_reset_of_row (r := ro 0x018) (by decide) (by decide) rfl
  · exact reg_reset_of_row (r := rw 0x020) (by decide) (by decide) rfl

/-- After reset TB2 follows TB0, and no other base follows one. -/
theorem follow_reset (n : Fin 4) : follow State.reset n = if n = 2 then 1 else 0 := by
  have row : rowOf (.tb n) 0x040 = some (rw 0x040 (if n = 2 then 0x10 else 0) 0x70 [.lock 0 0x70]) := by revert n; decide
  have hreg : reg State.reset (.tb n) 0x040 = word (if n = 2 then 0x10 else 0) := reg_reset_of_row (by decide) (by decide) row
  unfold follow regF
  rw [hreg]
  split <;> decide

/-- After reset every time base holds the defaults of its fields. -/
theorem tbOf_reset (n : Fin 4) : tbOf State.reset.tb n = {} := by
  fin_cases n <;> rfl

/-- Settles O45: the registers by their map lines, everything else by the defaults of the state's fields. -/
theorem resetLeaves : Obligations.ResetLeaves := by
  refine ⟨rfl, timeLegal_zero rfl, rfl, fun n => ?timeBases, reg_reset_header, enabled_reset _, fun n => enabled_reset _,
    enabled_reset _, enabled_reset _, enabled_reset _, enabled_reset _, enabled_reset _, enabled_reset _, fun n => enabled_reset _⟩
  case timeBases =>
    rw [tbOf_reset]
    exact ⟨rfl, rfl, rfl, rfl, follow_reset n⟩

end Sys2Proof.Machine
end

section
/-! SUPPORT. The commands of TTRIG: trigger units and capture units (R81-R85). -/
namespace Sys2Proof.Machine

/-! ### Trigger units -/

/-- With its lock group free `TRG_CTRL_u` takes the bits of its mask. -/
theorem plainWrite_trgCtrl {s : State} {u : Fin 16} (ini : Ini) (hl : locked s .ttrig u.val = false) (v : Word) :
    plainWrite ini .ttrig (0x100 + 0x20 * u.val) v s = setReg .ttrig (0x100 + 0x20 * u.val) (v &&& 0xFF31) s := by
  rw [plainWrite, trgRow]
  simp [rw, applyRules, applyRule, hl, word]

/-- A unit that fires in time, alone on its target and with no count to end at, moves to its next instant and acts. -/
theorem trgFire_inTime {s : State} {u : Nat} (hcol : trgCollides s u = false) (hcount : reg s .ttrig (0x110 + 0x20 * u) = 0) :
    trgFire u false s = trgAct (trgTarget s u) (unitSwap s u).1 (trgInstant s u (trgOf s u).next) (trgOf s u).since
      (putTrg u { trgOf s u with fired := (trgOf s u).fired + 1, next := (trgOf s u).next + 1, at1 := s.tb.cycles + 1, crossed := false }
        (setRegB .ttrig (0x114 + 0x20 * u) 0 true s)) := by
  have hc : regN s .ttrig (0x110 + 0x20 * u) = 0 := congrArg BitVec.toNat hcount
  unfold trgFire
  dsimp only
  rw [hcol, hc]
  simp

/-- A due unit of running TTRIG that no step took past its instant fires in time. -/
theorem exec_triggerFire {s : State} {u : Fin 16} (hr : trgRuns s = true) (hd : trgDue s u.val = true)
    (hx : (trgOf s u.val).crossed = false) : exec (.triggerFire u) s = .next (settle s (trgFire u.val false s)) :=
  evNext ((if_pos (by rw [hr, hd]; rfl)).trans (by rw [hx]))

/-! ### Capture units -/

theorem captureEdge_running {s : State} (he : enabled s .ttrig = true) (hr : inReset s .ttrig = false) (src : Nat) (rising : Bool) :
    captureEdge src rising s = forEach (capEdgeUnit src rising) (List.range 8) s := if_pos (by rw [he, hr]; rfl)

/-- Every unit that selects the edge and has room stamps it. -/
theorem captureEdge_stamps {s : State} (he : enabled s .ttrig = true) (hr : inReset s .ttrig = false) (src : Nat) (rising : Bool) :
    (captureEdge src rising s).mem = s.mem ∧ ∀ c < 8, capSelects s c src rising = true → (capOf s c).stamps.length < 4 →
      (capOf (captureEdge src rising s) c).stamps = (capOf s c).stamps ++ [stampOf s c] := by
  rw [captureEdge_running he hr]
  obtain ⟨-, hmem, -, -, hstamps⟩ := cap_run src rising s 8 (Nat.le_refl 8)
  exact ⟨hmem, hstamps⟩

/-- A read of `CAP_NS_c` that finds a stamp. -/
theorem capPop_stamp {s : State} {c sec ns : Nat} {r : List (Nat × Nat)} (h : (capOf s c).stamps = (sec, ns) :: r) :
    capPop c s = answer (.data (word ns)) (setReg .ttrig (0x40C + c * 0x20) (word (sec / 2 ^ 32 % 2 ^ 16))
      (setReg .ttrig (0x408 + c * 0x20) (word (sec % 2 ^ 32)) (putCap c { stamps := r } s))) := by
  rw [capPop, h]

theorem capPop_empty {s : State} {c : Nat} (h : (capOf s c).stamps = []) : capPop c s = answer (.data 0) s := by
  rw [capPop, h]

/-- Settles O11: an arm by `trgArm_key`, a firing by `trgFire_inTime`, an edge by `cap_run`, a read by what the unit holds. -/
theorem triggerAndCaptureCommandsComplete : Obligations.TriggerAndCaptureCommandsComplete := by
  intro s ini
  refine ⟨fun u v h hl hr hv he ht => ?arm, fun u hr hd hx hcol hcount => ?fire, fun src rising he hr => ?edge,
    fun c sec ns r h hs => ?pop, fun c h hs => ?popEmpty⟩
  case arm => exact admNext h (trgArm_key ini s u v (plainWrite_trgCtrl (s := answer .ok s) ini hl v) hr hv he ht)
  case fire => exact (exec_triggerFire hr hd hx).trans (by rw [trgFire_inTime hcol hcount])
  case edge =>
    obtain ⟨hmem, hstamps⟩ := captureEdge_stamps he hr src.val rising
    exact ⟨_, evNext rfl, hmem, hstamps⟩
  case pop =>
    refine admrNext' h (capPop_stamp hs) ?_ ?_
    · rw [answer_pending, setReg_pending, setReg_pending, putCap_pending]
    · rw [answer_tb, setReg_tb, setReg_tb, putCap_tb]
  case popEmpty => exact admrNext' h (capPop_empty hs) rfl rfl

end Sys2Proof.Machine
end

section
/-! SUPPORT. Stores at the state halves of the point table: MEMC discards them whole (R50, R92). -/
namespace Sys2Proof.Machine

/-- Offsets 0x80-0xFF of an entry of the table are its state half. -/
theorem inStateHalf_entry (s : State) {i k : Nat} (hi : i < 12288) (hlo : 128 ≤ k) (hhi : k < 256) :
    inStateHalf s (regN s .ptab 0x040 + 256 * i + k) = true := by
  unfold inStateHalf
  generalize regN s .ptab 0x040 = base
  simp only [Bool.and_eq_true, decide_eq_true_eq]
  omega

theorem wpByte_stateHalf {s : State} {a : Nat} (hr : regionOf a = some .dram) (h : inStateHalf s a = true) :
    wpByte s a = true := by
  rw [wpByte, hr]
  exact Bool.or_eq_true_iff.mpr (.inl h)

/-- One protected byte is enough for MEMC to discard the whole store. -/
theorem busStore_discarded {s : State} {ini : Ini} {a k : Nat} {bs : List Byte} (hr : regionOf a = some .dram)
    (hs : sizeOk a bs.length = true) (hk : k < bs.length) (hw : wpByte s (a + k) = true) :
    busStore ini a bs s = answer .ok (writeDiscarded ini a s) := by
  have hfind : ((List.range bs.length).find? fun n => wpByte s (a + n)).isSome = true :=
    List.find?_isSome.mpr ⟨k, List.mem_range.mpr hk, hw⟩
  obtain ⟨first, hfirst⟩ := Option.isSome_iff_exists.mp hfind
  have hstore : memStore ini a bs s = answer .ok (writeDiscarded ini a s) := by
    rw [memStore, hr]
    dsimp only
    rw [hfirst]
  rw [busStore, hr, if_neg (by decide), if_neg (by decide), if_neg (by rw [hs]; decide), hstore]

/-- What MEMC records of a discarded write: the code, the address and the initiator; memory stays. -/
theorem writeDiscarded_shows (ini : Ini) (a : Nat) (s : State) :
    regF (writeDiscarded ini a s) .memc 0x018 15 0 = 0x100 ∧ reg (writeDiscarded ini a s) .memc 0x050 = word a ∧
      reg (writeDiscarded ini a s) .memc 0x054 = word ini.id.val ∧ (writeDiscarded ini a s).mem = s.mem := wd_gen _ _ _ s

/-- Settles O50: the touched byte is one that MEMC protects, and one such byte discards the store. -/
theorem stateHalvesAreProtected : Obligations.StateHalvesAreProtected := by
  intro s ini a hr
  refine ⟨fun bs i k hs hi hlo hhi hfrom hto => ?store, fun len hs => exec_load hr (by decide) (by simp) hs⟩
  case store =>
    obtain ⟨n, hn⟩ := Nat.exists_eq_add_of_le hfrom
    have hlen : n < bs.length := by omega
    have hprotected : wpByte s (a + n) = true :=
      wpByte_stateHalf (dram_all hr hs hlen) (hn ▸ inStateHalf_entry s hi hlo hhi)
    obtain ⟨hcode, haddr, hsrc, hmem⟩ := writeDiscarded_shows ini a s
    have hexec := wr_eq (busStore_discarded (ini := ini) hr hs hlen hprotected)
    generalize writeDiscarded ini a s = recorded at hcode haddr hsrc hmem hexec
    exact ⟨_, hexec, rfl, hmem, hcode, haddr, hsrc⟩

end Sys2Proof.Machine
end

section
/-! SUPPORT. The commands of PTAB: base, restore, flushes, pins and checkpoint (R89, R100-R104, R115-R119). -/
namespace Sys2Proof.Machine

/-- Setting a bit of a register leaves its other bits. -/
theorem regB_setRegB_ne (p : Page) (off : Nat) {n m : Nat} (hn : n < 32) (h : m ≠ n) (b : Bool) (s : State) :
    regB (setRegB p off n b s) p off m = regB s p off m := by
  simp only [regB, setRegB, reg_setReg_self]
  exact bit_setBit_ne _ n m b hn h

/-! ### Base and restore -/

theorem locked_of_regs {s t : State} (h : t.regs = s.regs) (p : Page) (group : Nat) : locked t p group = locked s p group :=
  congrArg (bit · group) (reg_of_regs h p 0x020)

/-- A restore that completes is no longer in progress, and shows it: RESTORED and RESTORE_DONE (R118). -/
theorem ptRestore_shows (s : State) :
    restoring (ptRestore s) = false ∧ regB (ptRestore s) .ptab 0x048 1 = true ∧ regB (ptRestore s) .ptab 0x014 2 = true := by
  unfold ptRestore restoring
  dsimp only
  generalize forEach restoreOne (List.range ptCount) (ptEmpty s) = copied
  have hstat : ∀ m, regB (raiseIrq .ptab 2 (setRegB .ptab 0x048 1 true (setRegB .ptab 0x048 0 false copied))) .ptab 0x048 m =
      regB (setRegB .ptab 0x048 1 true (setRegB .ptab 0x048 0 false copied)) .ptab 0x048 m :=
    fun m => regB_setRegB_off .ptab (by decide) 2 m true _
  refine ⟨?_, (hstat 1).trans (regB_setRegB_self _ _ _ _ _ (by decide)), regB_raiseIrq _ _ _ (by decide)⟩
  rw [hstat, regB_setRegB_ne .ptab 0x048 (by decide) (by decide), regB_setRegB_self _ _ _ _ _ (by decide)]

/-- Settles O12: the base by `ptBaseWrite_run`, the start of a restore by `ptCmd_run`, its end by `ptRestore_shows`. -/
theorem pointBaseAndRestoreCommandsComplete : Obligations.PointBaseAndRestoreCommandsComplete := by
  intro s ini
  refine ⟨fun v h he hl hlo hhi => ?base, fun h hr => ?restore, fun hr => evNext (if_pos hr), ptRestore_shows s⟩
  case base =>
    have hregs : (ptEmpty (ptWriteBackAll (answer .ok s))).regs = s.regs := ptWriteBackAll_regs (answer .ok s)
    exact ptBaseWrite_run s ini v h he hl hlo hhi ((locked_of_regs hregs .ptab 0).trans hl)
  case restore =>
    have run := ptCmd_run s ini 1 0 h hr (by decide) (by decide) (by decide)
    exact evNext' run (setRegB_pending ..) (setRegB_tb ..)

/-! ### Flushes, pins and checkpoint -/

/-- A copy that ends with no commit waiting leaves the half in its slot and the queue one shorter (R116). -/
theorem ckptCopyDone_ok {s : State} {j : Nat × List Word} {rest : List (Nat × List Word)} (hq : s.ptab.ckptQ = j :: rest)
    (hw : s.ptab.wait = []) :
    (ckptCopyDone .ok s).ptab.ckptQ = rest ∧ (ckptCopyDone .ok s).mem = (memWriteWords (ckptAddr j.1) j.2 s).mem := by
  unfold ckptCopyDone
  rw [hq]
  dsimp only
  rw [hw]
  exact ⟨rfl, rfl⟩

/-- Settles O13: the writes of `CMD` by `ptCmd_run`, the ends of a flush and of a checkpoint by the bit that each clears. -/
theorem pointCacheCommandsComplete : Obligations.PointCacheCommandsComplete := by
  intro s ini i
  refine ⟨fun h hr => ?commands, fun hf => ?flushDone, fun hc => ?ckptAllDone, rfl, fun j rest hq hw => ?copyDone⟩
  case commands =>
    have run := fun (op : Fin 8) (i : Fin 16384) => ptCmd_run s ini op i h hr
    refine ⟨evNext (run 2 0 (by decide) (by decide) (by decide)), fun hi => evNext (run 3 i (by decide) (by decide) hi),
      fun hi hp hn => ?pin, fun hi => ?unpin, ?ckptAll⟩
    case pin => exact ⟨_, evNext (run 4 i (by decide) (by decide) hi), ptPin_pins i.val (answer .ok s) hp hn⟩
    case unpin =>
      obtain ⟨hpin, hmem, hregs⟩ := unpin_run s i.val
      exact ⟨_, evNext (run 5 i (by decide) (by decide) hi), hpin, hmem, hregs⟩
    case ckptAll => exact evNext' (run 6 0 (by decide) (by decide) (by decide)) (setRegB_pending ..) (setRegB_tb ..)
  case flushDone => exact evNext' (if_pos hf) (by simp) (by simp)
  case ckptAllDone =>
    exact ⟨_, evNext (if_pos hc), (regB_settle ..).trans (regB_setRegB_self _ _ _ _ _ (by decide)),
      (settle_mem ..).trans (setRegB_mem ..)⟩
  case copyDone =>
    obtain ⟨hqueue, hmem⟩ := ckptCopyDone_ok hq hw
    exact ⟨_, evNext rfl, hqueue, hmem⟩

end Sys2Proof.Machine
end

section
/-! SUPPORT. The ports of PTAB and the engines' lookups (R14, R95, R99, R107, R111, R113). -/
namespace Sys2Proof.Machine

/-! ### What a bus answer does not bear on -/

@[simp] theorem mem32_answer (r : Resp) (s : State) (a : Nat) : mem32 (answer r s) a = mem32 s a := by
  unfold mem32 memNat
  rw [memRead_of_mem (answer r s) s rfl]

@[simp] theorem memWords_answer (r : Resp) (s : State) (a n : Nat) : memWords (answer r s) a n = memWords s a n := by
  induction n generalizing a with
  | zero => rfl
  | succ n ih => rw [memWords, memWords, mem32_answer, ih]

@[simp] theorem ptLine_answer (r : Resp) (s : State) (i : Nat) : ptLine (answer r s) i = ptLine s i := rfl

@[simp] theorem ptAddr_answer (r : Resp) (s : State) (i : Nat) : ptAddr (answer r s) i = ptAddr s i := rfl

@[simp] theorem ptWord_answer (r : Resp) (s : State) (i w : Nat) : ptWord (answer r s) i w = ptWord s i w := by
  unfold ptWord
  rw [ptLine_answer, ptAddr_answer, mem32_answer]

@[simp] theorem ptHalf_answer (r : Resp) (s : State) (i : Nat) : ptHalf (answer r s) i = ptHalf s i :=
  List.map_congr_left fun w _ => ptWord_answer r s i w

@[simp] theorem ptBefore_answer (r : Resp) (s : State) (i : Nat) : ptBefore (answer r s) i = ptBefore s i := by
  rw [ptBefore, ptHalf_answer]
  rfl

@[simp] theorem wpMerged_answer (r : Resp) (s : State) (port : Fin 10) (i : Nat) : wpMerged (answer r s) port i = wpMerged s port i := by
  rw [wpMerged, ptHalf_answer]
  rfl

/-! ### The write port and INVAL -/

/-- A commit that no check refuses writes the merged half; with room in the checkpoint queue it ends at once (R107-R109, R116). -/
theorem wpCommit_valid {s : State} {ini : Ini} {i : Nat} (hi : (regI s .ptab 0x060 ini.id).toNat = i) (hr : restoring s = false)
    (hb : bit (regI s .ptab 0x06C ini.id) 0 = false) (hp : regB s .pwr 0x044 31 = false) (hlt : i < 12288)
    (hv : cfgValid (wpMerged s ini.id i) = true)
    (hid : (cfgEn (ptHalf s i) && cfgIdentityDiffers (ptHalf s i) (wpMerged s ini.id i)) = false)
    (hroom : s.ptab.ckptQ.length < 16) :
    wpCommit ini s = (some i, wpDone ini.id (ckptQueue (ini.id.val + 1) i (wpMerged s ini.id i)
      (ptCheck i (ptGen i (ptPutHalf i (wpMerged s ini.id i) s))))) := by
  have hfull : ¬ (regB s .ptab 0x044 0 && decide (16 ≤ s.ptab.ckptQ.length)) = true := by simp; omega
  unfold wpCommit
  dsimp only
  rw [hi, if_neg (by rw [hr]; decide), if_neg (by rw [hb]; decide), if_neg (by rw [hp]; decide),
    if_neg (by unfold ptCount; omega), if_neg (by rw [hv]; decide), if_neg (by rw [hid]; decide), if_neg hfull]

/-- A write of 1 to a free `WP_CMD` is the commit, and the engines answer the index it changed. -/
theorem wpCmdWrite_commit {s t : State} {ini : Ini} {i : Nat} (hi : (regI s .ptab 0x060 ini.id).toNat = i) (hr : restoring s = false)
    (hb : bit (regI s .ptab 0x06C ini.id) 0 = false) (hc : wpCommit ini s = (some i, t)) :
    wpCmdWrite ini 1 s = cfgTell i (pointChanged i (ptBefore s i) t) := by
  unfold wpCmdWrite
  dsimp only
  rw [if_neg (by rw [hr]; decide), if_neg (by rw [hb]; decide), if_neg (by decide), hc, hi]

/-- The cached half of an entry, where it is cached, takes the words that DRAM holds (R113). -/
def ptReload (i : Nat) (c : List Word) (s : State) : State :=
  match ptLine s i with
  | some l => putLine i (some { l with words := c ++ l.words.drop 32 }) s
  | none => s

/-- `INVAL` of an entry of the table reloads its half, and the engines answer the change. -/
theorem invalWrite_inTable {s : State} {v : Word} (hr : restoring s = false) (hi : fld v 13 0 < 12288) :
    invalWrite v s = cfgTell (fld v 13 0) (pointChanged (fld v 13 0) (ptBefore s (fld v 13 0))
      (ckptQueue 0 (fld v 13 0) (memWords s (ptAddr s (fld v 13 0)) 32)
        (ptGen (fld v 13 0) (ptCheck (fld v 13 0) (ptReload (fld v 13 0) (memWords s (ptAddr s (fld v 13 0)) 32) s))))) := by
  unfold invalWrite ptInval
  dsimp only
  rw [if_neg (by rw [hr]; decide), if_neg (by unfold ptCount; omega)]
  rfl

/-! ### The read port -/

/-- An interrupt leaves every initiator's own registers. -/
theorem regI_raiseIrq (p q : Page) (n off : Nat) (i : Fin 10) (s : State) : regI (raiseIrq p n s) q off i = regI s q off i :=
  regI_setReg p q (by decide) i _ s

/-- A snapshot of an entry of the table ends with DONE, CACHED as it was found, and RD_DONE (R111). -/
theorem ptSnapshot_shows {s : State} {ini : Ini} {v : Word} (hr : restoring s = false) (hi : fld v 13 0 < 12288) :
    regI (ptSnapshot ini v s) .ptab 0x074 ini.id = word (2 + 4 * b01 (ptLine s (fld v 13 0)).isSome) ∧
      regB (ptSnapshot ini v s) .ptab 0x014 1 = true := by
  unfold ptSnapshot
  dsimp only
  rw [if_neg (by rw [hr]; decide), if_neg (by unfold ptCount; omega)]
  exact ⟨(regI_raiseIrq ..).trans (regI_setRegI_self ..), regB_raiseIrq _ _ _ (by decide)⟩

/-! ### Lookups of cached entries -/

/-- Counting a hit leaves the entry as it reads. -/
theorem ptShown_hit {s : State} {i : Nat} (h : (ptLine s i).isSome = true) (w : Nat) :
    ptShown (bumpReg .ptab 0x04C s) i w = ptShown s i w := by
  unfold ptShown
  rw [word_cached i s _ (bump_line ..) h]

theorem ptHalf_hit {s : State} {i : Nat} (h : (ptLine s i).isSome = true) : ptHalf (bumpReg .ptab 0x04C s) i = ptHalf s i :=
  List.map_congr_left fun w _ => word_cached i s _ (bump_line ..) h w

theorem inControl_bumpReg_ptab (s : State) : inControl (bumpReg .ptab 0x04C s) = inControl s := by
  have htwin : ∀ {off}, off < 0x1000 → reg (bumpReg .ptab 0x04C s) .twin off = reg s .twin off :=
    fun ho => reg_setReg_other (by decide) ho (.inl (by decide)) _ s
  unfold inControl regB
  rw [htwin (by decide), htwin (by decide)]

/-- Counting a hit does not change who may write. -/
theorem ptMayWrite_hit {s : State} {i : Nat} (h : (ptLine s i).isSome = true) (who : Page) (w : Nat) :
    ptMayWrite (bumpReg .ptab 0x04C s) who i w = ptMayWrite s who i w := by
  unfold ptMayWrite
  rw [ptHalf_hit h, inControl_bumpReg_ptab]

/-- A write of a whole word by its owner is a poke. -/
theorem ptWrite_whole {s : State} {who : Page} {i w : Nat} (h : ptMayWrite s who i w = true) (x : Word) :
    ptWrite who i (w, 0, x) s = ptPoke i w x s := by
  rw [ptWrite, if_pos h]
  simp

/-- A read of a cached entry counts a hit and answers the entry as it reads. -/
theorem ptServe_read_hit {s : State} {x : PtHeld} (hi : x.idx < 12288) (hc : (ptLine s x.idx).isSome = true) (hx : x.writes = []) :
    ptServe x s = answer (.bytes (bytesOfWords ((List.range 64).map (ptShown s x.idx)))) (bumpReg .ptab 0x04C s) := by
  have hin : ¬ ptCount ≤ x.idx := by unfold ptCount; omega
  have hsee : ptSee x.idx s = bumpReg .ptab 0x04C s := by rw [ptSee, if_neg hin, if_pos hc]
  have hshown : (List.range 64).map (ptShown (bumpReg .ptab 0x04C s) x.idx) = (List.range 64).map (ptShown s x.idx) :=
    List.map_congr_left fun w _ => ptShown_hit hc w
  rw [ptServe, if_neg hin, hx, if_pos List.isEmpty_nil]
  dsimp only
  rw [hsee, hshown]

/-- A single write to a cached entry counts a hit and is told to the peer. -/
theorem ptServe_write_hit {s : State} {x : PtHeld} {write : Nat × Word × Word} (hi : x.idx < 12288)
    (hc : (ptLine s x.idx).isSome = true) (hx : x.writes = [write]) :
    ptServe x s = stTell x.idx (ptWrite x.who x.idx write (bumpReg .ptab 0x04C s)) := by
  have htouch : ptTouch x.idx s = bumpReg .ptab 0x04C s := if_pos hc
  rw [ptServe, if_neg (by unfold ptCount; omega), hx, if_neg (by simp), htouch]
  rfl

/-- A lookup that PTAB is ready for is served. -/
theorem ptEngine_ready {s : State} (h : ptReady s = true) (x : PtHeld) : ptEngine x s = ptServe x s := if_pos h

/-- Settles O14: the commit by `wpCommit_valid`, the reload by `invalWrite_inTable`, the lookups by what a hit does. -/
theorem pointPortCommandsComplete : Obligations.PointPortCommandsComplete := by
  intro s ini v
  refine ⟨?commit, fun h hr hi => ?inval, fun h hr hi => ?snapshot, fun who i hready hi hc => ?read,
    fun who i w x hready hi hc hw => ?write⟩
  case commit =>
    intro i c h hr hb hp hi hv hid hroom
    have hc : wpMerged (answer .ok s) ini.id i = c := wpMerged_answer ..
    have commit := wpCommit_valid (s := answer .ok s) (ini := ini) (i := i) rfl hr hb hp hi (by rw [hc]; exact hv)
      (by rw [ptHalf_answer, hc]; exact hid) hroom
    rw [hc] at commit
    exact admNext h ((wpCmdWrite_commit (s := answer .ok s) (i := i) rfl hr hb commit).trans (by rw [ptBefore_answer]))
  case inval =>
    have reload := invalWrite_inTable (s := answer .ok s) hr hi
    rw [ptBefore_answer, memWords_answer, ptAddr_answer] at reload
    exact admNext h reload
  case snapshot =>
    obtain ⟨hstat, hirq⟩ := ptSnapshot_shows (s := answer .ok s) (ini := ini) hr hi
    exact ⟨_, admNext h rfl, hstat, hirq⟩
  case read =>
    have hit := ptServe_read_hit (x := { who := who, idx := i, writes := [] }) hi hc rfl
    exact evNext' ((ptEngine_ready hready _).trans hit) (bumpReg_pending .ptab 0x04C s) (bumpReg_tb .ptab 0x04C s)
  case write =>
    have hit := ptServe_write_hit (x := { who := who, idx := i, writes := [(w.val, 0, x)] }) hi hc rfl
    have hpoke := ptWrite_whole ((ptMayWrite_hit hc who w.val).trans hw) x
    exact evNext ((ptEngine_ready hready _).trans (hit.trans (congrArg (stTell i) hpoke)))

end Sys2Proof.Machine
end

section
/-! SUPPORT. The commands of the line ports: modes, listen-before-drive, faults of the driver, preambles, pre-emphasis (R125, R135-R152). -/
namespace Sys2Proof.Machine

/-! ### Mode and driver -/

/-- A write of `EL_CTRL` that no rule of its row refuses is applied against the mode and the rate before it (R135). -/
theorem elCtrlWrite_taken {s : State} {n : Fin 64} {v : Word} (ini : Ini) (h : writeTaken (.line n) 0x040 v s = true) :
    elCtrlWrite ini n.val v s = elApply n.val (portMode s n.val) (lineRate s n.val) (plainWrite ini (.line n) 0x040 v s) := by
  rw [elCtrlWrite, lpE]
  exact if_pos h

theorem lineOf_setPort (n : Nat) (f : LinePort → LinePort) (s : State) :
    lineOf (setPort n f s) n = { lineOf s n with port := f (lineOf s n).port } :=
  (lineOf_put ..).trans (if_pos rfl)

/-- A driver that turns on holds the pair, which the receiver sees driven (R136). -/
theorem driveOn_shows (n : Nat) (s : State) :
    driving (driveOn n s) n = true ∧ elBit (driveOn n s) n 1 = false ∧ elBit (driveOn n s) n 2 = true ∧
      lineOf (driveOn n s) n = lineOf s n ∧ (driveOn n s).mem = s.mem := by
  refine ⟨?_, ?_, ?_, ?_, ?_⟩ <;> simp [driveOn, driving, elBit_setEl, lineOf_setEl]

/-! ### Foreign drive and contention -/

/-- What a fault on the pair records before the port backs off: its bit of `EL_STAT`, its interrupt, and its count in a field of
`CONT_CNT` (R147, R148). -/
def pairFault (n el irq hi lo : Nat) (s : State) : State :=
  bumpRegF (linePage n) 0x06C hi lo (raiseIrq (linePage n) irq (setEl n el true s))

theorem pairFault_shows {el : Nat} (h : el < 32) (n irq hi lo : Nat) (s : State) :
    elBit (pairFault n el irq hi lo s) n el = true ∧ lineOf (pairFault n el irq hi lo s) n = lineOf s n ∧
      (pairFault n el irq hi lo s).mem = s.mem := by
  refine ⟨?bit, ?line, by simp [pairFault]⟩
  case bit => rw [pairFault, elBit_bump _ _ _ _ _ _ (by decide), elBit_raise _ _ _ _ _ rfl, elBit_setEl _ _ _ _ _ h h, if_pos rfl]
  case line => rw [pairFault, lineOf_bumpF, lineOf_raise, lineOf_setEl]

/-- A driven level in the window of a port that does not drive is foreign drive (R147). -/
theorem foreignDrive_inWindow {s : State} {n : Nat} (hm : portMode s n ≠ 0) (hd : driving s n = false)
    (hw : (lineOf s n).port.lbd = true) :
    foreignDrive n s = contendOrForeign n 0x101 (pairFault n 5 1 31 16 (setEl n 2 true (setEl n 1 false s))) := by
  unfold foreignDrive
  dsimp only
  rw [if_neg (by simp [hd, hm]), if_neg (by simp [hw])]
  rfl

theorem contention_driven {s : State} {n : Nat} (hd : drives s n = true) (hc : contEn s n = true) :
    contention n s = contendOrForeign n 0x100 (pairFault n 4 0 15 0 s) :=
  if_neg (by simp [hd, hc])

/-- On a first attempt the driver is off, another end has the pair, and the back-off runs; the bit of the fault stays (R149). -/
theorem contendOrForeign_first {s : State} {n : Nat} (code : Nat) (h : (lineOf s n).port.retry = false) :
    driving (contendOrForeign n code s) n = false ∧ elBit (contendOrForeign n code s) n 3 = true ∧
      elBit (contendOrForeign n code s) n 2 = true ∧
      (∀ c, 3 < c → c < 32 → elBit (contendOrForeign n code s) n c = elBit s n c) ∧
      lineOf (contendOrForeign n code s) n = lineOf (driveOff n s) n ∧ (contendOrForeign n code s).mem = s.mem := by
  have backs : contendOrForeign n code s = setEl n 3 true (setEl n 2 true (driveOff n s)) := if_neg (by rw [h]; decide)
  have bits : ∀ c, c < 32 → elBit (contendOrForeign n code s) n c =
      if 3 = c then true else if 2 = c then true else elBit (driveOff n s) n c := by
    intro c hc
    rw [backs, elBit_setEl _ _ _ _ _ (by decide) hc, elBit_setEl _ _ _ _ _ (by decide) hc]
  refine ⟨?off, bits 3 (by decide), bits 2 (by decide), fun c hlo hc => ?kept, ?line, by simp [backs]⟩
  case off => exact (bits 0 (by decide)).trans (elBit_driveOff _ _ _ (by decide))
  case kept =>
    rw [bits c hc, if_neg (by omega), if_neg (by omega), elBit_driveOff _ _ _ hc, if_neg (by omega), if_neg (by omega)]
  case line => rw [backs, lineOf_setEl, lineOf_setEl]

/-! ### Over-current -/

/-- Over-current on a first attempt turns the driver off, and the port waits for its retry (R151). -/
theorem overCurrent_first {s : State} {n : Nat} (hd : drives s n = true) (hr : (lineOf s n).port.ocpRetry = false) :
    driving (overCurrent n s) n = false ∧ elBit (overCurrent n s) n 6 = true ∧ (lineOf (overCurrent n s) n).port.ocpWait = true ∧
      (overCurrent n s).mem = s.mem := by
  have hmem : (if elBit s n 6 then s else raiseIrq (linePage n) 3 s).mem = s.mem := by split <;> simp
  unfold overCurrent
  dsimp only
  rw [if_neg (by simp [hd]), if_neg (by simp [hr])]
  generalize (if elBit s n 6 then s else raiseIrq (linePage n) 3 s) = raised at hmem ⊢
  refine ⟨?off, ?shown, ?waits, ?mem⟩
  case off => rw [driving, elBit_setPort, elBit_setEl _ _ _ _ _ (by decide) (by decide), elBit_driveOff _ _ _ (by decide)]; rfl
  case shown => rw [elBit_setPort, elBit_setEl _ _ _ _ _ (by decide) (by decide), if_pos rfl]
  case waits => rw [lineOf_setPort]
  case mem => rw [setPort_mem, setEl_mem, driveOff_mem, hmem]

/-! ### Return preambles -/

/-- Counting bit errors changes `BIT_ERR` alone (R125). -/
theorem reg_countBitErrs_off {n : Fin 64} {o : Nat} (h : o ≠ 0x064) (k : Nat) (s : State) :
    reg (countBitErrs n.val k s) (.line n) o = reg s (.line n) o := by
  rw [countBitErrs, lpE]
  exact reg_setReg_off _ (Ne.symm h) _ _

theorem reg_countBitErrs (n : Fin 64) (k : Nat) (s : State) :
    reg (countBitErrs n.val k s) (.line n) 0x064 = word (min 0xFFFFFFFF (regN s (.line n) 0x064 + k)) := by
  rw [countBitErrs, lpE]
  exact reg_setReg_self ..

theorem lineOf_countBitErrs (n k : Nat) (s : State) : lineOf (countBitErrs n k s) n = lineOf s n := lineOf_setReg ..

/-- A preamble that differs is counted in `PRE_BAD` alone, and no stream behind it is taken (R139). -/
theorem returnPreamble_missed {s : State} {n : Fin 64} {highs : List Nat} (vhi vlo : Int) (rtt : Nat) (hm : portMode s n.val ≠ 0)
    (hw : working s (.line n) = true) (hp : preambleBits highs ≠ preamble) :
    reg (returnPreamble n.val highs vhi vlo rtt s) (.line n) 0x060 = word (satInc 0xFFFFFFFF (regN s (.line n) 0x060)) ∧
      reg (returnPreamble n.val highs vhi vlo rtt s) (.line n) 0x05C = reg s (.line n) 0x05C ∧
      (lineOf (returnPreamble n.val highs vhi vlo rtt s) n.val).preOk = false ∧
      (returnPreamble n.val highs vhi vlo rtt s).mem = s.mem := by
  unfold returnPreamble
  rw [lpE, if_neg (by simp [hm, hw])]
  dsimp only
  rw [if_neg hp]
  have hcount : reg (countBitErrs n.val (badHighs highs) s) (.line n) 0x060 = reg s (.line n) 0x060 :=
    reg_countBitErrs_off (by decide) ..
  have hother : reg (countBitErrs n.val (badHighs highs) s) (.line n) 0x05C = reg s (.line n) 0x05C :=
    reg_countBitErrs_off (by decide) ..
  have hmem : (countBitErrs n.val (badHighs highs) s).mem = s.mem := countBitErrs_mem ..
  generalize countBitErrs n.val (badHighs highs) s = counted at hcount hother hmem ⊢
  refine ⟨?missed, ?accepted, ?pre, ?mem⟩
  case missed =>
    rw [setEl, lpE, setRegB, reg_setReg_off _ (by decide), bumpReg, reg_setReg_self]
    exact congrArg (fun w => word (satInc 0xFFFFFFFF w.toNat)) hcount
  case accepted =>
    rw [setEl, lpE, setRegB, reg_setReg_off _ (by decide), bumpReg, reg_setReg_off _ (by decide)]
    exact hother
  case pre => rw [lineOf_setEl, bumpReg, lineOf_setReg, lineOf_put, if_pos rfl]
  case mem => rw [setEl_mem, bumpReg_mem]; exact hmem

/-- Only a return phase of the line's own takes the round trip and clears SILENT (R187, R202). -/
theorem preambleOwn_shows {s : State} {n : Fin 64} (rtt : Nat) (h : (lineOf s n.val).back.isSome = true) :
    reg (preambleOwn n.val rtt s) (.line n) 0x09C = word rtt ∧ regB (preambleOwn n.val rtt s) (.line n) 0x084 6 = false := by
  rw [preambleOwn, if_pos h, lpE]
  refine ⟨?_, regB_setRegB_self _ _ _ _ _ (by decide)⟩
  rw [setRegB, reg_setReg_off _ (by decide), reg_setReg_self]

/-- Whoever's phase it is, every other register of the page, the line and memory stay. -/
theorem preambleOwn_keeps (n : Fin 64) (rtt : Nat) (s : State) :
    (∀ o, o ≠ 0x084 → o ≠ 0x09C → reg (preambleOwn n.val rtt s) (.line n) o = reg s (.line n) o) ∧
      lineOf (preambleOwn n.val rtt s) n.val = lineOf s n.val ∧ (preambleOwn n.val rtt s).mem = s.mem := by
  unfold preambleOwn
  split
  · rw [lpE]
    refine ⟨fun o h84 h9c => ?_, by simp [setRegB], by simp⟩
    rw [setRegB, reg_setReg_off _ (Ne.symm h84), reg_setReg_off _ (Ne.symm h9c)]
  · exact ⟨fun _ _ _ => rfl, rfl, rfl⟩

/-- The state in which an accepted preamble has been counted and learned from (R125, R139-R142). -/
def preambleLearned (n : Nat) (highs : List Nat) (vhi vlo : Int) (s : State) : State :=
  learn n highs vhi vlo (margins n highs vhi vlo (bumpReg (linePage n) 0x05C (countBitErrs n (badHighs highs) s)))

theorem returnPreamble_accepted {s : State} {n : Fin 64} {highs : List Nat} (vhi vlo : Int) (rtt : Nat) (hm : portMode s n.val ≠ 0)
    (hw : working s (.line n) = true) (hp : preambleBits highs = preamble) :
    returnPreamble n.val highs vhi vlo rtt s =
      putLine' n.val { lineOf (preambleOwn n.val rtt (preambleLearned n.val highs vhi vlo s)) n.val with preOk := true }
        (preambleOwn n.val rtt (preambleLearned n.val highs vhi vlo s)) := by
  rw [returnPreamble, if_neg (by simp [hm, lpE, hw])]
  exact if_pos hp

/-- Learning keeps what the two counters have counted: the accepted preamble and its bit errors. -/
theorem preambleLearned_shows (n : Fin 64) (highs : List Nat) (vhi vlo : Int) (s : State) :
    reg (preambleLearned n.val highs vhi vlo s) (.line n) 0x05C = word (satInc 0xFFFFFFFF (regN s (.line n) 0x05C)) ∧
      reg (preambleLearned n.val highs vhi vlo s) (.line n) 0x064 = word (min 0xFFFFFFFF (regN s (.line n) 0x064 + badHighs highs)) ∧
      (∀ o, o = 0x044 ∨ o = 0x060 → reg (preambleLearned n.val highs vhi vlo s) (.line n) o = reg s (.line n) o) ∧
      lineOf (preambleLearned n.val highs vhi vlo s) n.val = lineOf s n.val ∧ (preambleLearned n.val highs vhi vlo s).mem = s.mem := by
  obtain ⟨hreg, hline, hmem⟩ := (learnKeeps_margins n highs vhi vlo _).trans (learnKeeps_learn n highs vhi vlo
    (margins n.val highs vhi vlo (bumpReg (linePage n.val) 0x05C (countBitErrs n.val (badHighs highs) s))))
  have hbump : ∀ o, o ≠ 0x05C → reg (bumpReg (linePage n.val) 0x05C (countBitErrs n.val (badHighs highs) s)) (.line n) o =
      reg (countBitErrs n.val (badHighs highs) s) (.line n) o := by
    intro o ho
    rw [lpE]
    exact reg_setReg_off _ (Ne.symm ho) _ _
  unfold preambleLearned
  refine ⟨?accepted, ?errors, fun o ho => ?kept, ?line, ?mem⟩
  case accepted =>
    rw [hreg _ (by decide), lpE, bumpReg, reg_setReg_self, regN, reg_countBitErrs_off (by decide)]
    rfl
  case errors => rw [hreg _ (by decide), hbump _ (by decide), reg_countBitErrs]
  case kept => rw [hreg _ (by omega), hbump _ (by omega), reg_countBitErrs_off (by omega)]
  case line => rw [hline, bumpReg, lineOf_setReg, lineOf_countBitErrs]
  case mem => rw [hmem, bumpReg_mem, countBitErrs_mem]

/-! ### Pre-emphasis -/

/-- An automatic step whose fresh margin is at or below `PE_LO` moves up by one below `PE_MAX`, and the margin is used up (R144). -/
theorem peMove_up {s : State} {n : Fin 64} {k : Nat} (hm : portMode s n.val = 1) (hfreeze : regB s (.line n) 0x040 17 = false)
    (hman : regB s (.line n) 0x050 31 = false) (hnew : regB s (.line n) 0x058 27 = true)
    (hlow : regF s (.line n) 0x058 31 28 ≤ regF s (.line n) 0x054 11 8) (hk : (lineOf s n.val).port.peStep = k)
    (hmax : k < regF s (.line n) 0x050 27 24) :
    peMove n.val s = setRegB (.line n) 0x058 27 false (peSet n.val (k + 1) s) := by
  unfold peMove
  rw [lpE, hk]
  dsimp only
  rw [if_neg (by simp [hm, hfreeze, hman, hnew]), if_pos hlow, if_pos hmax]

/-- The evaluation at the end of an interval starts the next one, and moves the step (R144). -/
theorem peEvaluate_intervalEnd {s : State} {n : Fin 64} (hend : regF s (.line n) 0x054 31 24 ≤ (lineOf s n.val).port.peCount)
    (hkept : peKept s n.val = false) :
    peEvaluate n.val s = peMove n.val (setPort n.val (fun q => { q with peCount := 0 }) s) := by
  rw [peEvaluate, lpE]
  exact if_neg (by simp [hkept, hend])

/-- Settles O15: each end of a wait opens its command's one guard; a fault is a `pairFault` that backs off by `contendOrForeign_first`; an
accepted preamble is `preambleLearned`, then its own phase; a step up is `peMove_up`. -/
theorem linePortCommandsComplete : Obligations.LinePortCommandsComplete := by
  intro s ini n v
  refine ⟨fun h htaken => ?mode, fun hw hd => ?windowEnd, fun hm hd hw hr => ?foreign, fun hd hc hr => ?contention,
    fun hb => evNext (if_pos hb), fun hd hr => ?overCurrent, fun hw => evNext (if_pos hw), fun hh => ?overTemp,
    fun hh => evNext (if_pos hh), fun hd => ?undriven, fun highs vhi vlo rtt hm hw hp => ?missed,
    fun highs vhi vlo rtt hm hw hp => ?accepted, fun hm hfreeze hman hnew hlow hmax hend hkept => ?preEmphasis⟩
  case mode => exact admNext h (elCtrlWrite_taken ini ((writeTaken_answer ..).trans htaken))
  case windowEnd =>
    obtain ⟨hdrives, hundriven, hdriven, hline, hmem⟩ := driveOn_shows n.val (setPort n.val (fun p => { p with lbd := false }) s)
    refine ⟨_, evNext ((if_neg (by simp [hw])).trans (if_neg (by simp [hd]))), hdrives, hundriven, hdriven, ?_, hmem⟩
    rw [lineOf_settle, hline, lineOf_setPort]
  case foreign =>
    obtain ⟨hshown, hfault, hmem⟩ := pairFault_shows (el := 5) (by decide) n.val 1 31 16 (setEl n.val 2 true (setEl n.val 1 false s))
    have hsame := hfault.trans ((lineOf_setEl ..).trans (lineOf_setEl ..))
    obtain ⟨hoff, hbackoff, hdriven, hbits, hline, hkeeps⟩ :=
      contendOrForeign_first 0x101 ((congrArg (·.port.retry) hsame).trans hr)
    refine ⟨_, evNext (foreignDrive_inWindow hm hd hw), hoff, (hbits 5 (by decide) (by decide)).trans hshown, hbackoff, hdriven, ?_, ?_⟩
    · rw [lineOf_settle, hline, (lineOf_driveOff ..).2.2]
    · rw [settle_mem, hkeeps, hmem, setEl_mem, setEl_mem]
  case contention =>
    obtain ⟨hshown, hfault, hmem⟩ := pairFault_shows (el := 4) (by decide) n.val 0 15 0 s
    obtain ⟨hoff, hbackoff, -, hbits, hline, hkeeps⟩ :=
      contendOrForeign_first 0x100 ((congrArg (·.port.retry) hfault).trans hr)
    refine ⟨_, evNext (contention_driven hd hc), hoff, (hbits 4 (by decide) (by decide)).trans hshown, hbackoff, ?_, hkeeps.trans hmem⟩
    rw [lineOf_settle, hline, (lineOf_driveOff ..).1]
  case overCurrent => exact ⟨_, evNext rfl, overCurrent_first hd hr⟩
  case overTemp => exact ⟨_, evNext (if_neg (by simp [hh])), hotOff n.val s _ (hotMem n.val s)⟩
  case undriven => exact evNext' (if_neg (by simp [hd])) (by simp) (by simp)
  case missed => exact ⟨_, evNext rfl, returnPreamble_missed vhi vlo rtt hm hw hp⟩
  case accepted =>
    obtain ⟨haccepted, herrors, hregs, hline, hmem⟩ := preambleLearned_shows n highs vhi vlo s
    obtain ⟨hown, hownLine, hownMem⟩ := preambleOwn_keeps n rtt (preambleLearned n.val highs vhi vlo s)
    refine ⟨_, evNext (returnPreamble_accepted vhi vlo rtt hm hw hp), (hown _ (by decide) (by decide)).trans haccepted,
      (hown _ (by decide) (by decide)).trans (hregs _ (.inr rfl)), (hown _ (by decide) (by decide)).trans herrors,
      fun hback => preambleOwn_shows rtt (by rw [hline, hback]), ?_, ?_, hownMem.trans hmem⟩
    · have hel := (hown 0x044 (by decide) (by decide)).trans (hregs _ (.inl rfl))
      rw [← lpE] at hel
      exact congrArg (bit · 8) hel
    · rw [lineOf_settle, lineOf_put, if_pos rfl]
  case preEmphasis =>
    have up := peMove_up (s := setPort n.val (fun q => { q with peCount := 0 }) s) hm hfreeze hman hnew hlow
      (congrArg (·.port.peStep) (lineOf_setPort ..)) hmax
    exact evNext' ((peEvaluate_intervalEnd hend hkept).trans up) (by simp) (by simp)

end Sys2Proof.Machine
end

section
/-! SUPPORT. The sequencer's commands up to the return phase (R162, R172, R188, R191, R192, R195, R196, R199, R203). -/
namespace Sys2Proof.Machine

/-! ### Control -/

/-- A write of `LN_CTRL` that starts no line against its rate is taken; the frame fixed for a line that it stops is stale (R188,
R192). -/
theorem lnCtrlWrite_taken {s : State} {n : Fin 64} {v : Word} (ini : Ini)
    (h : bit v 0 = false ∨ lineRun s n.val = true ∨
      (if locked s (.line n) 1 then linePixel s n.val else bit v 1) = (lineRate s n.val == 2)) :
    lnCtrlWrite ini n.val v s =
      if lineRun s n.val && !lineRun (plainWrite ini (.line n) 0x080 v s) n.val then unfix n.val (plainWrite ini (.line n) 0x080 v s)
      else plainWrite ini (.line n) 0x080 v s := by
  unfold lnCtrlWrite
  rw [lpE]
  refine if_neg ?_
  rcases h with hstop | hrun | hrate
  · simp [hstop]
  · simp [hrun]
  · cases hrun : lineRun s n.val <;> simp [hrate]

/-- A firmware frame of the line's own type with a return buffer is taken, its COUNT cut to what the line can carry (R203;
DEDUCED, log 62). -/
theorem lnFreq_taken {s : State} {n : Fin 64} {v : Word} (hfree : (lineOf s n.val).fw = none)
    (htype : fld v 31 28 = if linePixel s n.val then 5 else 1) (hbuf : reg s (.line n) 0x0A0 ≠ 0) :
    lnFreq n.val v s = putLine' n.val
      { lineOf s n.val with fw := some (fld v 18 16, min (if linePixel s n.val then 1024 else 64) (fld v 10 0)) } s := by
  unfold lnFreq
  rw [lpE]
  exact (if_neg (by simp [hfree, htype])).trans (if_neg hbuf)

/-! ### Cycles and urgent frames -/

/-- At a cycle start of a lantern line whose pair is free the frame that was fixed for this edge goes out (R191, R192). -/
theorem cycleStart_sends {s : State} {n : Nat} {f : LFrame} (hs : lineSends s n = true) (hpix : linePixel s n = false)
    (hfree : pairBusy s n = false) (hfix : liveFix s n = some f) :
    cycleStart n s = lineSend n f (peCycle n (proofsAnew n s)) := by
  obtain ⟨-, -, hline⟩ := peCycle_f n (proofsAnew n s)
  have hbusy : pairBusy (peCycle n (proofsAnew n s)) n = false := by
    unfold pairBusy
    rw [hline]
    exact hfree
  have hlive : liveFix (peCycle n (proofsAnew n s)) n = some f := by
    unfold liveFix
    rw [hline]
    exact hfix
  have hpix' : linePixel (proofsAnew n s) n = false := hpix
  have hs' : lineSends (proofsAnew n s) n = true := hs
  unfold cycleStart
  dsimp only
  rw [if_neg (by simp [hpix']), if_neg (by simp [hs']), if_neg (by simp [hbusy]), hlive]

/-- A frame that is due puts its bytes on the wire and leaves nothing fixed; only the SEQs that it gives out move memory (R154,
R196). -/
theorem lineSend_shows (n : Nat) (f : LFrame) (s : State) :
    (lineSend n f s).sent.getLast? = some (.wadi n (f.head ++ f.slots)) ∧
      (lineOf (lineSend n f s) n).wire = some { f with again := (lineOf s n).again } ∧ (lineOf (lineSend n f s) n).fixed = none ∧
      (f.gives = [] → (lineSend n f s).sent = s.sent ++ [.wadi n (f.head ++ f.slots)] ∧ (lineSend n f s).mem = s.mem) := by
  obtain ⟨pos, hline⟩ := lineSend_l n f s
  refine ⟨wireSend_last .., ?_, ?_, fun hg => wireSend_none n { f with again := (lineOf s n).again } _ hg⟩
  · rw [hline]
  · rw [hline]

theorem frameFix_unfixed {s : State} {n : Nat} (hs : lineSends s n = true) (hpix : linePixel s n = false)
    (hfix : (lineOf s n).fixed = none) : frameFix n s = fixFrame n s :=
  if_pos (by rw [hs, hpix, hfix]; rfl)

/-- An urgent frame goes out as it is fixed, on a free pair (R172, R199). -/
theorem lurg_sends {s : State} {n : Nat} {f : LFrame} (hs : lineSends s n = true) (hpix : linePixel s n = false)
    (hfree : pairBusy s n = false) (hwait : urgWaiting s n = true) (hpt : ptReady s = true)
    (hfix : (fixUrgent n (urgTop s n) (mapLook n s)).1 = some f) :
    lurg n s = wireSend n f (fixUrgent n (urgTop s n) (mapLook n s)).2 := by
  unfold lurg
  rw [if_neg (by simp [hs, hpix, hfree, hwait, hpt])]
  generalize fixUrgent n (urgTop s n) (mapLook n s) = fixed at hfix ⊢
  obtain ⟨frame, fixedState⟩ := fixed
  cases hfix
  rfl

/-! ### The end of a forward phase -/

/-- The state in which a frame's trailer TURN is on the wire, and its commands count as sent (R162, R197). -/
def turnSent (n : Nat) (f : LFrame) (s : State) : State :=
  pixSent n f (markSent n f (drivenCleanly n (send (.wadi n (frameEnd f trailTurn))
    (setReg (linePage n) 0x0A4 (reg s (linePage n) 0x0A4 + 1) s))))

theorem turnSent_shows (n : Nat) (f : LFrame) (s : State) :
    (turnSent n f s).sent = s.sent ++ [.wadi n (frameEnd f trailTurn)] ∧ (turnSent n f s).mem = s.mem := by
  unfold turnSent
  constructor
  · rw [(pixSent_f ..).1, (markSent_f ..).1, (drivenCleanly_f ..).1, send, setReg_sent]
  · rw [(pixSent_f ..).2, (markSent_f ..).2, (drivenCleanly_f ..).2, send_mem, setReg_mem]

/-- NUPD counts the lantern cycles of a line (R400). -/
def cycleCounted (n : Nat) (f : LFrame) (s : State) : State :=
  if f.ftype = 1 then { s with nupd := { s.nupd with cycles := spPut (fun _ => 0) n (spGet (fun _ => 0) s.nupd.cycles n + 1) s.nupd.cycles } }
  else s

theorem cycleCounted_keeps (n : Nat) (f : LFrame) (s : State) :
    (cycleCounted n f s).sent = s.sent ∧ (cycleCounted n f s).mem = s.mem := by
  unfold cycleCounted
  split <;> exact ⟨rfl, rfl⟩

/-- A frame with a return that no HOLD follows gives the pair to its return phase (R162, R192). -/
theorem forwardEnd_turn {s : State} {n : Nat} {f : LFrame} (hw : (lineOf s n).wire = some f) (hret : f.ret = true)
    (htrail : trailOf s n f = 0) :
    forwardEnd n s = setRegB (linePage n) 0x084 2 false (putLine' n
      { lineOf (turnSent n f s) n with wire := none, back := some { f with marked := firstSent s n f }, retMade := true }
      (cycleCounted n f (turnSent n f s))) := by
  have hfree : (f.ftype == 4 && !f.ret) = false := by simp [hret]
  unfold forwardEnd
  rw [hw]
  dsimp only
  rw [htrail, hfree, hret]
  rfl

theorem forwardEnd_turn_shows {s : State} {n : Nat} {f : LFrame} (hw : (lineOf s n).wire = some f) (hret : f.ret = true)
    (htrail : trailOf s n f = 0) :
    (lineOf (forwardEnd n s) n).wire = none ∧ (lineOf (forwardEnd n s) n).back = some { f with marked := firstSent s n f } ∧
      (forwardEnd n s).sent = s.sent ++ [.wadi n (frameEnd f trailTurn)] ∧ (forwardEnd n s).mem = s.mem := by
  obtain ⟨hsent, hmem⟩ := turnSent_shows n f s
  obtain ⟨hsentCounted, hmemCounted⟩ := cycleCounted_keeps n f (turnSent n f s)
  rw [forwardEnd_turn hw hret htrail, setRegB, lineOf_setReg, lineOf_put, if_pos rfl, setReg_sent, setReg_mem]
  exact ⟨rfl, rfl, hsentCounted.trans hsent, hmemCounted.trans hmem⟩

/-! ### Queues -/

/-- What becomes of an offer that LSEQ takes up turns on its point, its opcode and the room in the queues (R98, R195): one of a
point that is no longer served falls (DEDUCED, log 137). -/
theorem handover_open {s : State} {src k l : Nat} {c : Cmd} {ps : List Nat} (hoffer : offerAt s src k = some c)
    (hplaces : cmdPlaces s c.point = some (l, ps)) (hlseq : accepting s .lseq = true) (hline : accepting s (linePage l) = true)
    (hpt : ptReady s = true) (hgroup : c.members = []) (hcontrol : inControl s = true) (hnupd : src = 2 → nuSends s = true) :
    handover src k s =
      (let c1 := { c with src := src, since := tbNs s.tb.t0 / 1000 }
       let s0 := setOffers src (dropAt (offersOf s src) k) s
       if src < 2 ∧ ptServed s c.point = false then s0
       else if c.op = 4 then putRevokes l (cmdOnly c ps) c1 s0
       else if roomFor s l (cmdOnly c ps) c1 then
         if src = 0 then dimHanded c1 (putQueued l (cmdOnly c ps) c1 s0) else putQueued l (cmdOnly c ps) c1 s0
       else raiseIrq .lseq 0 (bumpReg .lseq 0x054 s)) := by
  unfold handover
  rw [hoffer]
  dsimp only
  rw [hplaces]
  exact if_neg (by simpa [hlseq, hline, hpt, hgroup, hcontrol] using hnupd)

/-- A revocation that names no command going out now is taken off its list, and reaches each position of its point (R196). -/
theorem lseqRevoke_taken {s : State} {nupd : Bool} {k i cause l : Nat} {ps : List Nat} (hrev : (revsOf s nupd)[k]? = some (i, cause))
    (hplaces : cmdPlaces s i = some (l, ps)) (hlseq : accepting s .lseq = true) (hline : accepting s (linePage l) = true)
    (hpt : ptReady s = true) (hnupd : nupd = true → nuSends s = true)
    (hout : (ps.any fun p => revokeWaits nupd s l p i cause) = false) :
    lseqRevoke nupd k s = forEach (fun p t => revokeAt nupd l p i cause t) ps (dropRev nupd k s) := by
  unfold lseqRevoke
  rw [hrev]
  dsimp only
  rw [hplaces]
  dsimp only
  rw [hout]
  exact if_neg (by simpa [hlseq, hline, hpt] using hnupd)

/-- Settles O16: a control write by `lnCtrlWrite_taken`, a frame that starts by `lineSend_shows`, one that ends by
`forwardEnd_turn_shows`, an offer by the branches of `handover_open`. -/
theorem sequencerCommandsComplete : Obligations.SequencerCommandsComplete := by
  intro s ini n v
  refine ⟨fun h hrate => ?runStart, fun h => ?runStop, fun f hfw hidle hat hs hpix hfree hfix => ?cycleStart,
    fun hs hpix hfix => evNext (frameFix_unfixed hs hpix hfix),
    fun f hs hpix hfree hwait hpt hfix => evNext (lurg_sends hs hpix hfree hwait hpt hfix),
    fun f hw hret _ htrail => ⟨_, evNext rfl, forwardEnd_turn_shows hw hret htrail⟩,
    fun src k c l ps hoffer hplaces hlseq hline hpt hgroup hcontrol hnupd => ?handover,
    fun nupd k i cause l ps hrev hplaces hlseq hline hpt hnupd hout =>
      evNext (lseqRevoke_taken hrev hplaces hlseq hline hpt hnupd hout),
    fun h hfree htype hbuf => admwNext' h (lnFreq_taken (s := answer .ok s) hfree htype hbuf) rfl rfl⟩
  case runStart => exact admNext h (lnCtrlWrite_taken (s := answer .ok s) ini (.inr hrate))
  case runStop =>
    have hclear : bit (v &&& ~~~1) 0 = false := by rw [bit_and, show bit (~~~1 : Word) 0 = false by decide, Bool.and_false]
    exact admNext h (lnCtrlWrite_taken (s := answer .ok s) ini (.inl hclear))
  case cycleStart =>
    have hstart : (!regB s (.line n) 0x080 4 && !idleMode s && atCycleStart s n.val) = true := by rw [hfw, hidle, hat]; rfl
    obtain ⟨hsentPe, hmemPe, hlinePe⟩ := peCycle_f n.val (proofsAnew n.val s)
    obtain ⟨hlast, hwire, hfixed, hquiet⟩ := lineSend_shows n.val f (peCycle n.val (proofsAnew n.val s))
    rw [hlinePe] at hwire
    rw [hsentPe, hmemPe] at hquiet
    exact ⟨_, evNext ((if_pos hstart).trans (cycleStart_sends hs hpix hfree hfix)), hlast, hwire, hfixed, hquiet⟩
  case handover =>
    have opened := handover_open hoffer hplaces hlseq hline hpt hgroup hcontrol hnupd
    have served : (src.val < 2 → ptServed s c.point = true) → ¬(src.val < 2 ∧ ptServed s c.point = false) :=
      fun hserved ⟨hsrc, hnot⟩ => by simp [hserved hsrc] at hnot
    refine ⟨fun hsrc hnot => evNext (opened.trans (if_pos ⟨hsrc, hnot⟩)), fun hserved hop => ?revocation,
      fun hserved hop hroom => ?queued⟩
    case revocation => exact evNext (opened.trans ((if_neg (served hserved)).trans (if_pos hop)))
    case queued => exact evNext (opened.trans ((if_neg (served hserved)).trans ((if_neg hop).trans (if_pos hroom))))

end Sys2Proof.Machine
end

section
/-! SUPPORT. Return phases and the pixel commands (R178, R201, R202, R205-R208, R211). -/
namespace Sys2Proof.Machine

/-- A return phase that has had no accepted preamble by its time counts as lost (R202). -/
theorem returnTimeout_lost {s : State} {n : Nat} {f : LFrame} (hback : (lineOf s n).back = some f) (hpre : (lineOf s n).preOk = false) :
    returnTimeout n s = phaseLost n f s := by
  unfold returnTimeout
  rw [hback]
  exact if_neg (by simp [hpre])

/-- A commit on a group's free buffers, all of them right, waits for its instant (R205, R206). -/
theorem grpCommit_waits {s : State} {g : Nat} {v : Word} (hlines : groupLines s g ≠ []) (hwait : (pixGroup s g).wait = none)
    (hfree : (if bit v 16 then (pixGroup s g).busyB else (pixGroup s g).busyA) = false)
    (hbufs : ∀ m ∈ groupLines s g, pixBuf s m (bit v 16) % 64 = 0 ∧ inDram (pixBuf s m (bit v 16)) (6 * pixCount s m) = true) :
    grpCommit g v s = putGroup g
      { pixGroup s g with
        wait := some (bit v 16, fld v 15 0, (List.range 4).map (baseNow s))
        sentOn := []
        busyA := (pixGroup s g).busyA || !bit v 16
        busyB := (pixGroup s g).busyB || bit v 16 } s := by
  have hright : ((groupLines s g).any fun m => pixBuf s m (bit v 16) % 64 != 0 || !inDram (pixBuf s m (bit v 16)) (6 * pixCount s m)) =
      false := by
    simpa using hbufs
  unfold grpCommit
  dsimp only
  rw [if_neg (by simp [hlines]), if_neg (by simp [hwait, hfree]), if_neg (by simp [hright])]

/-! ### Pixel frames -/

/-- The state in which a line has counted the swap period of an instant, and a return wanted in it shows in RET_NOFIT whether it fits
(R208, R210). -/
def periodCounted (n : Fin 64) (i : Nat × Nat) (s : State) : State :=
  putLine' n.val { lineOf s n.val with periods := periodOf s n.val i, counted := some i }
    (if retWanted s n.val i then setRegB (.line n) 0x084 8 (!startFits s n.val i true) s else s)

/-- A PCFG that has waited eight periods takes the place of PDATA (R211). -/
theorem pdataStartNow_pcfg {s : State} {n : Fin 64} {i : Nat × Nat} (hs : pixSends s n.val = true)
    (hnext : nextSwap s (swapGroup s n.val) = some i)
    (hwaited : 8 ≤ (lineOf (periodCounted n i s) n.val).pcfgWait ∧ pcfgWaits (periodCounted n i s) n.val = true) :
    pdataStartNow n.val s = pcfgSend n.val (periodCounted n i s) := by
  unfold pdataStartNow
  rw [if_neg (by simp [hs])]
  dsimp only
  rw [hnext, lpE]
  exact if_pos (Bool.and_eq_true_iff.mpr ⟨decide_eq_true hwaited.1, hwaited.2⟩)

/-- Otherwise the buffer that `choosePix` finds for the instant goes on the wire (R208), with its return where one is wanted and fits
(R210). -/
theorem pdataStartNow_picture {s counted : State} {n : Fin 64} {i buf} (hs : pixSends s n.val = true)
    (hnext : nextSwap s (swapGroup s n.val) = some i)
    (hnot : ¬(8 ≤ (lineOf (periodCounted n i s) n.val).pcfgWait ∧ pcfgWaits (periodCounted n i s) n.val = true))
    (hbuf : choosePix n.val (swapGroup s n.val) i (periodCounted n i s) = (some buf, counted)) :
    pdataStartNow n.val s =
      lineSend n.val (pdataFrame counted n.val buf (retWanted s n.val i && startFits s n.val i true)) (fixLook n.val counted) := by
  unfold periodCounted at hnot hbuf
  unfold pdataStartNow
  rw [if_neg (by simp [hs])]
  dsimp only
  rw [hnext, lpE]
  dsimp only
  rw [if_neg (by simpa using hnot), hbuf]

/-- A swap instant known in time goes on the wire (R207). -/
theorem pswapNow_sends {s : State} {n : Nat} {i : Nat × Nat} (hs : pixSends s n = true) (hnext : nextSwap s (swapGroup s n) = some i)
    (hknown : knownLate s n i = false) : pswapNow n s = wireSend n (pswapFrame s n) s := by
  unfold pswapNow
  rw [if_neg (by simp [hs]), hnext]
  exact if_neg (by simp [hknown])

/-- A waiting PCFG that fits goes between the pictures (R211). -/
theorem pcfgPlace_sends {s : State} {n : Nat} (hs : pixSends s n = true) (hwait : pcfgWaits s n = true)
    (hfits : placeFits s n (pcfgBits (pcfgCount s n)) = true) : pcfgPlace n s = pcfgSend n s :=
  (if_neg (by simp [hs])).trans (if_pos (by rw [hwait, hfits]; rfl))

/-- Settles O17: the returns by what ends their phase (`ret_back`, `phaseLost_back`, `pixReturn_back`), the commit by
`grpCommit_waits`, each frame by the lemma that sends it, in the state that keeps the told delay (DESIGN CHOICE, log 65). -/
theorem returnAndPixelCommandsComplete : Obligations.ReturnAndPixelCommandsComplete := by
  intro s ini n v
  refine ⟨fun f slots bitErrs hback hpre htype hcontrol =>
      ⟨evNext (if_pos hcontrol), ret_back n.val slots bitErrs s f hback hpre htype⟩,
    fun f hback hpre => ⟨evNext (congrArg handStep (returnTimeout_lost hback hpre)), phaseLost_back ..⟩,
    fun g h hlines hwait hfree hbufs => admwNext' h (grpCommit_waits (s := answer .ok s) hlines hwait hfree hbufs) rfl rfl,
    fun delay i buf hs hnext => ?pdata,
    fun buf hs hlast => evNext ((if_pos hs).trans (by rw [hlast])),
    fun delay i hs hnext hknown => evNext (pswapNow_sends hs hnext hknown),
    fun hs hwait hfits => evNext (pcfgPlace_sends hs hwait hfits),
    fun f words hback hpre htype => ⟨_, evNext rfl, pixReturn_back n.val words s f hback hpre htype⟩⟩
  case pdata => exact ⟨fun hwaited => evNext (pdataStartNow_pcfg hs hnext hwaited),
    fun hnot hbuf => evNext (pdataStartNow_picture hs hnext hnot (Prod.ext hbuf rfl))⟩

end Sys2Proof.Machine
end

section
/-! SUPPORT. Arbitration and the final level (R215-R219). -/
namespace Sys2Proof.Machine

theorem mem_prios {p : Nat} : p ∈ prios ↔ 1 ≤ p ∧ p ≤ 7 := by simp [prios]; omega

/-- The first slot that passes a test has the highest priority of those that pass it. -/
theorem prios_find?_highest {f : Nat → Bool} {p q : Nat} (h : prios.find? f = some p) (hlt : p < q) (hq : q ≤ 7) : f q = false := by
  obtain ⟨-, before, after, hsplit, hbefore⟩ := List.find?_eq_some_iff_append.mp h
  have hdesc : (before ++ p :: after).Pairwise (· > ·) := by rw [← hsplit]; decide
  have hmem : q ∈ before ++ p :: after := by rw [← hsplit]; exact mem_prios.mpr ⟨by omega, hq⟩
  rcases List.mem_append.mp hmem with hq' | hq'
  · simpa using hbefore q hq'
  · rcases List.mem_cons.mp hq' with rfl | hafter
    · exact absurd hlt (lt_irrefl q)
    · have := (List.pairwise_cons.mp (List.pairwise_append.mp hdesc).2.1).1 q hafter
      omega

/-- The request in a slot of a point takes part in arbitration at an instant (R216-R218). -/
def slotInForce (s : State) (i : Nat) (c : List Word) (t p : Nat) : Bool := admits c p && reqInEffect (reqOf s i p) t

theorem slotInForce_iff {s : State} {i : Nat} {c : List Word} {t p : Nat} :
    slotInForce s i c t p = true ↔ admits c p = true ∧ reqInEffect (reqOf s i p) t = true := Bool.and_eq_true_iff

/-- What arbitration answers (R215, R219 step 1): the highest admitted request in effect, or FAILSAFE where there is none. -/
theorem dimWinner_cases (s : State) (i : Nat) (c : List Word) (t : Nat) :
    (∃ p, dimWinner s i c t = (p, reqOf s i p) ∧ prios.find? (slotInForce s i c t) = some p) ∨
    (dimWinner s i c t = (0, { valid := true, acted := true, level := cfgFailsafe c }) ∧
      prios.find? (slotInForce s i c t) = none) := by
  unfold dimWinner slotInForce
  cases prios.find? fun p => admits c p && reqInEffect (reqOf s i p) t with
  | some p => exact .inl ⟨p, rfl, rfl⟩
  | none => exact .inr ⟨rfl, rfl⟩

/-- A level of 0 and MAINTENANCE's level are final (R219). -/
theorem dimLevel_asRequested {r : Req} {p : Nat} (s : State) (i : Nat) (c : List Word) (h : r.level = 0 ∨ p = 7) :
    dimLevel s i c p r = (r.level, 0) := if_pos h

/-- Every other level ends clamped to MIN_LEVEL and MAX_LEVEL (R219 step 5). -/
theorem dimLevel_clamped {r : Req} {p : Nat} (s : State) (i : Nat) (c : List Word) (h : ¬(r.level = 0 ∨ p = 7)) :
    ∃ l, (dimLevel s i c p r).1 = min (fld (wordAt c 5) 31 16) (max (fld (wordAt c 5) 15 0) l) := by
  unfold dimLevel
  rw [if_neg h]
  exact ⟨_, rfl⟩

/-- Settles O53: the winner by `dimWinner_cases` and the order of the slots, the level by its last step, the clamp. -/
theorem arbitrationAndClamp : Obligations.ArbitrationAndClamp := by
  refine ⟨fun s i t c => ?winner, fun s i p c r =>
    ⟨fun h => congrArg Prod.fst (dimLevel_asRequested s i c h), fun h0 h7 hle => ?clamp⟩⟩
  case winner =>
    dsimp only
    rcases dimWinner_cases s i c t with ⟨p, hw, hfind⟩ | ⟨hw, hfind⟩ <;> rw [hw]
    · obtain ⟨hlow, hhigh⟩ := mem_prios.mp (List.mem_of_find?_eq_some hfind)
      have hwins : slotInForce s i c t p = true := List.find?_some hfind
      obtain ⟨hadmits, heffect⟩ := slotInForce_iff.mp hwins
      refine ⟨fun (h : p = 0) => by omega, fun _ => ⟨hhigh, hadmits, heffect, rfl⟩, fun q hlt hq hboth => ?_⟩
      exact Bool.eq_false_iff.mp (prios_find?_highest hfind hlt hq) (slotInForce_iff.mpr hboth)
    · refine ⟨fun _ => rfl, fun h => absurd rfl h, fun q hlt hq hboth => ?_⟩
      exact List.find?_eq_none.mp hfind q (mem_prios.mpr ⟨hlt, hq⟩) (slotInForce_iff.mpr hboth)
  case clamp =>
    obtain ⟨l, hl⟩ := dimLevel_clamped s i c (not_or.mpr ⟨h0, h7⟩)
    omega

end Sys2Proof.Machine
end

section
/-! SUPPORT. The commands of DIM: the request port, requests in time, evaluations and loops (R216, R217, R221, R222, R224, R226, R230,
R232, R235-R237). -/
namespace Sys2Proof.Machine

/-! ### The request port -/

/-- The command that writes an operation to the request port (R237). -/
def portCommand (ini : Ini) (op : Fin 5) : Instr :=
  match op with | 1 => .post ini | 2 => .release ini | 3 => .revoke ini | _ => .setHours ini

/-- A port command is a write of its operation to `RQ_CMD`. -/
theorem exec_portCommand (ini : Ini) (s : State) : ∀ op : Fin 5, op ≠ 0 →
    exec (portCommand ini op) s = done s (admitWrite ini .dim 0x090 (word op.val) (rqCmd ini.id (word op.val)) s)
  | 0, h => absurd rfl h
  | 1, _ => rfl
  | 2, _ => rfl
  | 3, _ => rfl
  | 4, _ => rfl

/-! ### Requests in time -/

/-- A request that falls due is marked, and its point is evaluated (R217, R224). -/
theorem requestActed_due {s : State} {i p : Nat} (hc : inControl s = true) (hv : (reqOf s i p).valid = true)
    (ha : (reqOf s i p).acted = false) (hd : isDue (reqOf s i p).act (nowMs s) = true) :
    requestActed i p s = dimQueue { points := [i], mir := p == 4 } (putReq i p { reqOf s i p with acted := true } s) :=
  if_pos (by simp [hc, hv, ha, hd])

/-- A request whose release falls due ends, and its point is evaluated (R216, R224). -/
theorem durationEnd_due {s : State} {i p : Nat} (hc : inControl s = true) (hv : (reqOf s i p).valid = true)
    (hr : (reqOf s i p).hasRel = true) (hd : isDue (reqOf s i p).rel (nowMs s) = true) :
    durationEnd i p s = dimQueue { points := [i], mir := p == 4 } (endReq i p (reqOf s i p).rel s) :=
  if_pos (by simp [hc, hv, hr, hd])

/-! ### Evaluations and loops -/

/-- A serving DIM evaluates the head of its queue (R224, R235). -/
theorem dimEvaluate_head {s : State} {e : DimEval} {rest : List DimEval} (hs : serving s .dim = true) (hp : ptReady s = true)
    (hq : s.dim.queue = e :: rest) :
    dimEvaluate s = rqWaiting (portsIn (dimBacklog (dimEval e { s with dim := { s.dim with queue := rest } }))) := by
  unfold dimEvaluate
  rw [if_neg (by simp [hs, hp]), hq]

theorem enabled_of_serving {s : State} {p : Page} (h : serving s p = true) : enabled s p = true := by
  simp only [serving, working, Bool.and_eq_true] at h
  exact h.1.1.1.1

/-- An enabled DIM queues every evaluation (R224). -/
theorem dimQueue_dim {s : State} (e : DimEval) (h : enabled s .dim = true) :
    (dimQueue e s).dim = { s.dim with queue := dimInsert e s.dim.queue } := by
  unfold dimQueue
  rw [if_pos (by simp [h]), dimBacklog_dim]

/-- The state in which a light-level loop has used the new LUX of its point and moved its trim (R221). -/
def trimMoved (i : Nat) (s : State) : State :=
  let used := putDimPt i { dimPt s i with newLux := false } s
  putDimPt i { dimPt used i with trim := clampInt (-16384) 16384 ((dimPt s i).trim + trimDelta s i (ptHalf s i)) } used

/-- With a new LUX a running loop whose trim may move moves it, and its point is evaluated (R221, R224). -/
theorem luxLoop_moves {s : State} {i : Nat} (hs : serving s .dim = true) (hp : ptReady s = true) (hw : wantsLoop s i = true)
    (hl : (dimPt s i).loop = true) (he : regB s .dim 0x040 1 = true) (hn : (dimPt s i).newLux = true)
    (hm : trimMoves s i (ptHalf s i) = true) : luxLoop i s = dimQueue { points := [i] } (trimMoved i s) := by
  unfold luxLoop
  dsimp only
  rw [if_neg (by simp [hs, hp, hw, hl, he]), if_pos (by simp [hn, hm])]
  rfl

theorem trimMoved_trim (i : Nat) (s : State) :
    (dimPt (trimMoved i s) i).trim = clampInt (-16384) 16384 ((dimPt s i).trim + trimDelta s i (ptHalf s i)) :=
  congrArg DimPt.trim ((dimPt_put ..).trans (if_pos rfl))

/-- `LOOP_IDX` latches the loop's state, RUNNING above the trim, or 0 where no loop runs (R237). -/
theorem loopIdx_inTable {s : State} {v : Word} (h : fld v 13 0 < ptCount) :
    loopIdx v s = setReg .dim 0x0A4
      (word (if (dimPt s (fld v 13 0)).loop then 2 ^ 31 + unsigned 16 (dimPt s (fld v 13 0)).trim else 0)) s := by
  unfold loopIdx
  dsimp only
  rw [if_neg (Nat.not_le.mpr h)]
  cases (dimPt s (fld v 13 0)).loop <;> rfl

/-- Settles O18: a request of the port by `rq_run`, which keeps the port BUSY until its evaluations are in the queue (DESIGN CHOICE, log
177) and carries out SET_HOURS (log 67); an event in time or of a loop by the lemma that opens its guard. -/
theorem dimmingCommandsComplete : Obligations.DimmingCommandsComplete := by
  intro s ini i v
  refine ⟨fun op hop hopen hq hfree hroom hok =>
      (exec_portCommand ini s op hop).trans (admNext hopen (rq_run s ini op.val op.isLt hq hfree hroom hok)),
    fun p hp hc hv ha hd => evNext ((if_neg (Fin.val_ne_zero_iff.mpr hp)).trans (requestActed_due hc hv ha hd)),
    fun p hp hc hv hr hd => evNext ((if_neg (Fin.val_ne_zero_iff.mpr hp)).trans (durationEnd_due hc hv hr hd)),
    fun e rest hs hp hq => evNext (dimEvaluate_head hs hp hq),
    fun hs => evNext (if_pos hs),
    fun ha hc => evNext' (if_pos (by rw [ha, hc]; rfl)) rfl rfl,
    fun hs hp hw hl he hn hm => ?lux,
    fun hs hp => evNext (if_pos (by rw [hs, hp]; rfl)),
    fun h hi => admNext' h (loopIdx_inTable (s := answer .ok s) hi) (setReg_pending ..) (setReg_tb ..)⟩
  case lux =>
    have hdim := dimQueue_dim (s := trimMoved i.val s) { points := [i.val] } (enabled_of_serving hs)
    refine ⟨_, evNext (luxLoop_moves hs hp hw hl he hn hm), ?_, ?_⟩
    · exact (congrArg (fun d => (spGet (fun _ => {}) d.pts i.val).trim) hdim).trans (trimMoved_trim i.val s)
    · exact congrArg (·.queue) hdim

end Sys2Proof.Machine
end

section
/-! SUPPORT. The commands of SCHED: posting instants, the day, and what determines the active steps again (R240, R242-R246). -/
namespace Sys2Proof.Machine

/-- The write that a program-enable register makes: it takes every value. -/
theorem plainWrite_progEn (ini : Ini) (hi : Bool) (v : Word) (s : State) :
    plainWrite ini .sched (if hi then 0x054 else 0x050) v s = setReg .sched (if hi then 0x054 else 0x050) v s := by
  have row : rowOf .sched (if hi then 0x054 else 0x050) = some (rw (if hi then 0x054 else 0x050)) := by revert hi; decide
  rw [plainWrite, row]
  simp [rw, applyRules, and_all]

/-- A write that enables no further program reads none; the active steps are determined again (R244, R246). -/
theorem progEnWrite_noneNew {s : State} {hi : Bool} {v : Word} (ini : Ini)
    (h : v &&& ~~~(reg s .sched (if hi then 0x054 else 0x050)) = 0) :
    progEnWrite ini hi v s = schedRedoAll (setReg .sched (if hi then 0x054 else 0x050) v s) := by
  unfold progEnWrite
  dsimp only
  rw [h, plainWrite_progEn]
  exact congrArg schedRedoAll (forEach_keep id _ _ (fun n t => if_neg (by rw [noBit]; decide)) _)

/-- A write of `RELOAD` with bit 6 reads every program, and the active steps are determined again (R244, R246). -/
theorem schedReload_all {s : State} {v : Word} (h : bit v 6 = true) :
    schedReload v s = schedRedoAll (forEach schedRead (List.range 64) s) := if_pos h

/-- A write of `TZ_OFFSET` in range determines the active steps again (R244, R246). -/
theorem tzOffsetWrite_taken {s : State} {v : Word} (ini : Ini) (h : writeTaken .sched 0x048 v s = true) :
    tzOffsetWrite ini v s = schedRedoAll (plainWrite ini .sched 0x048 v s) := if_pos h

/-- A write of `SCHED_CTRL` that clears HOLD determines the active steps again (R246). -/
theorem schedCtrlWrite_clearsHold {s : State} {v : Word} (ini : Ini) (h : regB s .sched 0x040 0 = true)
    (hclear : regB (plainWrite ini .sched 0x040 v s) .sched 0x040 0 = false) :
    schedCtrlWrite ini v s = schedRedoAll (plainWrite ini .sched 0x040 v s) := if_pos (by simp [h, hclear])

/-- Settles O19: a posting instant by `sp_run`, the day by its guard, and each write by the lemma that says it ends in `schedRedoAll`. -/
theorem scheduleCommandsComplete : Obligations.ScheduleCommandsComplete := by
  intro s ini v hi
  refine ⟨fun p k rel l hposts hen hv hb hrel hnear => ?posted,
    fun hw hday => evNext' (if_pos (by simp [hw, hday])) (raiseIrq_pending ..) (raiseIrq_tb ..),
    fun h hall => admwNext h (schedReload_all hall),
    fun h htaken => admNext h (tzOffsetWrite_taken ini ((writeTaken_answer ..).trans htaken)),
    fun h hnew => admNext h (progEnWrite_noneNew (s := answer .ok s) ini hnew),
    fun h hhold hclear => admNext h (schedCtrlWrite_clearsHold (s := answer .ok s) ini hhold hclear)⟩
  case posted =>
    have run := sp_run p.val k.val l rel s hposts hen hv hb hrel hnear
    cases rel
    · exact evNext run
    · exact evNext run

end Sys2Proof.Machine
end

section
/-! SUPPORT. The commands of DET: edges, host stamps, definitions (R251, R252, R255, R256). -/
namespace Sys2Proof.Machine

/-! ### Edges and stamps -/

/-- An edge is captured and shown; one that the stamper takes is stamped, copied, and offered to every loaded definition. -/
theorem detEdge_eq (n : Nat) (rising : Bool) (s : State) :
    detEdge n rising s =
      (let s1 := captureEdge (3 + n) rising (setRegB .det (0x10C + 0x10 * n) 16 rising s)
       let st := (nowMs s1, s1.tb.t0.ns / 1000 % 1000)
       let s2 := detCopy n st rising (putInput n { detInput s1 n with last := some s1.tb.cycles } s1)
       if detTakes s1 n rising then forEach (defEdge n st) (defsLoaded s2) s2 else s1) := by
  unfold detEdge
  dsimp only
  cases detTakes (captureEdge (3 + n) rising (setRegB .det (0x10C + 0x10 * n) 16 rising s)) n rising <;> rfl

/-- A read of `IN_MS_n` that finds a stamp. -/
theorem inMsPop_stamp {s : State} {n ms us : Nat} {l : Bool} {rest : List (Nat × Nat × Bool)}
    (h : (detInput s n).fifo = (ms, us, l) :: rest) :
    inMsPop n s = answer (.data (word ms)) (setReg .det (0x108 + 0x10 * n) (word (b01 l * 2 ^ 31 + us))
      (putInput n { detInput s n with fifo := rest } s)) := by
  rw [inMsPop, h]

theorem inMsPop_empty {s : State} {n : Nat} (h : (detInput s n).fifo = []) :
    inMsPop n s = answer (.data 0) (setReg .det (0x108 + 0x10 * n) 0x40000000 s) := by
  rw [inMsPop, h]
  rfl

/-! ### Definitions -/

theorem regN_answer (r : Resp) (s : State) (p : Page) (off : Nat) : regN (answer r s) p off = regN s p off := rfl

theorem defGood_answer (r : Resp) (s : State) (ws : List Word) : defGood (answer r s) ws = defGood s ws := rfl

/-- The A edges that wait at a definition whose edges are set. -/
theorem edgesOf_putEdges_self (d : Nat) (l : List (Nat × Nat)) (s : State) : edgesOf (putEdges d l s) d = l := by
  simp [edgesOf, putEdges]

/-- What loading a definition leaves: no A edge waits at it, memory is as before, and it serves the table's words if they are good. -/
theorem defLoad_shows (d : Nat) (s : State) :
    let ws := memWords s (regN s .det 0x040 + 32 * d) 8
    edgesOf (defLoad d s) d = [] ∧ (defLoad d s).mem = s.mem ∧
      defOf (defLoad d s) d = if bit (wordAt ws 0) 31 && defGood s ws then ws else [] := by
  intro ws
  have hedges (x : List Word) : edgesOf (putDef d x (putEdges d [] s)) d = [] := edgesOf_putEdges_self d [] s
  have hput (x : List Word) : defOf (putDef d x (putEdges d [] s)) d = x := (defOf_put ..).trans (if_pos rfl)
  cases hv : bit (wordAt ws 0) 31 with
  | false =>
    rw [show defLoad d s = putDef d [] (putEdges d [] s) from if_pos (by rw [hv]; rfl)]
    exact ⟨hedges [], rfl, hput []⟩
  | true =>
    have hload : defLoad d s = if defGood s ws then putDef d ws (putEdges d [] s) else defInvalid (putDef d [] (putEdges d [] s)) :=
      if_neg (by rw [hv]; decide)
    rw [hload]
    cases hg : defGood s ws with
    | true => exact ⟨hedges ws, rfl, hput ws⟩
    | false =>
      obtain ⟨he, hm, hd⟩ := defInvalid_f (putDef d [] (putEdges d [] s)) d
      exact ⟨he.trans (hedges []), hm, hd.trans (hput [])⟩

/-- A reload of one definition loads that one. -/
theorem detReload_one {v : Word} {d : Nat} (h : bit v 9 = false) (hd : fld v 8 0 = d) (s : State) :
    detReload v s = defLoad d s := by
  rw [detReload, if_neg (by rw [h]; decide), hd]

/-- Settles O20: an edge by the stamper's decision, a read by what the FIFO holds, a reload by what `defLoad` leaves. -/
theorem detectorCommandsComplete : Obligations.DetectorCommandsComplete := by
  intro s ini n d v
  refine ⟨fun rising => evNext (detEdge_eq n.val rising s), fun ms us l rest h hs => ?pop,
    fun h hs => ⟨admrNext' h (inMsPop_empty hs) (by simp) (by simp), by decide⟩, fun h hall hd => ?reload, evNext' rfl rfl rfl⟩
  case pop => exact admrNext' h (inMsPop_stamp hs) (by simp [putInput]) (by simp [putInput])
  case reload =>
    obtain ⟨hedges, hmem, hdef⟩ := defLoad_shows d.val (answer .ok s)
    rw [memWords_answer, defGood_answer, regN_answer] at hdef
    exact ⟨_, admNext h (detReload_one hall hd _), hedges, hmem, fun hv => hdef.trans (if_neg (by simp [hv])),
      fun hv hg => hdef.trans (if_pos (by simp [hv, hg])), fun hv hg => hdef.trans (if_neg (by simp [hg]))⟩

end Sys2Proof.Machine
end

section
/-! SUPPORT. The tracks and messages of MIR: events, ticks, cancellations, snapshots, neighbours (R256-R263, R268, R272, R273, R280). -/
namespace Sys2Proof.Machine

/-- MIR, at work in a mode other than OFF, takes the first event whose strip is not being rebuilt. -/
theorem mirEvent_takes {s : State} {e : MirEv} (hw : working s .mir = true) (hm : mirMode s ≠ 0)
    (he : s.mir.queue.find? (fun e => !s.mir.rebuild.contains e.strip) = some e) :
    mirEvent s = mirLatency e s.dim.nextId (eventRun e { s with mir := { s.mir with queue := s.mir.queue.erase e } }) := by
  rw [mirEvent, if_neg (by simp [hw, hm])]
  simp only [he]

/-- A track that is TENTATIVE still, CONF_TMO after its birth, is cancelled as unconfirmed. -/
theorem confTimeout_due {s : State} {c : Nat} (hw : working (mirDrain s) .mir = true) (hst : (trackOf (mirDrain s) c).st = 1)
    (htent : (trackOf (mirDrain s) c).tent = true)
    (hdue : (stripConf (mirDrain s) (trackOf (mirDrain s) c).strip : Int) ≤
      actDiff (nowMs (mirDrain s)) (trackOf (mirDrain s) c).birth) :
    confTimeout c s = trackCancel c 1 (mirDrain s) :=
  if_pos (by simp [hw, hst, htent, hdue])

/-- An EXITED context that has posted no release and awaits no confirmation is freed. -/
theorem trackFreeDue_unreleased {s : State} {c : Nat} (hst : (trackOf s c).st = 3) (htent : (trackOf s c).tent = false)
    (hrel : (trackOf s c).lastRel = none) : trackFreeDue c s = trackFree c s := by
  unfold trackFreeDue
  dsimp only
  rw [hrel]
  exact if_pos (by simp [hst, htent])

/-- A keyed kill of a live track cancels it for the host. -/
theorem trkKill_live {s : State} {v : Word} (hk : fld v 31 24 = 0xC4) (hl : trackLive (trackOf s (fld v 7 0)) = true) :
    trkKill v s = trackCancel (fld v 7 0) 2 s :=
  if_pos (by simp [hk, hl])

/-- An injection at a loaded definition for injected events offers its event. -/
theorem injCmd_loaded {s : State} {i : Fin 10} (hl : defOf s (regI s .mir 0x090 i).toNat ≠ [])
    (hk : defKind (defOf s (regI s .mir 0x090 i).toNat) = 3) :
    injCmd i 1 s =
      (let aux := regI s .mir 0x098 i
       mirOffer (defEvent s (defOf s (regI s .mir 0x090 i).toNat) (fld aux 31 30) (regI s .mir 0x094 i).toNat (fld aux 25 16)
         (if fld aux 11 0 = 0 then none else some (fld aux 11 0))) s) := by
  unfold injCmd
  dsimp only
  rw [if_neg (by decide), if_neg (by simp [hl, hk])]

/-- A message of a neighbour that finds MIR neither quiescing nor in reset is taken at once. -/
theorem mirReceive_taken {s : State} (hq : quiescing s .mir = false) (hr : inReset s .mir = false) (cancel : Bool) (src : Nat)
    (ws : List Word) : mirReceive cancel src ws s = if cancel then trackCancelRx src ws s else trackHandover src ws s :=
  if_neg (by simp [hq, hr])

/-- Settles O21, command by command, from what MIR does with an event, a due context and a message. -/
theorem trackCommandsComplete : Obligations.TrackCommandsComplete := by
  intro s ini c v
  refine ⟨fun e hw hm he => evNext (mirEvent_takes hw hm he), fun hw hm hen htick => ?tick,
    fun hw hst htent hdue => ?timeout, fun hst htent hrel => ?free, fun h hk hl => ?kill, fun h hl hk => ?inject, fun h => ?snapshot,
    fun src ws _ hq hr => ⟨evNext (mirReceive_taken hq hr false src.val ws), evNext (mirReceive_taken hq hr true src.val ws)⟩,
    evNext' rfl rfl rfl⟩
  case tick => exact evNext (if_pos (by simp [hw, hm, hen, htick]))
  case timeout => exact ⟨_, evNext (confTimeout_due hw hst htent hdue), rfl, trackCancel_st c.val 1 (mirDrain s)⟩
  case free =>
    exact ⟨_, evNext (trackFreeDue_unreleased hst htent hrel), trackFree_all c.val s, trackFree_regs c.val s⟩
  case kill => exact ⟨_, admNext h (trkKill_live (s := answer .ok s) hk hl), rfl, trackCancel_st (fld v 7 0) 2 (answer .ok s)⟩
  case inject => exact admwNext h (injCmd_loaded (s := answer .ok s) hl hk)
  case snapshot =>
    refine ⟨settle s (trkIdx ini.id v (answer .ok s)), admNext h rfl, ?_⟩
    rw [regI_settle, regI_settle, regI_settle, regI_settle, settle_mir, settle_mem]
    exact trkIdx_f ini.id v (answer .ok s)

end Sys2Proof.Machine
end

section
/-! SUPPORT. The strips and the modes of MIR (R248-R250, R277, R282). -/
namespace Sys2Proof.Machine

/-! ### Strips -/

/-- What a strip that leaves service takes with it: its map and its rebuild, its live tracks, its definitions (R250, R255). -/
def stripLeaves (k : Nat) (s : State) : State :=
  defSilence k (forEach trackExit ((liveTracks s).filter fun c => (trackOf s c).strip == k)
    { s with mir := { s.mir with maps := spPut (fun _ => []) k [] s.mir.maps, rebuild := s.mir.rebuild.filter (· != k) } })

/-- A write of W0 is barred only where it sets EN on a strip that does not fit. -/
theorem stripWrite_w0 {s : State} {k : Nat} {v : Word} (ini : Ini) (h : bit v 31 = true → stripGood s k v = true) :
    stripWrite ini (0x800 + 0x20 * k) v s =
      (let s1 := plainWrite ini .mir (0x800 + 0x20 * k) v s
       if !stripEn s k && stripEn s1 k then needRebuild k s1
       else if stripEn s k && !stripEn s1 k then stripLeaves k s1
       else s1) := by
  have hk : (0x800 + 0x20 * k - 0x800) / 0x20 = k := by omega
  have hw : ¬ ((0x800 + 0x20 * k) % 0x20 != 0) = true := by simp
  unfold stripWrite
  dsimp only
  rw [hk, if_neg hw, if_neg (by simpa using h)]
  rfl

/-- A write of W0 that puts a strip in service asks for its map. -/
theorem stripWrite_enables {s : State} {k : Nat} {v : Word} (ini : Ini) (hg : stripGood s k v = true) (hoff : stripEn s k = false)
    (hon : stripEn (plainWrite ini .mir (0x800 + 0x20 * k) v s) k = true) :
    stripWrite ini (0x800 + 0x20 * k) v s = needRebuild k (plainWrite ini .mir (0x800 + 0x20 * k) v s) := by
  rw [stripWrite_w0 ini fun _ => hg]
  exact if_pos (by rw [hoff, hon]; rfl)

/-- A write of W0 that takes a strip out of service drops its map, ends its tracks and silences its definitions. -/
theorem stripWrite_disables {s : State} {k : Nat} {v : Word} (ini : Ini) (hv : bit v 31 = false) (hon : stripEn s k = true)
    (hoff : stripEn (plainWrite ini .mir (0x800 + 0x20 * k) v s) k = false) :
    stripWrite ini (0x800 + 0x20 * k) v s = stripLeaves k (plainWrite ini .mir (0x800 + 0x20 * k) v s) := by
  rw [stripWrite_w0 ini fun h => absurd (h.symm.trans hv) (by decide)]
  exact (if_neg (by simp [hon])).trans (if_pos (by rw [hon, hoff]; rfl))

/-- A record of an error with its interrupt leaves MIR's own state alone. -/
theorem raiseIrq_recErr_mir (p : Page) (n c : Nat) (s : State) : (raiseIrq p n (recErr p c s)).mir = s.mir := by
  simp [raiseIrq, recErr, recErrAt, setRegB]

/-- What a rebuild leaves: the strip waits for none, and one out of service has an empty map. -/
theorem stripRebuild_shows {s : State} {k : Nat} (hk : k ∈ s.mir.rebuild) (hp : ptReady s = true) (hr : inReset s .mir = false) :
    k ∉ (stripRebuild k s).mir.rebuild ∧ (stripEn s k = false → mapOfStrip (stripRebuild k s) k = []) := by
  have hmir : ∃ m, (stripRebuild k s).mir =
      { s.mir with maps := spPut (fun _ => []) k (if stripEn s k then m else []) s.mir.maps
                   rebuild := s.mir.rebuild.filter (· != k) } := by
    unfold stripRebuild
    dsimp only
    rw [if_neg (by simp [hk, hp, hr])]
    rw [apply_ite State.mir, raiseIrq_recErr_mir, ite_self, stripLay_mir]
    exact ⟨_, rfl⟩
  obtain ⟨m, hm⟩ := hmir
  refine ⟨by simp [hm], fun hoff => ?_⟩
  simp [mapOfStrip, hm, hoff]

/-! ### Modes -/

/-- A mode command other than a promotion leaves its mode, and memory as it was. -/
theorem mirModeWrite_shows {s : State} {ini : Ini} {m : Nat} (hm : m < 3) (h : writeOpen s ini .mir 0x040 = true)
    (hp : ¬(mirMode s = 2 ∧ m = 1)) : mirMode (mirModeWrite ini m s) = m ∧ (mirModeWrite ini m s).mem = s.mem := by
  obtain ⟨u, hrun, -, hmode, hmem⟩ := mode_run m hm ini s h
  obtain ⟨hset, hkeep⟩ := ms_eq m (by omega) u (by rwa [hmode])
  rw [hrun]
  exact ⟨hset, hkeep.trans hmem⟩

/-- From SHADOW to ACTIVE MIR promotes what its live tracks cover and have decided. -/
theorem mirModeSet_promotes {s : State} (h : mirMode s = 2) : mirModeSet 1 s = mirPromote (setRegF .mir 0x040 1 0 1 s) := by
  unfold mirModeSet
  dsimp only
  rw [h, if_neg (by decide), if_neg (by decide), if_pos ⟨rfl, rfl⟩]

/-- Settles O22: the strips by what a write of W0 does, a rebuild by what it leaves, the modes by `mirModeSet`. -/
theorem stripAndModeCommandsComplete : Obligations.StripAndModeCommandsComplete := by
  intro s ini k v
  refine ⟨fun h hoff hg hon => admNext h (stripWrite_enables (s := answer .ok s) ini hg hoff hon),
    fun h hon hoff => admNext h (stripWrite_disables (s := answer .ok s) ini (bit_setBit_self v 31 false (by decide)) hon hoff),
    fun hk hp hr => ⟨_, evNext rfl, stripRebuild_shows hk hp hr⟩, fun h => ⟨?off, ?shadow, fun hm => ?active, fun hm => ?promote⟩⟩
  case off => exact ⟨_, evNext rfl, mirModeWrite_shows (by decide) h (by simp)⟩
  case shadow => exact ⟨_, evNext rfl, mirModeWrite_shows (by decide) h (by simp)⟩
  case active => exact ⟨_, evNext rfl, mirModeWrite_shows (by decide) h (by simp [hm])⟩
  case promote =>
    obtain ⟨u, hrun, hu, hmode, -⟩ := mode_run 1 (by decide) ini s h
    have run := evNext (s := s) (hrun.trans (mirModeSet_promotes (hmode.trans hm)))
    rwa [hu, hm] at run

end Sys2Proof.Machine
end

section
/-! SUPPORT. DIAG's observations, reports, proofs, flags, burn seconds and modes (R283, R289-R299, R304, R305). -/
namespace Sys2Proof.Machine

/-! ### Observations and reports -/

/-- DIAG, at work with PTAB serving lookups, takes its oldest observation. -/
theorem takeObservation_oldest {s : State} {o : DiagObs} {rest : List DiagObs} (hq : s.diag.obs = o :: rest)
    (ha : accepting s .diag = true) (hp : ptReady s = true) :
    takeObservation s = observe o { s with diag := { s.diag with obs := rest } } := by
  unfold takeObservation
  rw [hq]
  exact if_pos (by simp [ha, hp])

/-- In ACTIVE, DIAG at work with PTAB serving lookups takes and decides its oldest report. -/
theorem takeReport_oldest {s : State} {r : DiagRep} {rest : List DiagRep} (hq : s.diag.reps = r :: rest)
    (ha : accepting s .diag = true) (hp : ptReady s = true) (hm : diagMode s = 1) :
    takeReport s = lineReport r { s with diag := { s.diag with reps := rest } } := by
  unfold takeReport
  rw [hq]
  exact (if_neg (by simp [ha, hp])).trans (if_pos hm)

/-! ### Proofs -/

/-- A due proof of a radio point is handed. -/
theorem proofGo_radio {s : State} {i : Nat} (ha : accepting s .diag = true) (hp : ptReady s = true) (hm : diagMode s = 1)
    (hd : proofDue s i = true) (hr : cfgRadio (ptHalf s i) = true) : proofGo i s = proofHand i (nowMs s + proofLead s) s :=
  (if_neg (by simp [ha, hp, hm, hd])).trans (if_pos hr)

/-- A due proof of a line point is handed and counted, where its line has room for one in the cycle and no point of a lower index
on the line is due. -/
theorem proofGo_line {s : State} {i : Nat} (ha : accepting s .diag = true) (hp : ptReady s = true) (hm : diagMode s = 1)
    (hd : proofDue s i = true) (hr : cfgRadio (ptHalf s i) = false)
    (hroom : proofsOn s (cfgLine (ptHalf s i)) < regF s .diag 0x040 15 12)
    (hlow : ∀ j, j < i → cfgRadio (ptHalf s j) = false → cfgLine (ptHalf s j) = cfgLine (ptHalf s i) → proofDue s j = false) :
    proofGo i s =
      (let s1 := proofHand i (nowMs s + proofLead s) s
       let n := cfgLine (ptHalf s i)
       { s1 with diag := { s1.diag with proofs := spPut (fun _ => 0) n (proofsOn s n + 1) s1.diag.proofs } }) := by
  have hfirst : ((List.range i).any fun j =>
      !cfgRadio (ptHalf s j) && cfgLine (ptHalf s j) == cfgLine (ptHalf s i) && proofDue s j) = false := by
    simpa [and_imp] using hlow
  unfold proofGo
  dsimp only
  rw [if_neg (by simp [ha, hp, hm, hd]), if_neg (by simp [hr]), hfirst, if_neg (by simpa using hroom)]

/-- A proof asked for at a lit lantern that an enabled DIAG serves in ACTIVE is handed. -/
theorem proofAsk_handed {s u : State} {i : Nat} (hu : ptUse i s = u) (hm : diagMode u = 1) (he : enabled u .diag = true)
    (hs : diagServes u i = true) (hl : isLantern (ptHalf u i) = true) (hc : curLevel u i ≠ 0) :
    proofAsk i s = proofHand i (nowMs u + proofLead u) u := by
  subst hu
  exact if_neg (by simp [hm, he, hs, hl, hc])

/-- A request for a proof of a point looks it up at once while PTAB serves lookups. -/
theorem proofReq_ready {s : State} {v : Word} (hi : fld v 13 0 < ptCount) (hp : ptReady s = true) :
    proofReq v s = proofAsk (fld v 13 0) s :=
  (if_neg (by omega)).trans (if_pos hp)

/-! ### Flags and burn seconds -/

/-- A keyed `CLR` of a point, outside SHADOW, drops the suspicions and clears the set flags of its mask; with PARTIAL, V_REF is
learned anew. -/
theorem diagClr_keyed {s : State} {v : Word} (hk : fld v 31 24 = 0xD1) (hi : fld v 13 0 < ptCount) (hm : diagMode s ≠ 2) :
    diagClr v s =
      (let s1 := dropSus (fld v 13 0) (fun u => (fld v 23 16).testBit u.flag) s
       let s2 := forEach (fun f t => if (fld v 23 16).testBit f && faultSet t (fld v 13 0) f then diagClear (fld v 13 0) f 0xE t else t)
         (List.range 8) s1
       if (fld v 23 16).testBit 2 then putDiag (fld v 13 0) { diagPt s2 (fld v 13 0) with vref := 0, vsum := 0, vcount := 0 } s2
       else s2) :=
  (if_neg (by simp [hk])).trans ((if_neg (by omega)).trans (if_neg hm))

/-- A burn second of a DIAG at work in ACTIVE is kept while PTAB serves no lookups. -/
theorem execBurnSecond_held {s : State} (hw : working s .diag = true) (hm : diagMode s = 1) (hp : ptReady s = false) :
    execBurnSecond s = .next { s with diag := { s.diag with burns := s.diag.burns + 1 } } :=
  evNext' ((if_neg (by simp [hw, hm])).trans (if_neg (by simp [hp]))) rfl rfl

/-! ### Radio points -/

/-- A radio point that DIAG serves in ACTIVE is asked for a report, unless one has come. -/
theorem radioDue_served {s : State} {i : Nat} (ha : accepting s .diag = true) (hm : diagMode s = 1)
    (hs : diagServes s i = true) (hk : cfgKind (ptHalf s i) = kindRadio) :
    radioDue i s = if (diagPt s i).heard then putDiag i { diagPt s i with heard := false } s
      else { s with diag := { s.diag with asks := (s.diag.asks.filter (· != i)) ++ [i] } } :=
  if_neg (by simp [ha, hm, hs, hk])

/-! ### Modes -/

/-- A mode command other than the one to ACTIVE leaves its mode, and memory as it was. -/
theorem diagMode_unpromoted {s : State} {ini : Ini} {m : Nat} (hm : m < 3) (hne : m ≠ 1) (h : writeOpen s ini .diag 0x040 = true) :
    ∃ t, done s (diagModeWrite ini m s) = .next t ∧ diagMode t = m ∧ t.mem = s.mem := by
  obtain ⟨t, hrun, hmode, -, hmem⟩ := dm_run m hm ini s h
  exact ⟨t, hrun, hmode, hmem hne⟩

/-- Settles O23: each command by the branch of its effect that the premises name, the modes by `dm_run`. -/
theorem diagnosisCommandsComplete : Obligations.DiagnosisCommandsComplete := by
  intro s ini i v
  refine ⟨fun o rest hq ha hp => evNext (takeObservation_oldest hq ha hp),
    fun r rest hq ha hp hm => evNext (takeReport_oldest hq ha hp hm),
    fun ha hp hm hd => ⟨fun hr => evNext (proofGo_radio ha hp hm hd hr),
      fun hr hroom hlow => evNext (proofGo_line ha hp hm hd hr hroom hlow)⟩,
    fun h hi hp hm he hs hl hc => ?request, fun h hk hi hm => admNext h (diagClr_keyed (s := answer .ok s) hk hi hm),
    fun hw hm => ⟨fun hp => evNext (burn_e _ s hw hp hm), execBurnSecond_held hw hm⟩,
    fun ha hm hs hk => ⟨fun hh => ?ask, fun hh => ?heard⟩, fun h => ⟨?off, ?shadow, ?active⟩⟩
  case request =>
    exact admNext h ((proofReq_ready (s := answer .ok s) hi hp).trans (proofAsk_handed rfl hm he hs hl hc))
  case ask => exact evNext' ((radioDue_served ha hm hs hk).trans (if_neg (by simp [hh]))) rfl rfl
  case heard => exact evNext ((radioDue_served ha hm hs hk).trans (if_pos hh))
  case off => exact diagMode_unpromoted (by decide) (by decide) h
  case shadow => exact diagMode_unpromoted (by decide) (by decide) h
  case active =>
    obtain ⟨t, hrun, hmode, hreps, -⟩ := dm_run 1 (by decide) ini s h
    exact ⟨t, hrun, hmode, hreps⟩

end Sys2Proof.Machine
end

section
/-! SUPPORT. MET's frames, energy, windows, snapshots, calibration, residual channels and test output (R309, R312, R318, R321, R322,
R324, R327, R331, R333). -/
namespace Sys2Proof.Machine

/-! ### Energy and windows -/

/-- The power sample that ended first goes to its totals. -/
theorem powerSampleEnd_first {s : State} {k : Nat} {sum : Int} {rest : List (Nat × Int)} (h : s.met.ended = (k, sum) :: rest) :
    powerSampleEnd s = addEnergy k sum (onMet (fun m => { m with ended := rest }) s) := by
  unfold powerSampleEnd
  rw [h]

/-- The window that closed first is computed and accumulated; with it the totals are persisted if it completes `PERSIST_N` windows
(R324), and the interval's snapshot is latched if one is due (R321). -/
theorem windowEnd_first {r : CopyResult} {s : State} {w : MetWin} {rest : List MetWin} (h : s.met.closed = w :: rest) :
    windowEnd r s =
      (let s0 := onMet (fun m => { m with closed := rest }) s
       let s1 := used (forEach (rcmEnd s0 w) (List.range 2) (forEach (addReactive s0 w) (List.range 24) (winCompute w s0)))
       let s2 := if regF s .met 0x040 3 1 ≤ s1.met.persistCnt + 1 then persist r s1
         else onMet (fun m => { m with persistCnt := s1.met.persistCnt + 1 }) s1
       if intervalDue s w then metLatch 2 w.endSec w.endNs s2 else s2) := by
  unfold windowEnd
  rw [h]

/-! ### Snapshots and totals -/

/-- A write of 1 to `SNAP` requests a latch at the time of TB0. -/
theorem snapWrite_one : snapWrite 1 = workRequest .met (fun t => metLatch 1 t.tb.t0.sec t.tb.t0.ns t) := by
  funext s
  exact (if_neg (by decide)).trans (if_neg (by decide))

/-- `TOT_CLR` clears the totals of the slots that it names, and no others. -/
theorem totOf_totClr (v : Word) (s : State) (k : Nat) :
    totOf (totClr v s) k = if k < 24 ∧ bit v k = true then clearedTot (totOf s k) else totOf s k := by
  rw [totClr_e, totOf_writeCopy, totOf_writeCopy, tc_run v _ List.nodup_range]
  simp only [List.mem_range]

/-! ### Calibration, residual channels and test output -/

/-- A calibration write counts in `CAL_GEN` and is recorded where its map line takes it and the group is not locked (R312). -/
theorem calWrite_taken {s : State} {p : Page} {off : Nat} {v : Word} (ini : Ini) (ht : writeTaken p off v s = true)
    (hl : locked s p 0 = false) :
    calWrite ini p off v s =
      (let s1 := plainWrite ini p off v s
       evrOffer p 0x0203 (leBytes 4 (pageBase p + off) ++ leBytes 4 (regN s p off) ++ leBytes 4 (regN s1 p off))
         (setReg .met 0x060 (reg s1 .met 0x060 + 1) s1)) :=
  if_pos (by simp [ht, hl])

/-- A `CAL_CHANGE` at a calibration register of a page is an admitted write of it. -/
theorem execCalChange_calibration {s : State} {ini : Ini} {addr : Nat} {v : Word} {p : Page} (hp : pageAt addr = some p)
    (hc : (calOffsets p).contains (addr % 0x1000) = true) :
    execCalChange ini addr v s = done s (admitWrite ini p (addr % 0x1000) v (calWrite ini p (addr % 0x1000) v) s) := by
  unfold execCalChange
  rw [hp]
  exact if_pos hc

/-- A keyed `RCM_CMD` with RELEARN starts the learning of its channel anew. -/
theorem rcmCmd_relearn {s : State} {v : Word} (hk : fld v 31 24 = 0xB7) (hb : bit v 1 = true) :
    rcmCmd v s = relearn (fld v 0 0) s :=
  (if_neg (by simp [hk])).trans (if_pos hb)

/-- With one pulse's energy in the test output's accumulator, an enabled output takes it and sends the pulse on a pin that it
drives. -/
theorem testOutPulse_due {s : State} (he : regB s .met 0x068 31 = true) (hk : regF s .met 0x068 15 0 ≠ 0)
    (hd : 1000000 * 2 ^ 40 ≤ s.met.testAcc * regF s .met 0x068 15 0) (hp : testPin s (regF s .met 0x068 19 16) = true)
    (ho : pinDrives s (regF s .met 0x068 19 16) = true) :
    testOutPulse s = send (.testPulse (regF s .met 0x068 19 16))
      (onMet (fun m => { m with testAcc := m.testAcc - 1000000 * 2 ^ 40 / regF s .met 0x068 15 0 }) s) := by
  have hgo : ¬ (!regB s .met 0x068 31 || regF s .met 0x068 15 0 == 0 ||
      decide (s.met.testAcc * regF s .met 0x068 15 0 < 1000000 * 2 ^ 40)) = true := by
    simpa [he, hk] using hd
  exact (if_neg hgo).trans (if_pos (by rw [hp, ho]; rfl))

/-- Settles O24: each command by the branch of its effect that the premises name, the published views by `win_run` and `snap_run'`,
the totals by `totOf_totClr`, which keeps WRAP and the interval's sums (log 147). -/
theorem metrologyCommandsComplete : Obligations.MetrologyCommandsComplete := by
  intro s ini v
  refine ⟨fun r sets hr => evNext (if_pos hr), fun k sum rest h => evNext (powerSampleEnd_first h),
    fun r w rest h => evNext (windowEnd_first h), fun l h hq hr => ⟨_, evNext rfl, win_run s l h hq hr⟩, fun h hv => ?snap,
    fun l rest h hq hr => ⟨_, evNext rfl, snap_run' s l rest h hq hr⟩, fun h => ⟨_, admNext h rfl, ?named, ?others⟩,
    fun addr p hp hc h ht hl => ?calibration, fun h hk hb => admNext' h (rcmCmd_relearn (s := answer .ok s) hk hb) rfl rfl,
    fun he hk hd hp ho => evNext' (testOutPulse_due he hk hd hp ho) rfl rfl⟩
  case snap =>
    subst hv
    exact evNext (by rw [snapWrite_one]; exact admitWork_open h _ _)
  case named =>
    intro k hk hb
    have hclear : totOf (settle s (totClr v (answer .ok s))) k = clearedTot (totOf s k) :=
      (totOf_totClr v (answer .ok s) k).trans (if_pos ⟨hk, hb⟩)
    rw [hclear]
    exact ⟨rfl, rfl, rfl⟩
  case others =>
    intro k hb
    exact (totOf_totClr v (answer .ok s) k).trans (if_neg (by simp [hb]))
  case calibration =>
    exact (execCalChange_calibration hp hc).trans (admNext h (calWrite_taken ini ((writeTaken_answer ..).trans ht) hl))

end Sys2Proof.Machine
end

section
/-! SUPPORT. ATTR's selection, round start, chips, solving, results and `ABORT` (R338-R342, R346, R347, R350, R353). -/
namespace Sys2Proof.Machine

/-! ### Selection and chips -/

/-- An ACTIVE ATTR at work selects on an enabled circuit that is idle or in its gap, with PTAB serving lookups and a suitable window
setting: the eligible points become the lanterns of a round that waits for its start. -/
theorem attrSelect_eligible {s : State} {c : Nat} (hm : attrMode s = 1) (ha : accepting s .attr = true) (hc : regB s .attr 0x048 c = true)
    (hr : (attrRound s c).state = 0 ∨ (attrRound s c).state = 4) (hp : ptReady s = true) (hw : attrWinOk s = true)
    {lead : Nat} (hlead : regF s .attr 0x044 31 16 = lead) {lans : List AttrLan}
    (hlans : ((attrPick s c).zipIdx.map fun x => attrLan s (attrStart s lead) x.1 x.2) = lans) (hne : lans ≠ []) :
    attrSelect c s = forEach attrMark lans
      (putRound c { state := 1, s := attrStart s lead, lead := lead, lans := lans, cause := (attrRound s c).cause } s) := by
  subst hlead hlans
  have hgo : ¬ (attrMode s != 1 || !accepting s .attr || !regB s .attr 0x048 c ||
      !((attrRound s c).state == 0 || (attrRound s c).state == 4) || !ptReady s) = true := by
    simpa [hm, ha, hc, hp, or_iff_not_imp_left] using hr
  exact (if_neg hgo).trans ((if_neg (by simp [hw])).trans (if_neg (by simpa using hne)))

/-- A selected round at or past its start S starts under a suitable window setting, with each lantern's base level fixed. -/
theorem roundStart_due {s : State} {c : Nat} (hr : (attrRound s c).state = 1)
    (ht : (attrRound s c).s * 1000000000 ≤ tbNs s.tb.t0) (hw : attrWinOk s = true) :
    roundStart c s =
      (let s1 := forEach (lanFix c) (attrRound s c).lans s
       putRound c { attrRound s1 c with state := 2 } s1) :=
  (if_neg (by simpa [hr] using ht)).trans (if_neg (by simp [hw]))

/-- The next chip of a running round is handed over, lantern by lantern, once it is no more than LEAD away. -/
theorem chipHandover_due {s : State} {c : Nat} (hr : attrRunning (attrRound s c) = true) (hn : (attrRound s c).next ≤ 63)
    (ha : accepting s .dim = true)
    (ht : ((attrRound s c).s + 2 * (attrRound s c).next) * 1000000000 ≤ tbNs s.tb.t0 + (attrRound s c).lead * 1000000) :
    chipHandover c s =
      (let s1 := forEach (chipHand c (attrRound s c).next) (attrRound s c).lans s
       putRound c { attrRound s1 c with next := (attrRound s c).next + 1 } s1) :=
  if_neg (by simp [hr, ha]; omega)

/-! ### The end of a round -/

/-- A running round that lost more than `MASK_MAX` chips on a slot with a coded lantern is void with cause NOISY. -/
theorem attrNoisy_lost {s : State} {c : Nat} (hr : attrRunning (attrRound s c) = true)
    (hl : regF s .attr 0x040 15 8 < lostMost (attrRound s c) ((attrRound s c).lans.filter fun l => l.inval.isNone)) :
    attrNoisy c s = attrVoid c 1 s :=
  if_pos (by simp [hr, hl])

/-- A round that lost no more chips than `MASK_MAX` stays. -/
theorem attrNoisy_borne {s : State} {c : Nat}
    (hl : lostMost (attrRound s c) ((attrRound s c).lans.filter fun l => l.inval.isNone) ≤ regF s .attr 0x040 15 8) :
    attrNoisy c s = s :=
  if_neg (by simp [hl])

/-- The round just put at a circuit is its round. -/
theorem attrRound_putRound_self (c : Nat) (r : AttrRound) (s : State) : attrRound (putRound c r s) c = r :=
  (attrRound_put ..).trans (if_pos rfl)

/-- At its end a coding round has heard all its chips, and `MASK_MAX` decides: a void round ends there, any other is solved. -/
theorem attrSolve_due {s : State} {c : Nat} {r : AttrRound} (hheard : { attrRound s c with heard := 63 } = r) (hr : r.state = 2)
    (ht : (r.s + 126) * 1000000000 ≤ tbNs s.tb.t0) :
    attrSolve c s =
      (let s1 := attrNoisy c (putRound c r s)
       if (attrRound s1 c).state != 2 then s1
       else forEach (fun l t => putChip l.point 0 t) r.lans
        (setRegB .attr 0x104 0 false (putRound c { attrRound s1 c with state := 3, view := [] } s1))) := by
  subst hheard
  have hstate : (attrRound s c).state = 2 := hr
  have htime : ((attrRound s c).s + 126) * 1000000000 ≤ tbNs s.tb.t0 := ht
  exact if_neg (by simpa [hstate] using htime)

/-- A round that ends with too many chips lost is void with cause NOISY. -/
theorem attrSolve_lost {s : State} {c : Nat} {r : AttrRound} (hheard : { attrRound s c with heard := 63 } = r) (hr : r.state = 2)
    (ht : (r.s + 126) * 1000000000 ≤ tbNs s.tb.t0)
    (hl : regF s .attr 0x040 15 8 < lostMost r (r.lans.filter fun l => l.inval.isNone)) :
    attrSolve c s = attrVoid c 1 (putRound c r s) := by
  have hself := attrRound_putRound_self c r s
  have hrun : attrRunning (attrRound (putRound c r s) c) = true := by simp [hself, attrRunning, hr]
  have hopen : attrOpen (attrRound (putRound c r s) c) = true := by simp [attrOpen, hrun]
  have hvoid : attrNoisy c (putRound c r s) = attrVoid c 1 (putRound c r s) := attrNoisy_lost hrun (by rw [hself]; exact hl)
  rw [attrSolve_due hheard hr ht, hvoid]
  exact if_pos (by simp [attrVoid_state c 1 _ hopen])

/-- A round that ends with no more chips lost than `MASK_MAX` is solved: READY clears, and no lantern keeps a chip step. -/
theorem attrSolve_borne {s : State} {c : Nat} {r : AttrRound} (hheard : { attrRound s c with heard := 63 } = r) (hr : r.state = 2)
    (ht : (r.s + 126) * 1000000000 ≤ tbNs s.tb.t0)
    (hl : lostMost r (r.lans.filter fun l => l.inval.isNone) ≤ regF s .attr 0x040 15 8) :
    attrSolve c s = forEach (fun l t => putChip l.point 0 t) r.lans
      (setRegB .attr 0x104 0 false (putRound c { r with state := 3, view := [] } (putRound c r s))) := by
  have hself := attrRound_putRound_self c r s
  have hstays : attrNoisy c (putRound c r s) = putRound c r s := attrNoisy_borne (by rw [hself]; exact hl)
  rw [attrSolve_due hheard hr ht, hstays]
  dsimp only
  rw [hself, if_neg (by simp [hr])]

/-! ### Results, `ABORT` and the mode -/

/-- The results of a solved round wait while PTAB serves no lookups. -/
theorem roundDone_waits {s : State} {c : Nat} (hr : (attrRound s c).state = 3) (hp : ptReady s = false) :
    roundDone c s = putRound c { attrRound s c with waits := true } s :=
  (if_neg (by simp [hr])).trans (if_pos (by simp [hp]))

/-- With PTAB serving lookups, the results of a solved round go to its lanterns' points and the round is published. -/
theorem roundDone_ready {s : State} {c : Nat} (hr : (attrRound s c).state = 3) (hp : ptReady s = true) :
    roundDone c s = roundShow c
      (forEach (attrWriteResult c ((List.range 3).flatMap (slotFit (attrRound s c)))) (attrRound s c).lans s) :=
  (if_neg (by simp [hr])).trans (if_neg (by simp [hp]))

/-- A keyed `ABORT` of a circuit with an open round voids it with cause ABORT. -/
theorem attrAbort_open {s : State} {v : Word} (hk : fld v 31 24 = 0xA7) (hc : fld v 4 0 ≤ 23)
    (ho : attrOpen (attrRound s (fld v 4 0)) = true) : attrAbort v s = attrVoid (fld v 4 0) 4 s :=
  if_neg (by simp [hk, ho, hc])

/-- A mode command leaves the mode that it names. -/
theorem attrModeWrite_mode {s : State} {ini : Ini} {m : Nat} (hm : m < 3) (h : writeOpen s ini .attr 0x040 = true) :
    ∃ t, done s (attrModeWrite ini m s) = .next t ∧ attrMode t = m := by
  obtain ⟨t, hrun, hmode, -⟩ := am_run m hm ini s h
  exact ⟨t, hrun, hmode⟩

/-- Settles O25: each command by the branch of its effect that the premises name, with CODING set at selection (DEDUCED, log 76) and the
base levels fixed at S (DEDUCED, log 17); the published round by `done_run`, the modes by `am_run`. -/
theorem attributionCommandsComplete : Obligations.AttributionCommandsComplete := by
  intro s ini c v
  refine ⟨fun hm ha hc hr hp hw hne => evNext (attrSelect_eligible hm ha hc hr hp hw rfl rfl hne),
    fun hr ht hw => evNext (roundStart_due hr ht hw), fun hr hn ha ht => evNext (chipHandover_due hr hn ha ht),
    fun hr ht => ⟨fun hl => evNext (attrSolve_lost rfl hr ht hl), fun hl => evNext (attrSolve_borne rfl hr ht hl)⟩,
    fun hr => ⟨fun hp => evNext (roundDone_waits hr hp), fun hp => ⟨_, evNext (roundDone_ready hr hp), done_run _ _⟩⟩,
    fun h hk hc ho => admNext h (attrAbort_open (s := answer .ok s) hk hc ho),
    fun h => ⟨attrModeWrite_mode (by decide) h, attrModeWrite_mode (by decide) h, ?active⟩⟩
  case active =>
    obtain ⟨t, hrun, hmode, hmem⟩ := am_run 1 (by decide) ini s h
    exact ⟨t, hrun, hmode, hmem rfl⟩

end Sys2Proof.Machine
end

section
/-! SUPPORT. The frames that Caravan receives from its members, and a fresh join or key request (R366-R376, R381-R386, R402). -/
namespace Sys2Proof.Machine

/-- With PTAB serving lookups, a running enabled ACTIVE Caravan admits and answers a fresh request whose address is free: no other node
holds it, and of the coordinator's own sleepy children fewer than 32 are there without it (R372, R382). -/
theorem joinReq_admitted {s : State} {q : JoinReq} {n : Nat} {pt : Option Nat} (hr : crvRuns s = true) (he : enabled s .crv = true)
    (hp : ptReady s = true) (hm : crvMode s = 1) (ha : joinAddr s q.eui = some (n, pt)) (hf : joinFresh s q = true)
    (hfree : (sesOf s n).valid = true → (sesOf s n).eui = q.eui)
    (hroom : q.via ≠ 0 ∨ q.flags.testBit 1 = false ∨ otherSleepy s n < 32) :
    joinReq q s = joinRsp 9 q 0 n (admitNode q n pt (bumpReg (rfPage s) 0x074 s)) := by
  have hheld : ((sesOf s n).valid && (sesOf s n).eui != q.eui) = false := by simpa using hfree
  have hfull : (q.via.val == 0 && q.flags.testBit 1 && decide (32 ≤ otherSleepy s n)) = false := by
    obtain hvia | hwake | hfew := hroom
    · simp [Fin.val_ne_zero_iff.mpr hvia]
    · simp [hwake]
    · simp [hfew]
  have hadmits : ¬ (!joinFresh s q || ((sesOf s n).valid && (sesOf s n).eui != q.eui) ||
      (q.via.val == 0 && q.flags.testBit 1 && decide (32 ≤ otherSleepy s n))) = true := by
    rw [hf, hheld, hfull]; decide
  unfold joinReq
  rw [if_neg (by simp [hr, he]), if_neg (by simp [hp]), if_neg (by simp [hm]), ha]
  exact if_neg hadmits

/-- A running ACTIVE Caravan gives a member that asks with a fresh request the generation in force, or the announced one (R386). -/
theorem keyReq_member {s : State} {q : JoinReq} {n : Nat} {x : CrvSes} (hr : crvRuns s = true) (hm : crvMode s = 1)
    (hses : (s.crv.ses.find? fun y => y.2.valid && y.2.eui == q.eui && y.1 != 0) = some (n, x)) (hf : joinFresh s q = true) :
    keyReq q s = joinRsp 11 q 0 n (crvContact n (putSes n
      { x with ngen := if s.crv.roll = 1 then nextGen (crvNgen s) else crvNgen s } (joinKeep q (bumpReg (rfPage s) 0x074 s)))) := by
  unfold keyReq
  rw [if_neg (by simp [hr]), if_neg (by simp [hm]), hses]
  exact if_neg (by simp [hf])

/-- Settles O26: whatever its effect, a member's new frame is taken by `crvRx_new`; the requests by `joinReq_admitted` and
`keyReq_member`. -/
theorem radioFramesReceivedComplete : Obligations.RadioFramesReceivedComplete := by
  intro s f o
  refine ⟨?member, fun _ _ _ hr he hp hm ha hf hfree hroom => evNext (joinReq_admitted hr he hp hm ha hf hfree hroom),
    fun _ _ _ hr hm hses hf => evNext (keyReq_member hr hm hses hf)⟩
  case member =>
    intro took hr hfcs hkind hgood hkey hvalid hsrc hnew
    have takes (fx : State → State) : done s (crvRx f fx s) = .next (settle s (fx took)) :=
      evNext (crvRx_new f fx s hr hfcs hkind hgood hkey hvalid hsrc hnew)
    exact ⟨fun _ _ _ => takes _, fun _ _ _ _ => takes _, fun _ => takes _, fun _ _ _ => takes _, fun _ => takes _⟩

end Sys2Proof.Machine
end

section
/-! SUPPORT. Caravan's slots, hops, handed-over commands, sessions, key rolls and modes (R361, R362, R370, R373-R391). -/
namespace Sys2Proof.Machine

/-! ### Slots and hops -/

/-- A slot of a running ACTIVE Caravan that no load shed holds, with PTAB serving lookups, runs by its use (R362). -/
theorem caravanSlot_active {s : State} (rssi : Int) (hr : crvRuns s = true) (ht : enabled s (.tb 0) = true) (hms : nowMs s % 10 = 0)
    (hshed : rfShed s = false) (hm : crvMode s = 1) (hp : ptReady s = true) :
    caravanSlot rssi s = match slotUse (crvSlot s) with
      | .coordBeacon => beaconSlot (crvSlot s / 50) s
      | .routerBeacon => s
      | .corridor => corridorSlot s
      | .data => listenDown (dataSlot rssi s) := by
  unfold caravanSlot
  rw [if_neg (by simp [hr, ht, hms, hshed]), if_neg (by simp [hm])]
  cases slotUse (crvSlot s) with
  | coordBeacon => rfl
  | routerBeacon => rfl
  | corridor => exact if_pos hp
  | data => exact if_pos hp

/-- The acknowledgement of a frame on the air takes it off its lists; of a second attempt it is a transient fault (R16, R375). -/
theorem hopAck_onAir {s : State} {x : RfTx} (hx : s.crv.tx = some x) (hair : x.onAir = true) :
    hopAck s = frameTaken x.frame (onCrv (fun c => { c with tx := none }) (if x.second then noteTransient .crv s else s)) := by
  unfold hopAck
  rw [hx]
  exact if_pos hair

/-- A missed acknowledgement of a frame on the air is a failed hop attempt. -/
theorem hopAckMiss_onAir {s : State} {x : RfTx} (hx : s.crv.tx = some x) (hair : x.onAir = true) : hopAckMiss s = hopMissed x s := by
  unfold hopAckMiss
  rw [hx]
  exact if_pos hair

/-- A first failed attempt brings the retry. -/
theorem hopMissed_first {x : RfTx} (h : x.second = false) (s : State) :
    hopMissed x s = onCrv (fun c => { c with tx := some { x with second := true, busy := 0, defer := 0, onAir := false } }) s :=
  if_neg (by simp [h])

/-- A second failed attempt drops the frame. -/
theorem hopMissed_second {x : RfTx} (h : x.second = true) (s : State) :
    hopMissed x s = frameLost x.frame (onCrv (fun c => { c with tx := none }) s) := if_pos h

/-! ### Commands of points -/

section Handover

variable {s : State} {src k : Nat} {c : Cmd} (hoffer : offerAt s src k = some c) (ha : accepting s .crv = true) (hp : ptReady s = true)
  (hradio : cfgRadio (ptHalf s c.point) = true) (hctl : inControl s = true) (hone : c.members = []) (hnu : src = 2 → nuSends s = true)

include ha hp hradio hctl hnu in
/-- Nothing holds back the offer of an engine for a radio point. -/
theorem crvHandover_free :
    ¬ (!accepting s .crv || !ptReady s || !cfgRadio (ptHalf s c.point) || !inControl s || (src == 2 && !nuSends s)) = true := by
  have hsends : (src == 2 && !nuSends s) = false := by simpa using hnu
  simp [ha, hp, hradio, hctl, hsends]

include hoffer ha hp hradio hctl hone hnu

/-- The offer of DIM or DIAG for a point that is no longer served falls (R98; DESIGN CHOICE, log 137). -/
theorem crvHandover_unserved (hout : src < 2 ∧ ptServed s c.point = false) :
    crvHandover src k s = setOffers src (dropAt (offersOf s src) k) s := by
  unfold crvHandover
  rw [hoffer]
  dsimp only
  rw [if_neg (crvHandover_free ha hp hradio hctl hnu), if_neg (by simp [hone]), if_pos hout]

/-- A REVOKE joins its point's revocations, whatever its queue holds (R377). -/
theorem crvHandover_revoke (hin : ¬ (src < 2 ∧ ptServed s c.point = false)) (hop : c.op = 4) {gone : State}
    (hgone : setOffers src (dropAt (offersOf s src) k) s = gone) :
    crvHandover src k s = radioKick c.point (putRpos c.point
      { rposOf gone c.point with revokes := (rposOf gone c.point).revokes ++ [{ c with src := src, uid := s.dim.nextId }] }
      { gone with dim := { gone.dim with nextId := s.dim.nextId + 1 } }) := by
  subst hgone
  unfold crvHandover
  rw [hoffer]
  dsimp only
  rw [if_neg (crvHandover_free ha hp hradio hctl hnu), if_neg (by simp [hone]), if_neg hin, if_pos hop]

/-- Any other command goes into its point's queue, where that has room for it (R377). -/
theorem crvHandover_queued (hin : ¬ (src < 2 ∧ ptServed s c.point = false)) (hop : c.op ≠ 4) {c1 : Cmd}
    (hc1 : { c with src := src, since := tbNs s.tb.t0 / 1000, uid := s.dim.nextId, jrn := jrnWaits s } = c1) {q : List Cmd}
    (hroom : enqueue c1 (rposOf s c.point).queue = some q) :
    crvHandover src k s =
      (let s1 := putRpos c.point { rposOf s c.point with queue := q }
        (setOffers src (dropAt (offersOf s src) k) { s with dim := { s.dim with nextId := s.dim.nextId + 1 } })
       radioKick c.point (jrnTell (jrnHanded 0 c1) (if src = 0 then dimHanded c1 s1 else s1))) := by
  subst hc1
  unfold crvHandover
  rw [hoffer]
  dsimp only
  rw [if_neg (crvHandover_free ha hp hradio hctl hnu), if_neg (by simp [hone]), if_neg hin, if_neg hop, hroom]

end Handover

/-- With one command of the point sent and no group command waiting, the end of an attempt is that command's (R379). -/
theorem ackTmo_one {s : State} {i : Nat} {c : Cmd} (hr : crvRuns s = true) (hg : s.crv.groups = [])
    (hsent : (allCmds (rposOf s i)).filter (·.sent) = [c]) : ackTmo i s = radioAsk i (radioAttempt i c.uid s) := by
  unfold ackTmo
  rw [if_neg (by simp [hr])]
  dsimp only
  rw [hg, hsent]
  cases hretry : c.retry <;> simp [hretry, forEach]

/-! ### Sessions -/

section Miss

variable {s : State} {n : Nat} (hr : crvRuns s = true) (ho : ownSleepy s n = true) (hv : (sesOf s n).valid = true)
  (hl : (sesOf s n).lost = false)
include hr ho hv hl

/-- A first or second missed poll in a row counts (R384). -/
theorem crvLost_counts (hmiss : (sesOf s n).misses < 2) :
    crvLost n s = putSes n { sesOf s n with misses := (sesOf s n).misses + 1 } s :=
  (if_neg (by simp [hr, ho, hv, hl])).trans (if_pos hmiss)

/-- The third makes the child LOST: CRV interrupts, counts it and reports its point to DIAG (R384). -/
theorem crvLost_third (hmiss : 2 ≤ (sesOf s n).misses) :
    crvLost n s =
      (let s1 := raiseIrq .crv 4 (bumpRegF .crv 0x06C 31 16 (putSes n { sesOf s n with misses := 3, lost := true } s))
       match shortPoint s1 n with
       | some i => diagReport (.lost i) s1
       | none => s1) :=
  (if_neg (by simp [hr, ho, hv, hl])).trans (if_neg (by omega))

end Miss

/-- A lease at or past its end frees the session (R373). -/
theorem leaseEnd_due {s : State} {n : Nat} (hn : n ≠ 0) (hv : (sesOf s n).valid = true)
    (ht : 0 ≤ signed 32 (nowSec s + 2 ^ 32 - (sesOf s n).lease % 2 ^ 32)) : leaseEnd n s = freeSes n s :=
  if_pos (by simp only [bne_iff_ne.mpr hn, hv, decide_eq_true ht, Bool.and_self])

/-- A keyed `EVICT` of a member's session frees it. -/
theorem evict_member {s : State} {v : Word} (hk : fld v 31 24 = 0xE9) (hn : fld v 11 0 ≠ 0) (hv : (sesOf s (fld v 11 0)).valid = true) :
    evict v s = freeSes (fld v 11 0) s := if_neg (by simp [hk, hn, hv])

/-- The oldest frame held for a child falls after 64 s (R382). -/
theorem heldExpire_due {s : State} {n : Nat} {h : RfHeld} {l : List RfHeld} (hheld : (sesOf s n).held = h :: l) (hr : crvRuns s = true)
    (ht : 64000 ≤ actDiff (nowMs s) h.since) : heldExpire n s = frameLost h.frame s := by
  unfold heldExpire
  rw [hheld]
  exact if_pos (by simp [hr, ht])

/-- A drawn free value leaves an initiator's registers. -/
theorem regI_used (s : State) (p : Page) (off : Nat) (i : Fin 10) : regI (used s) p off i = regI s p off i := rfl

/-- A snapshot of a session is shown to the initiator that asked, and memory stays (R387). -/
theorem sesIdx_shows (ini : Ini) (v : Word) (s : State) :
    regI (sesIdx ini v s) .crv 0x084 ini.id = 2 ∧ (sesIdx ini v s).mem = s.mem := by
  unfold sesIdx
  dsimp only
  rw [regI_used, regI_setRegI_self, used_mem, setRegI_mem]
  exact ⟨rfl, forEach_keep (·.mem) _ _ (fun _ _ => setRegI_mem ..) s⟩

/-! ### Key rolls and the mode -/

/-- A keyed `ROLL` announces the next generation when none is under way (R386). -/
theorem rollWrite_starts {s : State} {v : Word} (hk : fld v 31 24 = 0x6E) (hb : bit v 0 = true) (hroll : s.crv.roll = 0) :
    rollWrite v s = onCrv (fun c => { c with roll := 1 }) s := (if_neg (by simp [hk])).trans (if_pos (by simp [hb, hroll]))

/-- The switch of generations leaves the event queue and the time bases alone. -/
theorem rollSwitch_keeps (g : Nat) (s : State) :
    (caravanTell (setRegF .crv 0x04C 7 0 g s)).pending = s.pending ∧ (caravanTell (setRegF .crv 0x04C 7 0 g s)).tb = s.tb := by
  simp

/-- Nothing refuses OFF. -/
theorem modeRefusal_off (s : State) : modeRefusal s 0 = none := if_pos (by simp)

/-- A mode command that nothing refuses sets the mode after the other fields, which it writes as they are (R391). -/
theorem crvModeWrite_taken {s : State} {ini : Ini} {m : Nat} (hm : m < 3) (h : writeOpen s ini .crv 0x040 = true) (hr : crvRadio s = 0)
    (hd1 : 1 ≤ crvDepth s) (hd8 : crvDepth s ≤ 8) (hrate : regF s (.rf 0) 0x040 5 4 ≠ 0) {s1 : State}
    (hs1 : plainWrite ini .crv 0x040 (setFld (setFld (reg s .crv 0x040) 1 0 m) 1 0 (crvMode s)) (answer .ok s) = s1)
    (href : modeRefusal s1 m = none) : done s (crvModeWrite ini m s) = .next (settle s (crvModeSet m s1)) := by
  subst hs1
  exact admNext h (ctrlMode ini m s hm hr hd1 hd8 hrate href)

/-- Settles O27, command by command.  An offer for a point that is not served falls (DESIGN CHOICE, log 137), and an acknowledged retry of
a hop counts as a transient fault (DESIGN CHOICE, log 114). -/
theorem caravanCommandsComplete : Obligations.CaravanCommandsComplete := by
  intro s ini v n
  refine ⟨fun rssi hr ht hms hshed hm hp => evNext (caravanSlot_active rssi hr ht hms hshed hm hp), ?hop, ?handover,
    fun _ _ hr hg hsent => evNext (ackTmo_one hr hg hsent),
    fun hr ho hv hl => ⟨fun hmiss => evNext' (crvLost_counts hr ho hv hl hmiss) (putSes_pending ..) (putSes_tb ..),
      fun hmiss => evNext (crvLost_third hr ho hv hl hmiss)⟩,
    fun hn hv ht => evNext' (leaseEnd_due (Fin.val_ne_zero_iff.mpr hn) hv ht) (putSes_pending ..) (putSes_tb ..),
    fun h hk hn hv => admNext' h (evict_member (s := answer .ok s) hk hn hv) (putSes_pending ..) (putSes_tb ..),
    fun h hk hb hroll => admNext' h (rollWrite_starts (s := answer .ok s) hk hb hroll) rfl rfl,
    fun hroll => evNext' (if_pos hroll) (rollSwitch_keeps _ s).1 (rollSwitch_keeps _ s).2, fun hroll => evNext' (if_pos hroll) rfl rfl,
    fun _ _ hheld hr ht => evNext (heldExpire_due hheld hr ht), ?snapshot, ?mode⟩
  case hop =>
    intro x hx hair
    have hack := hopAck_onAir hx hair
    have hmiss := hopAckMiss_onAir hx hair
    exact ⟨fun hfirst => evNext (by rw [hack, hfirst]; rfl), fun hsecond => evNext (by rw [hack, if_pos hsecond]),
      fun hfirst => evNext (hmiss.trans (hopMissed_first hfirst s)), fun hsecond => evNext (hmiss.trans (hopMissed_second hsecond s))⟩
  case handover =>
    intro src k c hoffer ha hp hradio hctl hone hnu
    have hnu' : src.val = 2 → nuSends s = true := fun h2 => hnu (Fin.ext h2)
    refine ⟨fun hlow hout => evNext (crvHandover_unserved hoffer ha hp hradio hctl hone hnu' ⟨hlow, hout⟩),
      fun hin hrev => evNext (crvHandover_revoke hoffer ha hp hradio hctl hone hnu' hin hrev rfl), ?queued⟩
    case queued =>
      intro hin hop c1 q hroom
      exact evNext (crvHandover_queued hoffer ha hp hradio hctl hone hnu' hin hop rfl hroom)
  case snapshot =>
    intro h
    obtain ⟨hdone, hmem⟩ := sesIdx_shows ini v (answer .ok s)
    exact ⟨_, admNext h rfl, (regI_settle ..).trans hdone, (settle_mem ..).trans hmem⟩
  case mode =>
    intro h hr hd1 hd8 hrate
    exact ⟨crvModeWrite_taken (by decide) h hr hd1 hd8 hrate rfl (modeRefusal_off _),
      fun href => crvModeWrite_taken (by decide) h hr hd1 hd8 hrate rfl href,
      fun href => crvModeWrite_taken (by decide) h hr hd1 hd8 hrate rfl href⟩

end Sys2Proof.Machine
end

section
/-! SUPPORT. The event streams: what a push, a pop, a command and an enable do (R575-R579). -/
namespace Sys2Proof.Machine

/-- A push to an enabled stream with room stores its item (R576). -/
theorem exec_esPush_room {s : State} {ini : Ini} {k : Fin 8} {v : Word} (h : workOpen s ini .evq (0x120 + 0x40 * k.val) = true)
    (he : bit (esCfg s k.val) 31 = true) (hv : fld v 31 28 ≠ 15) (hc : esCount (evStream s k.val) < 4096) :
    exec (.esPush ini k v) s = .next (settle s (esLevel k.val (esCount (evStream s k.val))
      (esStore k.val (v.toNat * 2 ^ 32 + (regI s .evq (0x11C + 0x40 * k.val) ini.id).toNat) (answer .ok s)))) := by
  refine admwNext (p := .evq) h ?_
  unfold esPush
  dsimp only
  rw [regI_answer, item_type, if_neg (by rw [show esCfg (answer .ok s) k.val = esCfg s k.val from rfl, he]; decide), if_neg hv,
    if_pos (show esCount (evStream (answer .ok s) k.val) < 4096 from hc)]
  rfl

/-- A pop of an empty stream answers the idle item's halves (R577). -/
theorem esPop_empty {s : State} {k : Nat} (ini : Ini) (hc : esCount (evStream s k) = 0) :
    esPop ini k s = answer (.data 0) (setRegI .evq (0x118 + 0x40 * k) ini.id 0xF0000000 s) := by
  unfold esPop
  exact if_pos (by simp [hc])

theorem exec_esPop_empty {s : State} {ini : Ini} {k : Fin 8} (h : readOpen s ini .evq = true) (hc : esCount (evStream s k.val) = 0) :
    exec (.esPop ini k) s = .next (answer (.data 0) (setRegI .evq (0x118 + 0x40 * k.val) ini.id 0xF0000000 s)) :=
  admrNext' h (esPop_empty ini hc) ((answer_pending ..).trans (setRegI_pending ..)) ((answer_tb ..).trans (setRegI_tb ..))

/-- Whether reads reach a page depends on what is in reset alone. -/
theorem readOpen_of_resetting {s t : State} (h : t.resetting = s.resetting) (ini : Ini) (p : Page) :
    readOpen t ini p = readOpen s ini p := by
  unfold readOpen inReset
  rw [h]

/-- The low half of an item is the word pushed with it. -/
theorem item_low (v w : Word) : word ((v.toNat * 2 ^ 32 + w.toNat) % 2 ^ 32) = w := by
  have := w.isLt
  rw [show (v.toNat * 2 ^ 32 + w.toNat) % 2 ^ 32 = w.toNat by omega]
  exact BitVec.ofNat_toNat ..

/-- The high half of an item is the word that pushed it. -/
theorem item_high (v w : Word) : word ((v.toNat * 2 ^ 32 + w.toNat) / 2 ^ 32) = v := by
  have := w.isLt
  rw [show (v.toNat * 2 ^ 32 + w.toNat) / 2 ^ 32 = v.toNat by omega]
  exact BitVec.ofNat_toNat ..

/-- A pop of a stream with the item at R answers its low half, latches its high half and moves R on (R577). -/
theorem esPop_shows {s : State} {ini : Ini} {k : Fin 8} {item : Nat} (h : readOpen s ini .evq = true) (he : bit (esCfg s k.val) 31 = true)
    (hc : esCount (evStream s k.val) ≠ 0) (hi : spGet (fun _ => 0) (evStream s k.val).items ((evStream s k.val).r % 4096) = item) :
    ∃ t, exec (.esPop ini k) s = .next t ∧ t.resp = .data (word (item % 2 ^ 32)) ∧
      regI t .evq (0x118 + 0x40 * k.val) ini.id = word (item / 2 ^ 32) ∧
      evStream t k.val = { evStream s k.val with r := ((evStream s k.val).r + 1) % 8192 } := by
  subst hi
  exact ⟨_, esPop_eq h he hc, answer_resp .., (regI_answer ..).trans (regI_setRegI_self ..), (evStream_ans ..).trans (evStream_put ..)⟩

/-- What a push to an enabled stream with room leaves (R576). -/
theorem esPush_shows {s : State} {ini : Ini} {k : Fin 8} {v : Word} (h : workOpen s ini .evq (0x120 + 0x40 * k.val) = true)
    (he : bit (esCfg s k.val) 31 = true) (hv : fld v 31 28 ≠ 15) (hc : esCount (evStream s k.val) < 4096) :
    ∃ t, exec (.esPush ini k v) s = .next t ∧ t.resetting = s.resetting ∧ esCfg t k.val = esCfg s k.val ∧
      (evStream t k.val).w = ((evStream s k.val).w + 1) % 8192 ∧ (evStream t k.val).r = (evStream s k.val).r ∧
      (evStream t k.val).items = spPut (fun _ => 0) ((evStream s k.val).w % 4096)
        (v.toNat * 2 ^ 32 + (regI s .evq (0x11C + 0x40 * k.val) ini.id).toNat) (evStream s k.val).items := by
  obtain ⟨hreset, hcfg, -, hstream⟩ := push_facts k.isLt (v.toNat * 2 ^ 32 + (regI s .evq (0x11C + 0x40 * k.val) ini.id).toNat)
    (esCount (evStream s k.val)) s
  obtain ⟨hw, hr, hitems, -⟩ := esStore_facts k.isLt (v.toNat * 2 ^ 32 + (regI s .evq (0x11C + 0x40 * k.val) ini.id).toNat) (answer .ok s)
  refine ⟨_, exec_esPush_room h he hv hc, hreset, hcfg, ?_⟩
  rw [hstream]
  exact ⟨hw, hr, hitems⟩

/-- Settles O52: the pop finds at R what the push wrote at W, and in an empty stream R is W. -/
theorem pushedItemIsPopped : Obligations.PushedItemIsPopped := by
  intro s ini k
  refine ⟨fun h he => ⟨fun item hc hi => ?pop, fun hc => ?idle⟩, fun v hw h he hv hlt hr => ?pushPop⟩
  case pop =>
    obtain ⟨t, hexec, hresp, hlatch, hstream⟩ := esPop_shows h he hc hi
    exact ⟨t, hexec, hresp, hlatch, by rw [hstream]⟩
  case idle => exact ⟨_, exec_esPop_empty h hc, answer_resp .., (regI_answer ..).trans (regI_setRegI_self ..), evStream_ans ..⟩
  case pushPop =>
    have hempty : esCount (evStream s k.val) = 0 := by
      unfold esCount
      omega
    obtain ⟨t, hpush, hreset, hcfg, htw, htr, hitems⟩ := esPush_shows hw he hv (by omega)
    have hone : esCount (evStream t k.val) = 1 := by
      unfold esCount
      omega
    obtain ⟨u, hpop, hresp, hlatch, hstream⟩ := esPop_shows (ini := ini) (item := v.toNat * 2 ^ 32 + (regI s .evq (0x11C + 0x40 * k.val) ini.id).toNat)
      ((readOpen_of_resetting hreset ..).trans h) (by rw [hcfg]; exact he) (by omega) (by rw [hitems, htr, hr]; exact spGet_spPut_self ..)
    refine ⟨t, u, hpush, hone, hpop, by rw [hresp, item_low], by rw [hlatch, item_high], ?_⟩
    rw [hstream]
    unfold esCount
    dsimp only
    omega

/-- A push to a full stream in LAP mode overwrites the oldest item and moves R on (R576, R578). -/
theorem exec_esPush_full {s : State} {ini : Ini} {k : Fin 8} {v : Word} (h : workOpen s ini .evq (0x120 + 0x40 * k.val) = true)
    (he : bit (esCfg s k.val) 31 = true) (hv : fld v 31 28 ≠ 15) (hc : 4096 ≤ esCount (evStream s k.val))
    (hlap : bit (esCfg s k.val) 16 = true) {s1 : State}
    (hs1 : esStore k.val (v.toNat * 2 ^ 32 + (regI s .evq (0x11C + 0x40 * k.val) ini.id).toNat) (answer .ok s) = s1) :
    exec (.esPush ini k v) s = .next (settle s (bumpRegF .evq (0x128 + 0x40 * k.val) 31 16
      (putStream k.val { evStream s1 k.val with r := ((evStream s1 k.val).r + 1) % 8192 } s1))) := by
  subst hs1
  refine admwNext (p := .evq) h ?_
  have hcfg : esCfg (answer .ok s) k.val = esCfg s k.val := rfl
  unfold esPush
  dsimp only
  rw [regI_answer, item_type, hcfg, if_neg (by rw [he]; decide), if_neg hv,
    if_neg (show ¬ esCount (evStream (answer .ok s) k.val) < 4096 from Nat.not_lt.mpr hc), if_neg (by rw [hlap]; decide)]

/-! ### The commands of a stream -/

section
variable {s : State} {k : Nat}

theorem esMark_lap (h : bit (esCfg s k) 16 = true) :
    esMark k s = putStream k { evStream s k with mark := some (evStream s k).r, lost := false } s := if_neg (by rw [h]; decide)

theorem esRewind_marked {m : Nat} (h : bit (esCfg s k) 16 = true) (hl : (evStream s k).lost = false) (hm : (evStream s k).mark = some m) :
    esRewind k s = esLevel k (esCount (evStream s k)) (putStream k { evStream s k with r := m } s) := by
  simp [esRewind, h, hl, hm]

theorem esRewind_lost (h : bit (esCfg s k) 16 = true) (hl : (evStream s k).lost = true) :
    esRewind k s = esLevel k (esCount (evStream s k)) (putStream k { evStream s k with r := esOldest (evStream s k) } (recErr .evq 0x100 s)) := by
  simp [esRewind, h, hl]

/-- Setting EN from 0 empties the stream (R575). -/
theorem esCfgWrite_enables {ini : Ini} {v : Word} (hoff : bit (esCfg s k) 31 = false)
    (hon : bit (esCfg (plainWrite ini .evq (0x100 + 0x40 * k) v s) k) 31 = true) :
    esCfgWrite ini k v s = putStream k {} (plainWrite ini .evq (0x100 + 0x40 * k) v s) := if_pos (by simp [hoff, hon])

end

/-- Settles O40, command by command. -/
theorem streamCommandsComplete : Obligations.StreamCommandsComplete := by
  intro s ini k v
  refine ⟨fun h he hv => ⟨exec_esPush_room h he hv, fun hc hlap => exec_esPush_full h he hv hc hlap rfl⟩,
    fun h he hc => esPop_eq h he hc, fun h => ⟨fun hlap => ⟨?mark, fun m hl hm => ?rewind, fun hl => ?lost⟩, ?flush⟩, fun h hoff hon => ?enable⟩
  case mark => exact admNext' h (esMark_lap (s := answer .ok s) hlap) rfl rfl
  case rewind => exact admNext h (esRewind_marked (s := answer .ok s) hlap hl hm)
  case lost => exact admNext h (esRewind_lost (s := answer .ok s) hlap hl)
  case flush => exact admNext' h rfl rfl rfl
  case enable => exact admNext h (esCfgWrite_enables (s := answer .ok s) hoff hon)

end Sys2Proof.Machine
end

section
/-! SUPPORT. The DMA engine: how a channel starts, how its descriptor ends, and what halts the engine (R559-R569). -/
namespace Sys2Proof.Machine

/-- What a work request's write needs: it reaches its page, which is enabled and not quiescing. -/
theorem workOpen_parts {s : State} {ini : Ini} {p : Page} {off : Nat} (h : workOpen s ini p off = true) :
    writeOpen s ini p off = true ∧ enabled s p = true ∧ quiescing s p = false := by
  simp only [workOpen, Bool.and_eq_true, Bool.not_eq_true'] at h
  obtain ⟨⟨hw, he⟩, hq⟩ := h
  exact ⟨hw, he, hq⟩

/-! ### `CH_GO` and CLEAR_HALT -/

/-- `CH_GO` to an idle channel of a running engine starts it at `CH_DESC` (R559, R565). -/
theorem chGo_idle {s : State} {c : Nat} (he : enabled s .dma = true) (hq : quiescing s .dma = false) (hh : dmaHalted s = false)
    (hb : chBit s c 0 = false) :
    chGo c 1 s = setChStat c 1 (setReg .dma (chOff c 0xC) (reg s .dma (chOff c 0)) s) := by
  simp [chGo, workRequest_open he hq, hh, hb]

/-- `CH_GO` to a BUSY channel is recorded and ignored (R566). -/
theorem chGo_busy {s : State} {c : Nat} (he : enabled s .dma = true) (hq : quiescing s .dma = false) (hh : dmaHalted s = false)
    (hb : chBit s c 0 = true) : chGo c 1 s = recErr .dma 0x102 s := by
  simp [chGo, workRequest_open he hq, hh, hb]

@[simp] theorem setChStat_mem (c n : Nat) (s : State) : (setChStat c n s).mem = s.mem := by simp [setChStat]

/-- CLEAR_HALT of a halted engine leaves every channel idle (R565). -/
theorem dmaCmdWrite_clears {s : State} (h : dmaHalted s = true) :
    dmaCmdWrite 0xD4000001 s = forEach (fun k t => setChStat k (regN t .dma (chOff k 8) &&& 0xA) t) (List.range 16)
      (setRegB .dma 0x040 31 false { s with dmaNext := [] }) :=
  if_pos h

/-! ### How a descriptor ends -/

section
variable {early : Bool} {c : Nat} {x f : DmaRun} {d : DmaDesc} (hf : fetchDesc early c x = f) (hd : descOf (wordsOf f.data) = d)
include hf hd

/-- An invalid descriptor stops its channel with INVALID alone (R566). -/
theorem descComplete_invalid (hs : f.stop = none) (hb : d.bad = true) :
    descComplete early c x = (recErr .dma 0x103 (setChStat c 8 (dmaEcc f)), none) := by
  subst hf hd
  simp [descComplete, hs, hb]

/-- A descriptor whose accesses meet an error ends there (R564). -/
theorem descComplete_stopped (hs : f.stop = none) (hb : d.bad = false) {r : DmaRun × Option Nat}
    (hr : descRun early d (descFuel d) 0 0 { f with data := [] } = r) (hrs : r.1.stop.isSome = true) :
    descComplete early c x = (dmaEcc r.1, r.1.stop) := by
  unfold descComplete
  dsimp only
  rw [hf, hd, hr, if_neg (by rw [hs]; decide), if_neg (by rw [hb]; decide), if_pos hrs]

/-- A descriptor whose accesses and write-back meet no error leads on to the next one, or to the end of its chain (R563). -/
theorem descComplete_runs (hs : f.stop = none) (hb : d.bad = false) {r : DmaRun × Option Nat}
    (hr : descRun early d (descFuel d) 0 0 { f with data := [] } = r) (hrs : r.1.stop = none) {w : DmaRun}
    (hw : dmaPut early (regN x.st .dma (chOff c 0xC) + 28)
      (leBytes 4 (2 ^ 31 + (match r.2 with | some k => 2 ^ 30 + k | none => 0))) r.1 = w) (hws : w.stop = none) :
    descComplete early c x = (descNext c d r.2.isSome (if d.mode = 5 then
      setReg .dma (chOff c 0x10) (match r.2 with | some k => word k | none => 0xFFFFFFFF) (dmaEcc w) else dmaEcc w), none) := by
  unfold descComplete
  dsimp only
  rw [hf, hd, hr, if_neg (by rw [hs]; decide), if_neg (by rw [hb]; decide), if_neg (by rw [hrs]; decide)]
  subst hw
  exact if_neg (Option.not_isSome_iff_eq_none.mpr hws)

end

section
variable {s : State} {c : Fin 16} (h : dmaGoes s c.val = true)
include h

/-- A running channel's descriptor that meets no bus error. -/
theorem exec_descComplete_ends {ecc : EccEvent} {w : Nat} {t : State}
    (e : descComplete false c.val { st := s, ecc := ecc, word := w } = (t, none)) :
    exec (.descComplete ⟨c, ecc, w⟩) s = .next (settleTb s t) :=
  evTb (by simp [h, e])

/-- A running channel's descriptor that meets a bus error halts the engine (R564). -/
theorem exec_descComplete_halts {ecc : EccEvent} {w : Nat} {t : State} {b : BusErr} {a : Nat}
    (e : descComplete false c.val { st := s, ecc := ecc, word := w } = (t, some (some b, a))) :
    exec (.descComplete ⟨c, ecc, w⟩) s = .next (settleTb s (dmaHalt c.val b a t)) :=
  evTb (by simp [h, e])

/-- A running channel whose descriptor's own read meets a bus error halts the engine (R564). -/
theorem exec_dmaHalt {early : Bool} {b : BusErr} {a : Nat} (e : (fetchDesc early c.val { st := s }).stop = some (some b, a)) :
    exec (.dmaHalt c early) s = .next (settleTb s (dmaHalt c.val b a (dmaEcc (fetchDesc early c.val { st := s })))) := by
  have hd : descComplete early c.val { st := s } = (dmaEcc (fetchDesc early c.val { st := s }), some (some b, a)) := by
    simp [descComplete, e]
  exact evTb (by simp [h, hd])

end

/-- Settles O57: the descriptor's 32 bytes lie in SRAM, so they are read without an event (`fetch_sram`), and the read finds them
invalid (`bad_of`); that an invalid descriptor is found when it is run is log 107 (DESIGN CHOICE). -/
theorem invalidDescriptorStopsItsChannel : Obligations.InvalidDescriptorStopsItsChannel := by
  refine ⟨fun s c hgo halign hlow hhigh hbad ecc w => ?invalid, fun s ini c h hh hb => ?busy⟩
  case invalid =>
    have hfetch := fetch_sram ecc w halign hlow hhigh
    have hinvalid := bad_of hbad
    have hexec := exec_descComplete_ends hgo (descComplete_invalid hfetch rfl rfl hinvalid)
    have hstat : chOff c.val 8 = 0x108 + 0x20 * c.val := by
      unfold chOff
      omega
    refine ⟨_, hexec, ?stat, ?code, fun k hk => ?others, fun a => ?mem⟩
    case stat =>
      rw [regN, reg_settleTb, recErr_off _ _ _ (by omega), chStat_self _ _ _ c.isLt]
      rfl
    case code =>
      rw [regF, reg_settleTb]
      exact recErr_code .dma 0x103 _ (by decide)
    case others =>
      rw [reg_settleTb, recErr_off _ _ _ (by unfold chOff; omega), chStat_other _ _ _ _ (Fin.val_ne_of_ne hk)]
      rfl
    case mem => exact memByte_of_mem (by rw [settleTb_mem, recErr_mem, setChStat_mem]; rfl) a
  case busy =>
    obtain ⟨hw, he, hq⟩ := workOpen_parts h
    exact admNext' hw (chGo_busy (s := answer .ok s) he hq hh hb) (by simp) (by simp)

/-- Settles O38, from how a descriptor ends.  DONE and INVALID are cleared by `CH_GO` (DESIGN CHOICE, log 107). -/
theorem dmaCommandsComplete : Obligations.DmaCommandsComplete := by
  intro s ini c
  refine ⟨fun h hh hb => ?go, fun hgo => ⟨fun ecc word' => ?descriptor, fun early e a hs => exec_dmaHalt hgo hs⟩, fun h hh => ?clearHalt⟩
  case go =>
    obtain ⟨hw, he, hq⟩ := workOpen_parts h
    exact admNext' hw (chGo_idle (s := answer .ok s) he hq hh hb) (by simp) (by simp)
  case descriptor =>
    intro x f d hs
    refine ⟨fun hb => exec_descComplete_ends hgo (descComplete_invalid rfl rfl hs hb), fun hb => ?_⟩
    intro r wb w t
    exact ⟨fun hr hw => exec_descComplete_ends hgo (descComplete_runs rfl rfl hs hb rfl hr rfl hw),
      fun e a hr => exec_descComplete_halts hgo ((descComplete_stopped rfl rfl hs hb rfl (by rw [hr]; rfl)).trans (by rw [hr]))⟩
  case clearHalt => exact admNext h (dmaCmdWrite_clears (s := answer .ok s) hh)

end Sys2Proof.Machine
end

section
/-! SUPPORT. The event recorder: records as bytes, the queue, writes, the scan and snapshots (R584-R593). -/
namespace Sys2Proof.Machine

/-! ### A record's bytes -/

theorem evrBytes_length (s : State) (r : EvrRec) (seq : Nat) : (evrBytes s r seq).length = 64 := by
  simp [evrBytes, evrBody_length, leBytes_length]

/-- The CRC over bytes 0-59 stands in bytes 60-63. -/
theorem evrValid_evrBytes (s : State) (r : EvrRec) (seq : Nat) : evrValid (evrBytes s r seq) = true := by
  have hdrop : (evrBytes s r seq).drop 60 = leBytes 4 (crc32 (evrBody s r seq)) := List.drop_left' (evrBody_length ..)
  have htake : (evrBytes s r seq).take 60 = evrBody s r seq := List.take_left' (evrBody_length ..)
  rw [evrValid, hdrop, htake, leNat_leBytes, Nat.mod_eq_of_lt (show crc32 (evrBody s r seq) < 256 ^ 4 from crc32_lt _)]
  exact beq_self_eq_true _

/-- SEQ stands in bytes 56-59. -/
theorem evrSeq_evrBytes (s : State) (r : EvrRec) {seq : Nat} (h : seq < 2 ^ 32) : evrSeq (evrBytes s r seq) = seq := by
  unfold evrSeq evrBytes evrBody
  dsimp only
  rw [List.append_assoc, List.drop_left' (by simp [leBytes_length, takePad_length]), List.take_left' (leBytes_length ..), leNat_leBytes]
  exact Nat.mod_eq_of_lt h

/-- CODE stands in bytes 8-9. -/
theorem evrCode_evrBytes (s : State) (r : EvrRec) (seq : Nat) (h : r.code < 65536) : evrCode (evrBytes s r seq) = r.code := by
  unfold evrCode evrBytes evrBody
  dsimp only
  rw [show ∀ a b c d e f g i j : List Byte, a ++ b ++ c ++ d ++ e ++ f ++ g ++ i ++ j = a ++ b ++ (c ++ (d ++ e ++ f ++ g ++ i ++ j)) by simp,
    List.drop_left' (by simp [leBytes_length]), List.take_left' (leBytes_length ..), leNat_leBytes]
  exact Nat.mod_eq_of_lt h

/-! ### Writing the head of the queue -/

@[simp] theorem noteTransient_pending (p : Page) (s : State) : (noteTransient p s).pending = s.pending := rfl
@[simp] theorem noteTransient_tb (p : Page) (s : State) : (noteTransient p s).tb = s.tb := rfl

/-- The note of a transient fault does not bear on the queue. -/
theorem evrPop_noteTransient (p : Page) (s : State) : evrPop (noteTransient p s) = noteTransient p (evrPop s) := by
  have e : (noteTransient p s).evr = s.evr := rfl
  unfold evrPop
  rw [e]
  cases s.evr.waiting <;> rfl

section
variable {s : State} {h : EvrRec} {rest : List EvrRec} (hq : s.evr.queue = h :: rest) (hs : evrScanning s = false)
include hq hs

theorem evrWriteHead_ok (hg : s.evr.gap = none) : evrWriteHead .ok s = evrPop (evrPut h s) := by
  simp [evrWriteHead, evrWriteOk, hq, hs, hg]

theorem evrWriteHead_okOnRetry (hg : s.evr.gap = none) :
    evrWriteHead .okOnRetry s = noteTransient .evr (evrPop (evrPut h s)) := by
  rw [← evrPop_noteTransient]
  simp [evrWriteHead, evrWriteOk, hq, hs, hg]

theorem evrWriteHead_failed : evrWriteHead .failed s = evrPop (evrWriteLost h s) := by
  simp [evrWriteHead, hq, hs]

end

/-- Settles O55: the record's 64 bytes go to the slot of its SEQ, and leaving the queue touches no memory. -/
theorem writtenRecordIsValid : Obligations.WrittenRecordIsValid := by
  intro s t h rest hq hs hg hexec seq at0
  obtain ⟨hmem, hn⟩ := evrPut_facts h s
  obtain ⟨hpmem, hpn⟩ := evrPop_mem (evrPut h s)
  have ht : t = settle s (evrPop (evrPut h s)) := by
    have e : exec (.evrWrite .ok) s = .next (settle s (evrPop (evrPut h s))) := evNext (evrWriteHead_ok hq hs hg)
    exact (Host.Outcome.next.inj (e.symm.trans hexec)).symm
  have htmem : t.mem = (memWrite at0 (evrBytes s h seq) s).mem := by
    rw [ht]
    exact hpmem.trans hmem
  have hread : evrRead t (evrSlot (seq - s.evr.c)) = evrBytes s h seq := by
    have hback := memRead_write (evrBytes s h seq) at0 s
    rw [evrBytes_length] at hback
    exact (memRead_mem htmem at0 64).trans hback
  have hseq : seq < 2 ^ 32 := Nat.mod_lt _ (by decide)
  refine ⟨by rw [ht]; exact hpn.trans hn, hread, ?valid, ?seqOf, fun hc => ?codeOf, fun b hb => ?frame⟩
  case valid => rw [hread, evrValid_evrBytes]
  case seqOf => rw [hread, evrSeq_evrBytes s h hseq]
  case codeOf => rw [hread, evrCode_evrBytes s h seq hc]
  case frame => exact (memByte_of_mem htmem b).trans (memByte_memWrite_other _ _ _ _ (by rw [evrBytes_length]; exact hb))

/-! ### The other commands -/

/-- The first offer enters the queue of a recorder that takes records (R588). -/
theorem evrTakeOffer_accepted {s : State} {r : EvrRec} {rest : List EvrRec} (ho : s.evr.offers = r :: rest) (ha : evrAccepts s = true) :
    evrTakeOffer s = { s with evr := { s.evr with offers := rest, queue := s.evr.queue ++ [r] } } := by
  simp [evrTakeOffer, ho, ha]

/-- The record that a port's registers describe (R587). -/
def evrPortRecord (s : State) (ini : Ini) : EvrRec :=
  { code := fld (regI s .evr 0x080 ini.id) 15 0
    pay := ((List.range 9).flatMap fun k => leBytes 4 (regI s .evr (0x090 + 4 * k) ini.id).toNat).take (fld (regI s .evr 0x080 ini.id) 21 16)
    src := ini.id.val, loc := locOfIni (serial16 s) ini.id, port := ini.id.val + 1 }

/-- A `WR_GO` that R587 and R594 accept puts its record into a queue with room, and its port shows BUSY. -/
theorem evrPortGo_room {s : State} {ini : Ini} (he : enabled s .evr = true) (hq : quiescing s .evr = false)
    (hb : bit (regI s .evr 0x0B8 ini.id) 0 = false) (hl : fld (regI s .evr 0x080 ini.id) 21 16 ≤ 36)
    (hc : 4 ≤ ini.id.val ∨ 0x8000 ≤ fld (regI s .evr 0x080 ini.id) 15 0) (hroom : s.evr.queue.length < 64) :
    evrPortGo ini 1 s =
      { setRegI .evr 0x0B8 ini.id 1 s with evr := { s.evr with queue := s.evr.queue ++ [evrPortRecord s ini] } } := by
  have hcode : ¬ (decide (ini.id.val < 4) && decide (fld (regI s .evr 0x080 ini.id) 15 0 < 0x8000)) = true := by
    simp only [Bool.and_eq_true, decide_eq_true_eq]
    omega
  unfold evrPortGo
  dsimp only
  rw [if_neg (by decide), if_neg (by rw [hb]; decide), if_neg (Nat.not_lt.mpr hl), if_neg hcode, workRequest_open he hq, if_pos hroom,
    setRegI_evr]
  rfl

/-- An engine's record at the head is written with its SEQ and leaves the queue; none waits for the room, and no port is told. -/
theorem evrPop_evrPut {s : State} {r : EvrRec} {rest : List EvrRec} (hq : s.evr.queue = r :: rest) (hw : s.evr.waiting = [])
    (hp : r.port = 0) :
    evrPop (evrPut r s) =
      { memWrite (evrBase + 64 * evrSlot ((s.evr.n + 1) % 2 ^ 32 - s.evr.c)) (evrBytes s r ((s.evr.n + 1) % 2 ^ 32)) s with
        evr := { s.evr with n := (s.evr.n + 1) % 2 ^ 32, queue := rest } } := by
  unfold evrPut
  dsimp only
  rw [if_pos hp, memWrite_evr]
  generalize memWrite _ _ s = m
  simp [evrPop, hw, hq]

theorem evrPut_pending (r : EvrRec) (s : State) : (evrPut r s).pending = s.pending := by
  unfold evrPut
  dsimp only
  split <;> simp

theorem evrPut_tb (r : EvrRec) (s : State) : (evrPut r s).tb = s.tb := by
  unfold evrPut
  dsimp only
  split <;> simp

theorem evrPop_pending (s : State) : (evrPop s).pending = s.pending := by unfold evrPop; split <;> rfl
theorem evrPop_tb (s : State) : (evrPop s).tb = s.tb := by unfold evrPop; split <;> rfl

/-- How the scan ends once C and N are known (R589). -/
def evrScanEnd (v : List (Nat × Nat)) (s1 : State) : State :=
  let bad := (evrHeldSeqs s1.evr).filter fun q => !evrValid (evrRead s1 (evrSlot (q - s1.evr.c)))
  let s2 := evrReseed (setReg .evr 0x05C (word bad.length) s1) v
  { s2 with evr := { s2.evr with queue := evrStart s2 :: s2.evr.queue } }

/-- Where no slot is valid the recorder starts with CLEARED at SEQ 0 (R589). -/
theorem evrScan_cleared {s : State} (hv : evrValidSlots s = []) :
    evrScan s = evrScanEnd (evrValidSlots s) (memWrite evrBase
      (evrBytes s (evrOwn s 0x0004 (leBytes 4 0 ++ leBytes 4 0 ++ leBytes 1 0 ++ leBytes 1 1)) 0)
      { setRegB .evr 0x044 0 false s with evr := { (setRegB .evr 0x044 0 false s).evr with c := 0, n := 0 } }) := by
  unfold evrScan
  dsimp only
  rw [if_pos (by rw [hv]; rfl)]
  rfl

/-- With a valid CLEARED record in slot 0, C is its SEQ and N the highest SEQ (R589). -/
theorem evrScan_found {s : State} (hv : evrValidSlots s ≠ []) (hz : evrValid (evrRead s 0) = true) (hc : evrCode (evrRead s 0) = 0x0004) :
    evrScan s = evrScanEnd (evrValidSlots s) { setRegB .evr 0x044 0 false s with
      evr := { (setRegB .evr 0x044 0 false s).evr with c := evrSeq (evrRead s 0), n := listMax ((evrValidSlots s).map (·.2)) } } := by
  unfold evrScan
  dsimp only
  rw [if_neg (by simpa using hv), if_pos (by simp [hz, hc])]
  rfl

/-- `RD_SEQ` of a held record that its slot holds answers a snapshot (R590). -/
theorem evrRdSeq_held {s : State} {v : Word} (ini : Ini) (hh : evrHeld s.evr v.toNat = true) {b : List Byte}
    (hb : evrRead s (evrSlot (v.toNat - s.evr.c)) = b) (hv : evrValid b = true) (hs : evrSeq b = v.toNat) :
    evrRdSeq ini v s = setRegI .evr 0x0C4 ini.id 2
      (forEach (fun k t => setRegI .evr (0x100 + 4 * k) ini.id (word (leNat ((b.drop (4 * k)).take 4))) t) (List.range 16) s) := by
  subst hb
  simp [evrRdSeq, hh, hv, hs]

/-- Settles O41, command by command.  A write that is right on its retry counts as a transient fault (DESIGN CHOICE, log 114). -/
theorem recorderCommandsComplete : Obligations.RecorderCommandsComplete := by
  intro s ini v
  refine ⟨fun r rest ho ha => evNext' (evrTakeOffer_accepted ho ha) rfl rfl, fun h hb hl hc hroom => ?port,
    fun head rest hq hs => ⟨fun hg hw hp => ?written, evNext (evrWriteHead_failed hq hs)⟩, fun hs => ⟨fun hv => ?cleared, fun hv hz hc => ?found⟩,
    fun h hh hv hseq => admNext h (evrRdSeq_held (s := answer .ok s) ini hh rfl hv hseq), fun hr => evNext' (if_pos hr) rfl rfl⟩
  case port =>
    obtain ⟨hw, he, hq⟩ := workOpen_parts h
    exact admNext' hw (evrPortGo_room (s := answer .ok s) he hq hb hl hc hroom) 
      (setRegI_pending .evr 0x0B8 ini.id 1 (answer .ok s)) (setRegI_tb .evr 0x0B8 ini.id 1 (answer .ok s))
  case written =>
    have hpop := evrPop_evrPut hq hw hp
    exact ⟨(evNext' (evrWriteHead_ok hq hs hg) ((evrPop_pending _).trans (evrPut_pending ..)) ((evrPop_tb _).trans (evrPut_tb ..))).trans (congrArg _ hpop),
      (evNext' (evrWriteHead_okOnRetry hq hs hg) ((evrPop_pending _).trans (evrPut_pending ..)) ((evrPop_tb _).trans (evrPut_tb ..))).trans
        (congrArg (fun t => Host.Outcome.next (noteTransient .evr t)) hpop)⟩
  case cleared =>
    have hscan := evrScan_cleared hv
    dsimp only [evrScanEnd] at hscan ⊢
    exact evNext ((if_pos hs).trans hscan)
  case found => exact evNext ((if_pos hs).trans (evrScan_found hv hz hc))

end Sys2Proof.Machine
end

section
/-! SUPPORT. CMDQ: pushes, the head's access, the poll time-out and the commands of `CQ_CMD` (R570-R574). -/
namespace Sys2Proof.Machine

/-! ### Pushes -/

/-- The entry that a push makes. -/
def cqEntryOf (s : State) (ini : Ini) (v : Word) : CqEntry :=
  { addr := v.toNat / 4 * 4, kind := fld v 1 0, data := regI s .cmdq 0x048 ini.id, ini := ini }

/-- A good push joins a chain with room (R570). -/
theorem exec_cqPush_room {s : State} {ini : Ini} {v : Word} (h : workOpen s ini .cmdq 0x04C = true) (hg : cqGood v = true)
    (hr : s.cmdq.entries.length < 32) : exec (.cqPush ini v) s = .next (settle s (cqJoin (cqEntryOf s ini v) (answer .ok s))) := by
  refine admwNext (p := .cmdq) h ?_
  dsimp only
  rw [if_neg (by rw [hg]; decide), if_pos (show (answer .ok s).cmdq.entries.length < 32 from hr)]
  rfl

/-- A good push to a full chain stalls (R573). -/
theorem exec_cqPush_full {s : State} {ini : Ini} {v : Word} (h : workOpen s ini .cmdq 0x04C = true) (hg : cqGood v = true)
    (hr : 32 ≤ s.cmdq.entries.length) :
    exec (.cqPush ini v) s = .next (answer .stalled (onCq (fun q => { q with stalled := q.stalled ++ [cqEntryOf s ini v] }) s)) := by
  refine admwNext' (p := .cmdq) h ?_ rfl rfl
  dsimp only
  rw [if_neg (by rw [hg]; decide), if_neg (show ¬ (answer .ok s).cmdq.entries.length < 32 from Nat.not_lt.mpr hr)]
  rfl

/-! ### The head's access -/

section
variable {s : State} {e : CqEntry} {rest : List CqEntry} {early : Bool} (he : s.cmdq.entries = e :: rest) (hrun : running s .cmdq = true)
  (hhalt : cqHalted s = false) (hheld : regB s .cmdq 0x044 29 = false) (hstop : resetStop early s e.addr = none)
include he hrun hhalt hheld hstop

/-- The head's write that succeeds is done (R571). -/
theorem cqRun_writes (hk : e.kind = 0) (hresp : (busWrite e.ini e.addr e.data s).resp = .ok) :
    cqRun early s = cqDone (if e.tries != 0 then noteTransient .cmdq (busWrite e.ini e.addr e.data s) else busWrite e.ini e.addr e.data s) := by
  rw [cqRun_eq he hrun hhalt hheld]
  dsimp only
  rw [cqAccess_w hstop hk hresp]
  exact if_pos (by rw [hk]; rfl)

/-- The head's WAIT is done if it is met, and waits if not (R571). -/
theorem cqRun_waits {w : Word} (hk : e.kind ≠ 0) (hresp : (busRead e.ini e.addr s).resp = .data w) :
    cqRun early s = if cqMet e w then cqDone (if e.tries != 0 then noteTransient .cmdq (busRead e.ini e.addr s) else busRead e.ini e.addr s)
      else cqFlags true false (busRead e.ini e.addr s) := by
  rw [cqRun_eq he hrun hhalt hheld]
  dsimp only
  rw [cqAccess_r hstop hk hresp]
  dsimp only
  rw [cqTook, decide_eq_false hk, Bool.false_or]

end

/-! ### The poll time-out -/

/-- The head counts its failed attempt. -/
theorem cqTried_first {s : State} {e : CqEntry} {rest : List CqEntry} (he : s.cmdq.entries = e :: rest) (ht : e.tries = 0) :
    cqTried s = onCq (fun q => { q with entries := { e with tries := 1 } :: rest }) s := by
  simp [cqTried, onCq, he, ht]

section
variable {s : State} {e : CqEntry} {rest : List CqEntry} (he : s.cmdq.entries = e :: rest) (hw : cqWaiting s = true)
  (hhalt : cqHalted s = false) (hrun : running s .cmdq = true)
include he hw hhalt hrun

/-- A time-out of a head that waits is retried the first time and halts the second (R572). -/
theorem exec_pollTmo : exec .pollTmo s = done s (if e.tries = 0 then cqTried s else cqHalt 0x102 s) := by
  show execPollTmo s = _
  rw [execPollTmo, he]
  dsimp only
  rw [if_neg (by rw [hw, hhalt, hrun]; decide)]

end

/-! ### `CQ_CMD` -/

/-- RESUME of a halted chain: the head runs again as a fresh entry (R572). -/
theorem cqCmdWrite_resumes {s : State} {e : CqEntry} {rest : List CqEntry} (he : s.cmdq.entries = e :: rest) (hh : cqHalted s = true) :
    cqCmdWrite 0x43000001 s = setRegB .cmdq 0x044 31 false (cqFlags false false
      (onCq (fun q => { q with entries := { e with tries := 0 } :: rest }) s)) := by
  have hresume : cqCmdWrite 0x43000001 s = cqResume s := rfl
  rw [hresume, cqResume, if_pos hh, onCq, he]
  rfl

/-- With no push that stalls, none is admitted. -/
theorem cqAdmit_none {s : State} (h : s.cmdq.stalled = []) (n : Nat) : cqAdmit n s = s := by
  cases n with
  | zero => rfl
  | succ n => simp [cqAdmit, h]

/-- FLUSH of a chain with no push that stalls leaves it empty (R572). -/
theorem cqCmdWrite_flushes {s : State} (hs : s.cmdq.stalled = []) (he : s.cmdq.entries ≠ []) :
    cqCmdWrite 0x43000002 s = raiseIrq .cmdq 0 (cqFlags false false (onCq (fun q => { q with entries := [] }) s)) := by
  have hflush : cqCmdWrite 0x43000002 s = cqFlush s := rfl
  have hempty : (cqFlags false false (onCq (fun q => { q with entries := [] }) s)).cmdq = { s.cmdq with entries := [] } := cqFlags_cmdq ..
  rw [hflush, cqFlush, cqAdmit_none (by rw [hempty]; exact hs)]
  exact if_pos (by rw [hempty]; simpa using he)

/-- Settles O39, command by command.  Success on the one retry counts as a transient fault (DESIGN CHOICE, logs 114 and 186). -/
theorem queueCommandsComplete : Obligations.QueueCommandsComplete := by
  intro s ini v
  refine ⟨fun h hg => ⟨fun hr => exec_cqPush_room h hg hr, fun hr => exec_cqPush_full h hg hr⟩,
    fun e rest early he hrun hhalt hheld hstop => ⟨fun hk hw hresp => ?write, fun w hk hresp => ⟨fun hw => ?wait, fun hw hearly => ?poll⟩⟩,
    fun e rest he hw hhalt hrun => ⟨fun ht => ?retry, fun ht => ?halts⟩,
    fun h => ⟨fun e rest he hh => ?resume, fun hs he => admNext h (cqCmdWrite_flushes (s := answer .ok s) hs he)⟩⟩
  case write => exact evTb ((if_neg (by rw [hw]; decide)).trans (cqRun_writes he hrun hhalt hheld hstop hk hresp))
  case wait => exact evTb ((if_neg (by rw [hw]; decide)).trans (cqRun_waits he hrun hhalt hheld hstop hk hresp))
  case poll =>
    subst hearly
    exact evTb ((if_pos hw).trans (cqRun_waits he hrun hhalt hheld hstop hk hresp))
  case retry => exact (exec_pollTmo he hw hhalt hrun).trans (evNext' ((if_pos ht).trans (cqTried_first he ht)) rfl rfl)
  case halts => exact (exec_pollTmo he hw hhalt hrun).trans (evNext (if_neg ht))
  case resume => exact admNext' h (cqCmdWrite_resumes (s := answer .ok s) he hh) (by simp [onCq]) (by simp [onCq])

/-- Settles O1: `step` takes the command in front, and the state with the queue's rest is the state itself. -/
theorem stepRunsTheCommandInFront : Obligations.StepRunsTheCommandInFront := fun _ _ => rfl

end Sys2Proof.Machine
end

section
/-! SUPPORT. The security core's requests: what each answers where nothing refuses it (R507-R520). -/
namespace Sys2Proof.Machine

section
variable {s : State} {r : SecReq}

/-! ### Slots: INFO, LOAD, VERIFY, COMMIT, ERASE -/

/-- INFO answers the slot (R510). -/
theorem secInfo_answers (hr : restricted s = true → bit (keySlotOf s r.slot).attr 26 = true)
    (ho : ownerAdmits (keySlotOf s r.slot).attr r.ini = true ∨ r.slot = 0) :
    secInfo r s = secOk r [(keySlotOf s r.slot).attr, word (2 * b01 (shadowOf s r.slot).isSome + b01 (keySlotOf s r.slot).bad),
      word (keySlotOf s r.slot).gen] s := by
  unfold secInfo
  dsimp only
  rw [if_neg (by simpa using hr), if_neg]
  rcases ho with h | h <;> simp [h]

/-- LOAD from the DRBG (R511). -/
theorem secLoad_draws (h : loadRefuses s r.slot r.ini (argOf r 15) = none) (hf : r.flags = 0) :
    secLoad r s = secDrew (shadowLoad r r.slot (argOf r 15) (freeB s 32) true false s) := by
  simp only [secLoad, h, hf]

/-- LOAD of a value given by the security core (R511). -/
theorem secLoad_given (h : loadRefuses s r.slot r.ini (argOf r 15) = none) (hf : r.flags = 2) (hi : r.ini = 8) :
    secLoad r s = shadowLoad r r.slot (argOf r 15) (argBytes r 0 8) (kType (argOf r 15) == 3 || kType (argOf r 15) == 4) false s := by
  simp only [secLoad, h, hf]
  exact if_neg (by simp [hi])

/-- VERIFY of a shadow whose value gives the expected tag marks it (R512). -/
theorem secVerify_marks {x : Shadow} (hb : slotBarred s r.slot r.ini false = none) (hx : shadowNamed s r.slot (argOf r 8) = some x)
    (ht : takePad 16 (Config.hmacSha256 x.value (ascii ['G', 'L', 'F', '-', 'K', 'A', 'T'] ++ argBytes r 0 4)) = argBytes r 4 4) :
    secVerify r s = secOk r [] (putShadow r.slot (some { x with verified := true }) s) := by
  simp only [secVerify, hb, hx]
  exact if_pos ht

/-- COMMIT of a verified shadow, outside restricted boot, puts it into service (R513). -/
theorem secCommit_serves {x : Shadow} (hb : slotBarred s r.slot r.ini false = none) (hl : bit (keySlotOf s r.slot).attr 7 = false)
    (hx : shadowNamed s r.slot (argOf r 0) = some x) (hv : x.verified = true) (hr : restricted s = false) :
    secCommit r s = onSec (fun c => { c with run := c.run.map fun y => { y with heals := false } })
      (secOk r [] (putShadow r.slot none (slotCommit r.slot x.value x.attr s))) := by
  simp only [secCommit, hb, hl, hx, hv, hr]
  rfl

/-- ERASE of a slot that is not LOCKED empties it (R513). -/
theorem secErase_empties (hb : slotBarred s r.slot r.ini true = none) (hl : bit (keySlotOf s r.slot).attr 7 = false) :
    secErase r s = secOk r [] (slotCommit r.slot (List.replicate 32 0) 0 s) := by
  simp only [secErase, hb]
  exact if_neg (by rw [hl]; decide)

/-! ### Uses of keys -/

/-- DERIVE of a key without BIND_MEAS into a key register of CRYP (R516). -/
theorem secDerive_loads (hs : slotRefuses s r.slot r.ini 4 0 = none) (hin : secInput r 1 256 = true)
    (hm : bit (keySlotOf s r.slot).attr 5 = false) (hf : r.flags = 0) (h4 : 4 ≤ r.slot2) (h7 : r.slot2 ≤ 7) :
    secDerive r s = secOk r [] (onCryp (fun c => { c with
      keys := spPut (fun _ => none) r.slot2 (some (takePad 32 (Config.hmacSha256 (keySlotOf s r.slot).value (memRead s r.ptr r.len)), true)) c.keys }) s) := by
  simp only [secDerive, hs, hin, hm, hf]
  rw [if_neg (by decide), if_pos ⟨h4, h7⟩, if_neg (by decide), List.append_nil]
  rfl

theorem secMac_answers (hs : slotRefuses s r.slot r.ini 2 1 = none) (hin : secInput r 0 65536 = true) :
    secMac r s = secOk r (wordsOf (takePad 32 (Config.hmacSha256 (keySlotOf s r.slot).value (memRead s r.ptr r.len)))) s := by
  simp only [secMac, hs, hin]
  rfl

theorem secSign_answers (hs : slotRefuses s r.slot r.ini 3 2 = none) :
    secSign r s = secDrew (secOk r (wordsOf (takePad 64 (Config.ecdsaSign (keySlotOf s r.slot).value (argBytes r 0 8) (freeB s 32)))) s) := by
  simp only [secSign, hs]

theorem secWrap_answers (hs : slotRefuses s r.slot r.ini 6 0 = none) (hs2 : slotRefuses s r.slot2 r.ini 0 1 = none) :
    secWrap r s = secOk r (wordsOf (takePad 40 (Config.keyWrap (keySlotOf s r.slot2).value (keySlotOf s r.slot).value))) s := by
  simp only [secWrap, hs, hs2]

/-- EXTEND of MA4-MA7, or of MA0-MA3 by the security core before they are closed (R515). -/
theorem secExtend_extends (h : 4 ≤ r.slot % 8 ∨ (regB s .sec 0x040 31 = false ∧ r.ini = 8)) :
    secExtend r s = secOk r [] (onSec (fun c => { c with
      ma := spPut (fun _ => []) (r.slot % 8) (takePad 48 (Config.sha384 (maOf s (r.slot % 8) ++ argBytes r 0 12))) c.ma }) s) := by
  unfold secExtend
  dsimp only
  rw [if_neg, if_neg]
  all_goals
    rcases h with h | ⟨hb, hi⟩
    · simp [Nat.not_lt.mpr h]
    · simp [hb, hi]

theorem secAttest_answers (hs : slotRefuses s r.slot r.ini 2 1 = none) :
    secAttest r s = secOk r (wordsOf (takePad 32 (Config.hmacSha256 (keySlotOf s r.slot).value (attestMessage r s)))) s := by
  simp only [secAttest, hs]

/-- EXEC of a TOT_CLR token that is in memory, for this module, fresh, and signed under a slot that admits it (R518). -/
theorem secExec_clears {t : List Byte} (ht : memRead s r.ptr 128 = t) (hin : inRam r.ptr 128 = true)
    (hmagic : t.take 4 = [0x47, 0x53, 0x49, 0x47]) (hcmd : t.getD 4 0 = 1)
    (hserial : leNat ((t.drop 8).take 8) = regN s .ident 0x04C * 2 ^ 32 + regN s .ident 0x048) (hnonce : s.sec.nonce = some ((t.drop 16).take 32))
    (hslot : slotBarred s ((t.getD 5 0).toNat % 64) r.ini false = none)
    (hsig : tokenSigned t (keySlotOf s ((t.getD 5 0).toNat % 64)) = some true) :
    secExec r s = secOk r [] (totClr (word (leNat ((t.drop 48).take 4)) &&& 0xFFFFFF) (onSec (fun c => { c with nonce := none }) s)) := by
  subst ht
  have hone : ((memRead s r.ptr 128).getD 4 0).toNat = 1 := by rw [hcmd]; rfl
  unfold secExec
  dsimp only
  rw [if_neg (by rw [hin, hmagic, hone]; decide), if_neg (by simp [hserial, hnonce]), hslot, hsig]
  dsimp only
  rw [if_pos hone]

end

/-- The mailbox port's own registers do not bear on a slot. -/
theorem keySlotOf_mbTaken (s : State) (ini : Ini) (n : Nat) : keySlotOf (mbTaken s ini) n = keySlotOf s n := by
  obtain ⟨-, hkeys, -⟩ := mbTaken_facts s ini
  rw [keySlotOf, hkeys]
  rfl

/-- An undefined OP fails as BAD_OP (R520). -/
theorem exec_badOp {s : State} {ini : Ini} {op : Nat} (hop : op = 0 ∨ 13 < op) (h : mbOpen s ini op = true) :
    exec (.badOp ini) s = .next (settle s (mbServed (mbReq s ini) (mbTaken s ini) (secFail (mbReq s ini) 0x10C (mbTaken s ini)))) := by
  have hcmd : fld (regI s .sec 0x080 ini.id) 31 24 = op := by
    simp only [mbOpen, Bool.and_eq_true, beq_iff_eq] at h
    exact h.1.1.1.1
  subst hcmd
  exact (if_pos hop).trans (mb_run _ ini s h _ fun e => served_bad _ _ (by rw [e]; exact hop))

/-- Settles O34, request by request (`mb_run`); its effect is made at the start of its service (DESIGN CHOICE, log 97). -/
theorem securityRequestsComplete : Obligations.SecurityRequestsComplete := by
  intro s ini r s1 k ends
  have hk : k = keySlotOf s1 r.slot := (keySlotOf_mbTaken s ini r.slot).symm
  have hk2 : keySlotOf s r.slot2 = keySlotOf s1 r.slot2 := (keySlotOf_mbTaken s ini r.slot2).symm
  rw [hk2]
  clear_value k
  subst hk
  refine ⟨fun h hr ho => ?info, fun h hl => ⟨fun hf => ?draw, fun hf hi => ?given⟩, fun x h hb hx ht => ?verify,
    fun x h hb hl hx hv hr => ?commit, fun h hb hl => ?erase, fun h hs hin hm hf h4 h7 => ?derive, fun h hs hin => ?mac, fun h hs => ?sign,
    fun h hs hs2 => ?wrap, fun h hma => ?extend, fun h hs => ?attest, fun h => ?nonce,
    fun h hin hmagic hcmd hserial hnonce hslot hsig => ?token, fun op hop h => exec_badOp hop h⟩
  case info => exact mb_run _ ini s h _ fun e => served_1 _ _ _ e (secInfo_answers hr ho)
  case draw => exact mb_run _ ini s h _ fun e => served_2 _ _ _ e (secLoad_draws hl hf)
  case given => exact mb_run _ ini s h _ fun e => served_2 _ _ _ e (secLoad_given hl hf hi)
  case verify => exact mb_run _ ini s h _ fun e => served_3 _ _ _ e (secVerify_marks hb hx ht)
  case commit => exact mb_run _ ini s h _ fun e => served_4 _ _ _ e (secCommit_serves hb hl hx hv hr)
  case erase => exact mb_run _ ini s h _ fun e => served_5 _ _ _ e (secErase_empties hb hl)
  case derive => exact mb_run _ ini s h _ fun e => served_6 _ _ _ e (secDerive_loads hs hin hm hf h4 h7)
  case mac => exact mb_run _ ini s h _ fun e => served_7 _ _ _ e (secMac_answers hs hin)
  case sign => exact mb_run _ ini s h _ fun e => served_8 _ _ _ e (secSign_answers hs)
  case wrap => exact mb_run _ ini s h _ fun e => served_9 _ _ _ e (secWrap_answers hs hs2)
  case extend => exact mb_run _ ini s h _ fun e => served_10 _ _ _ e (secExtend_extends hma)
  case attest => exact mb_run _ ini s h _ fun e => served_11 _ _ _ e (secAttest_answers hs)
  case nonce => exact mb_run _ ini s h _ fun e => served_12 _ _ _ e rfl
  case token => exact mb_run _ ini s h _ fun e => served_13 _ _ _ e (secExec_clears rfl hin hmagic hcmd hserial hnonce hslot hsig)

end Sys2Proof.Machine
end

section
/-! SUPPORT. Node updates: what each command and step of a campaign does where it is admitted (R394-R410). -/
namespace Sys2Proof.Machine

section
variable {s : State}

/-! ### START, PAUSE, RESUME and ABORT -/

/-- START in a resting state begins the check of the image (R394). -/
theorem nuStart_begins (hst : nuState s = 0 ∨ nuState s = 7 ∨ nuState s = 9) (hc : inControl s = true) (hr : nuRangeOk s = true) :
    nuStart s = (let camp := if nuCamp s = 255 then 1 else nuCamp s + 1
      let s1 := setRegF .nupd 0x044 19 16 0 (setRegB .nupd 0x044 0 false (setRegF .nupd 0x044 31 24 camp s))
      nuListed (nuGo 1 { s1 with nupd := { digest := nuDigest s1, rets := s1.nupd.rets } })) := by
  unfold nuStart
  rw [if_neg, if_neg (by rw [hr]; decide)]
  rcases hst with h | h | h <;> simp [h, hc]

/-- ACTIVATE in READY, far enough ahead, arms (R404). -/
theorem nuActivate_arms (hst : nuState s = 4) (ha : ((regF s .nupd 0x060 31 16 + 1) * 1000 : Nat) ≤ actDiff (regN s .nupd 0x058) (nowMs s)) :
    nuActivate s = nuGo 5 s := by
  unfold nuActivate
  rw [if_neg (by rw [hst]; decide), if_neg (Int.not_lt.mpr ha)]

/-- ABORT while the image is being checked (R406). -/
theorem nuAbort_verify (hst : nuState s = 1) : nuAbort s = raiseIrq .nupd 3 (nuGo 9 s) := by
  unfold nuAbort
  dsimp only
  rw [if_neg (by rw [hst]; decide), if_pos hst]

/-- ABORT of a campaign that runs (R406). -/
theorem nuAbort_runs (h2 : 2 ≤ nuState s) (h6 : nuState s ≤ 6) :
    nuAbort s = (let s0 := nuUnoffered s.nupd.offers { s with nupd := { s.nupd with offers := [], queue := [], asks := [] } }
      let ts := s0.nupd.targets
      let s1 := { s0 with nupd := { s0.nupd with revs := s0.nupd.revs ++ (ts.filter (nuPendingAct s0)).map fun t => (t.idx, 0) } }
      let s2 := forEach (nuCmd 3 0) (ts.filter fun t => nuEligible s1 t.idx) (nuGo 9 s1)
      raiseIrq .nupd 3 (forEach (fun t u => if nuPendingAct s0 t then u else nuFail t.idx 8 u) ts s2)) := by
  unfold nuAbort
  dsimp only
  rw [if_neg (by omega), if_neg (by omega)]

theorem nuPause_keeps (h1 : 1 ≤ nuState s) (h6 : nuState s ≤ 6) :
    nuPause s = nuGo 8 { s with nupd := { s.nupd with resumeTo := nuState s } } := if_pos ⟨h1, h6⟩

/-- RESUME of a PAUSED campaign whose image is as it was (R409). -/
theorem nuResume_goesOn (hst : nuState s = 8) (hd : nuDigest s = s.nupd.digest) :
    nuResume s = if s.nupd.resumeTo = 6 ∨ (s.nupd.resumeTo = 5 ∧ isDue (regN s .nupd 0x058) (nowMs s)) then nuCheckStart s
      else nuAgain s.nupd.resumeTo (nuGo s.nupd.resumeTo s) := by
  unfold nuResume
  rw [if_neg (by rw [hst]; decide), if_neg (by rw [hd]; simp)]

/-! ### The campaign's own steps -/

/-- A good image opens the campaign (R394, R395). -/
theorem digestVerified_opens (hst : nuState s = 1) (hw : working s .nupd = true) (hp : ptReady s = true) (hi : nuImageOk s = true) :
    digestVerified s = (let s1 := nuListed s
      let ts := s1.nupd.targets.map fun t => if t.pstate = 0 then { t with pstate := 1 } else t
      let s2 := { s1 with nupd := { s1.nupd with digest := nuDigest s1, targets := ts } }
      nuAdvance (nuOpenAll (nuPutAll (nuGo 2 s2)))) := by
  unfold digestVerified
  rw [if_neg (by rw [hst, hw, hp]; decide), if_neg (by rw [hi]; decide)]

/-- A round whose passes are over is judged (R403). -/
theorem nuRoundEnd_judges (hst : nuState s = 3) (hw : working s .nupd = true) (hp : ptReady s = true) (ho : nuPassesOver s = true) :
    nuRoundEnd s = (let s1 := forEach nuJudge s.nupd.targets s
      if s1.nupd.targets.any fun t => t.pstate == 2 && !nuNoRoom s1 t then nuRound (regF s1 .nupd 0x044 19 16 + 1) s1
      else raiseIrq .nupd 1 (nuGo 4 (forEach (fun t u => if nuNoRoom u t then nuFail t.idx 6 u else u) s1.nupd.targets s1))) := by
  unfold nuRoundEnd
  rw [if_neg (by rw [hst, hw, hp, ho]; decide)]

/-- From the lead on, ACTIVATE goes to the COMPLETE targets not asked yet (R404). -/
theorem nuArm_asks (hst : nuState s = 5) (hw : working s .nupd = true) (hp : ptReady s = true)
    (ha : actDiff (regN s .nupd 0x058) (nowMs s) ≤ (regF s .nupd 0x060 31 16 * 1000 : Nat)) :
    nuArm s = forEach (fun t u => if t.pstate = 3 ∧ t.asked = 0
      then nuCmd 2 (regN s .nupd 0x058) t (nuPut (nuOnAll u (fun n => { n with act := 1 }) { t with asked := 1 }) u) else u) s.nupd.targets s := by
  unfold nuArm
  dsimp only
  rw [if_neg (by rw [hst, hw, hp, decide_eq_false (Int.not_lt.mpr ha)]; decide)]

/-- CHECK asks every armed target, and ends in DONE once none is open (R405). -/
theorem nuCheck_asks (hst : nuState s = 6) (hw : working s .nupd = true) (hp : ptReady s = true) :
    nuCheck s = (let s1 := forEach nuAsk s.nupd.targets s
      if nuState s1 = 6 ∧ s1.nupd.targets.all (fun t => !nuOpen t) = true then raiseIrq .nupd 2 (nuGo 7 s1) else s1) := by
  have hstart : ¬ (nuState s = 5 ∧ isDue (regN s .nupd 0x058) (nowMs s) = true) := by rw [hst]; simp
  unfold nuCheck
  dsimp only
  rw [if_neg (by rw [hw, hp]; decide), if_neg hstart]
  simp only [Bool.and_eq_true, beq_iff_eq]

end

/-- Settles O28, command by command.  PAUSE is admitted in VERIFY too, and the targets are listed at START (DESIGN CHOICE, log 184). -/
theorem nodeUpdateCommandsComplete : Obligations.NodeUpdateCommandsComplete := by
  intro s ini
  refine ⟨fun h => ⟨fun hst hc hr => ?start, fun hst ha => ?activate, fun hst => ?abortVerify, fun h2 h6 => ?abort, fun h1 h6 => ?pause,
    fun hst hd => ?resume⟩, fun hst hw hp hi => evNext (digestVerified_opens hst hw hp hi), fun hst hw hp ho => evNext (nuRoundEnd_judges hst hw hp ho),
    fun hst hw hp ha => evNext (nuArm_asks hst hw hp ha), fun hst hw hp => evNext (nuCheck_asks hst hw hp)⟩
  case start => exact evNext ((nuCmdW s ini _ _ h fun _ => rfl).trans (nuStart_begins (s := answer .ok s) hst hc hr))
  case activate => exact evNext ((nuCmdW s ini _ _ h fun _ => rfl).trans (nuActivate_arms (s := answer .ok s) hst ha))
  case abortVerify => exact evNext ((nuCmdW s ini _ _ h fun _ => rfl).trans (nuAbort_verify (s := answer .ok s) hst))
  case abort => exact evNext ((nuCmdW s ini _ _ h fun _ => rfl).trans (nuAbort_runs (s := answer .ok s) h2 h6))
  case pause => exact evNext ((nuCmdW s ini _ _ h fun _ => rfl).trans (nuPause_keeps (s := answer .ok s) h1 h6))
  case resume => exact evNext ((nuCmdW s ini _ _ h fun _ => rfl).trans (nuResume_goesOn (s := answer .ok s) hst ((nuDigest_answer .ok s).trans hd.symm)))

end Sys2Proof.Machine
end

section
/-! SUPPORT. An Ethernet port: its PHY, its frames and PAUSE in both directions, and its wake (R413-R430). -/
namespace Sys2Proof.Machine

section
variable {s : State} {n : Nat}

/-! ### PHY and link -/

/-- A write that leaves PHY_RST clear and clears it, or sets RESTART_AN, negotiates (R413). -/
theorem phyWrite_negotiates {ini : Ini} {v : Word} (hr : bit v 31 = false) (h : regB s (ethPage n) 0x048 31 = true ∨ bit v 0 = true) :
    phyWrite ini n v s = ethNegotiate (fld v 10 8) n (plainWrite ini (ethPage n) 0x048 (setBit v 0 false) s) := by
  unfold phyWrite
  dsimp only
  rw [if_neg (by rw [hr]; decide), if_pos (by simpa using h)]

/-- A partner that resolves to full duplex at an advertised speed brings the link up (R413). -/
theorem ethLinkUp_up {k : EthPartner} (ho : phyOn s n = true) (hd : k.fullDuplex = true) (ha : (ethOf s n).adv.testBit k.speed = true) :
    ethLinkUp n k s = ethPump n (flushPause n (raiseIrq (ethPage n) 6 (setReg (ethPage n) 0x04C (linkStat s n k) s))) := by
  unfold ethLinkUp
  rw [if_neg (by rw [ho]; decide), if_neg (by rw [hd]; decide), if_neg (by rw [ha]; decide)]

/-- A link that is up is taken away (R423, R426, R442). -/
theorem ethUnlink_down (h : ethLink s n = true) :
    ethUnlink n s = ergLinkDown n (raiseIrq (ethPage n) 6 (setReg (ethPage n) 0x04C 0 (putEth n { ethOf s n with pause := none } s))) := if_pos h

/-! ### Receive -/

/-- A page that works is not asleep. -/
theorem asleep_of_working {p : Page} (h : working s p = true) : asleep s p = false := by
  simp only [working, Bool.and_eq_true, Bool.not_eq_true'] at h
  exact h.1.2

/-- A good frame that a rule takes goes to queue 0 (R415, R419, R424). -/
theorem ethRx_takes {frame : List Byte} {k : Nat} (hw : working s (ethPage n) = true) (hq : quiescing s (ethPage n) = false)
    (hl : ethLink s n = true) (hmin : 64 ≤ frame.length) (hmax : frame.length ≤ regF s (ethPage n) 0x058 13 0) (hfcs : fcsGood frame = true)
    (hp : pauseOf s n (frame.take (frame.length - 4)) = none) (hm : ethMatch s n ((frame.take (frame.length - 4)).take 6) = some k)
    (hv : vidPass s n (frame.take (frame.length - 4)) = true) (he : regB s (ethPage n) 0x040 20 = false) :
    ethRx n frame s = rxQueue0 n k 0 (frame.take (frame.length - 4)) s := by
  unfold ethRx
  dsimp only
  rw [if_neg (by rw [asleep_of_working hw]; decide), if_neg (by rw [hw, hl]; decide), if_neg (by rw [hq]; decide),
    if_neg (by simp [hmin, hmax]), if_neg (by rw [hfcs]; decide), hp]
  dsimp only
  rw [hm]
  dsimp only
  rw [if_neg (by rw [hv]; decide), if_neg (by rw [he]; decide)]

/-- A PAUSE holds the transmitter, from the end of the frame in transmission if there is one (R426). -/
theorem pauseRx_holds {q : Nat} (he : regB s (ethPage n) 0x060 0 = true) :
    pauseRx n q s = (let s1 := bumpReg (ethPage n) 0x0D4 s
      let start := if (ethOf s1 n).air.isSome then none else some s.tb.cycles
      raiseIrq (ethPage n) 5 (putEth n { ethOf s1 n with pause := if q = 0 then none else some (q, start) } s1)) := by
  unfold pauseRx
  rw [if_neg (by rw [he]; decide)]

/-- A frame that meets a wake condition of an asleep port wakes it, once (R430). -/
theorem ethWake_wakes {b : List Byte} (ha : asleep s (ethPage n) = true) (hen : regB s (ethPage n) 0x300 31 = true) (hw : wakeBits s n b ≠ 0)
    (hv : regB s (ethPage n) 0x304 31 = false) :
    ethWake n b true s = raiseIrq (ethPage n) 7 (setReg (ethPage n) 0x304 (word (2 ^ 31 + wakeBits s n b))
      (forEach (fun x t => setReg (ethPage n) (0x380 + 4 * x.2) x.1 t) (wordsOf (takePad 128 b)).zipIdx s)) := by
  unfold ethWake
  dsimp only
  rw [if_neg (by rw [ha, hen, decide_eq_false hw]; decide), if_neg (by rw [hv]; decide)]

/-! ### Transmit -/

section
variable (hw : working (ethPump n s) (ethPage n) = true) (hqd : quiesced (ethPump n s) (ethPage n) = false)
  (hq : quiescing (ethPump n s) (ethPage n) = false) (hl : ethLink (ethPump n s) n = true) (hp : ethPaused (ethPump n s) n = false)
  (ha : (ethOf (ethPump n s) n).air = none)
include hw hqd hq hl hp ha

/-- A frame of the Erg queue starts ahead of queue 0 (R422). -/
theorem txFrameStart_erg {f : List Byte} {r : List (List Byte)} (he : (ethOf (ethPump n s) n).erg = f :: r) :
    txFrameStart n s = putEth n { ethOf (ethPump n s) n with erg := r, air := some none } (send (.eth n f) (ethPump n s)) := by
  unfold txFrameStart
  dsimp only
  rw [if_neg (by rw [hw, hqd, hl, hp, ha]; decide), he]
  exact if_neg (by rw [hq]; decide)

/-- With the Erg queue empty the frame of queue 0 starts (R422). -/
theorem txFrameStart_queue0 {f : EthTx} (he : (ethOf (ethPump n s) n).erg = []) (hf : (ethOf (ethPump n s) n).fifo = some f) :
    txFrameStart n s = txStart n f (ethPump n s) := by
  unfold txFrameStart
  dsimp only
  rw [if_neg (by rw [hw, hqd, hl, hp, ha]; decide), he, hf]
  exact if_neg (by rw [hq]; decide)

end

/-- A pause received while a frame was in transmission starts at the frame's end (R426). -/
def pauseStarted (s : State) (n : Nat) : Option (Nat × Option Nat) :=
  match (ethOf s n).pause with | some (q, none) => some (q, some s.tb.cycles) | y => y

/-- The end of a frame is counted (R423). -/
def txCounted (n : Nat) (s : State) : State :=
  bumpReg (ethPage n) 0x0D8 (putEth n { ethOf s n with air := none, pause := pauseStarted s n } s)

/-- The end of a frame of the Erg queue (R423). -/
theorem txDone_erg (ha : (ethOf s n).air = some none) : txDone n s = ethPump n (flushPause n (txCounted n s)) := by
  unfold txDone
  dsimp only
  rw [ha]
  rfl

/-- The end of a frame of queue 0 without a stamp is written back (R421, R423). -/
theorem txDone_queue0 {f : EthTx} {sec ns : Nat} (ha : (ethOf s n).air = some (some (f, sec, ns))) (hf : f.stamp = false) :
    txDone n s = ethPump n (flushPause n (raiseIrq (ethPage n) 1 (txBack n f.descs 0 none (txCounted n s)))) := by
  unfold txDone
  dsimp only
  rw [ha]
  dsimp only
  rw [hf]
  rfl

end

/-- Settles O29, command by command. -/
theorem ethernetPortCommandsComplete : Obligations.EthernetPortCommandsComplete := by
  intro s ini n v
  refine ⟨fun h => ⟨fun hr => ?phyClear, fun hr => ?restart⟩, fun k ho hd ha => evNext (ethLinkUp_up ho hd ha), fun hl => evNext (ethUnlink_down hl),
    fun frame fifo k hw hq hl hmin hmax hfcs hp hm hv he => ?rx, fun q hw hl he => ?pause, evNext' rfl rfl rfl, fun fifo => rfl,
    fun h => admNext h rfl, fun h => admNext h rfl,
    fun hw hqd hq hl hp ha => ⟨fun f r he => evNext (txFrameStart_erg hw hqd hq hl hp ha he), fun f he hf => evNext (txFrameStart_queue0 hw hqd hq hl hp ha he hf)⟩,
    ⟨fun ha => evNext (txDone_erg ha), fun f sec ns ha hf => evNext (txDone_queue0 ha hf)⟩, fun frame ha hen hfcs hw hv => ?wake⟩
  case phyClear => exact admNext h (phyWrite_negotiates (s := answer .ok s) (bit_setBit_self _ _ _ (by decide)) (.inl hr))
  case restart =>
    exact admNext h (phyWrite_negotiates (s := answer .ok s) ((bit_setBit_ne _ _ _ _ (by decide) (by decide)).trans hr)
      (.inr (bit_setBit_self _ _ _ (by decide))))
  case rx => exact evNext (congrArg (pauseEval false n) (ethRx_takes hw hq hl hmin hmax hfcs hp hm hv he))
  case pause => exact evNext ((if_pos (by rw [hw, hl]; rfl)).trans (pauseRx_holds he))
  case wake =>
    refine evNext ?_
    rw [hfcs]
    exact ethWake_wakes ha hen hw hv

end Sys2Proof.Machine
end

section
/-! SUPPORT. The fabric: what ERG does with each message it hears, and with those it is asked to send (R437-R452). -/
namespace Sys2Proof.Machine

section
variable {s : State}

/-! ### Holding the address -/

theorem ergHeld_iff : ergHeld s = true ↔ ergRuns s = true ∧ ergMode s = 1 ∧ ergState s = 2 := by
  simp [ergHeld, and_assoc]

theorem ergAnswers_of_held (h : ergHeld s = true) : ergAnswers s = true := by
  obtain ⟨hr, hm, hst⟩ := ergHeld_iff.mp h
  simp [ergAnswers, hr, hm, hst]

/-! ### Messages received -/

/-- ERG takes a HELLO to it or to all on a port (R440). -/
theorem ergTake_hello {p mac ip : Nat} {m : ErgMessage} (hr : ergRuns s = true) (hd : m.dst = fabAddr s ∨ m.dst = 0) (hp : p < 2) :
    ergTake p mac ip (msgOf m 1) s = ergHello p mac ip (msgOf m 1) s := by
  have hdst : ((msgOf m 1).dst != fabAddr s && !((msgOf m 1).type == 1 && (msgOf m 1).dst == 0)) = false := by
    rcases hd with h | h <;> simp [msgOf, h]
  unfold ergTake
  rw [if_neg (by rw [hr]; decide), if_neg (by rw [hdst]; decide), if_pos (show (msgOf m 1).type = 1 from rfl), if_pos hp]

/-- A HELLO of a neighbour sets its path UP and its session (R442, R445). -/
theorem ergHello_neighbour {p mac ip e : Nat} {m : ErgMsg} (hl : m.payload.length = 12) (hs : m.src ≠ fabAddr s) (hn : nbrFor s m.src = some e) :
    ergHello p mac ip m s = helloSession m.src m.session (setPath e p true (nbrLearn e p mac ip s)) := by
  unfold ergHello
  dsimp only
  rw [if_neg (by rw [hl]; decide), if_neg hs, hn]

/-- ERG takes an ACK to it while it does not claim and is not in CONFLICT (R447). -/
theorem ergTake_ack {path mac ip : Nat} {m : ErgMessage} (hr : ergRuns s = true) (h1 : ergState s ≠ 1) (h3 : ergState s ≠ 3) (hd : m.dst = fabAddr s) :
    ergTake path mac ip (msgOf m 2) s = ergAck path (msgOf m 2) s := by
  unfold ergTake
  rw [if_neg (by rw [hr]; decide), if_neg (by simp [msgOf, hd]), if_neg (show ¬ (msgOf m 2).type = 1 by simp [msgOf]),
    if_pos (show (msgOf m 2).type = 2 from rfl), if_pos (by simp [ergHears, h1, h3])]

/-- ERG takes a message to it of one of the types for MIR and the host (R440). -/
theorem ergTake_message {path mac ip ty : Nat} {m : ErgMessage} (hr : ergRuns s = true) (hd : m.dst = fabAddr s)
    (ht : ty = 0x10 ∨ ty = 0x11 ∨ (0x40 ≤ ty ∧ ty ≤ 0x7F)) : ergTake path mac ip (msgOf m ty) s = ergMsgRx path (msgOf m ty) s := by
  have h1 : ¬ (msgOf m ty).type = 1 := fun (h : ty = 1) => by omega
  have h2 : ¬ (msgOf m ty).type = 2 := fun (h : ty = 2) => by omega
  unfold ergTake
  rw [if_neg (by rw [hr]; decide), if_neg (by simp [msgOf, hd]), if_neg h1, if_neg h2]
  exact if_pos ht

/-- A new message that can be delivered is acknowledged and delivered (R445, R446). -/
theorem ergMsgRx_new {path e : Nat} {m : ErgMsg} (hh : ergHeld s = true) (hq : quiescing s .erg = false) (hn : nbrFor s m.src = some e)
    (ha : m.ackReq = true) (hc : seqClass (peerOf s m.src) m = 0) (hf : needsSlot s m = true → hrxFull s = false) :
    ergMsgRx path m s = ergDeliver path m (ergAckTo path (nbrOf s e) m (putPeer m.src (seqAccept (peerOf s m.src) m) s)) := by
  have hroom : ¬ (needsSlot s m && hrxFull s) = true := by
    rw [Bool.and_eq_true]
    exact fun ⟨hn, hfull⟩ => absurd (hf hn) (by rw [hfull]; decide)
  unfold ergMsgRx
  rw [if_neg (by rw [hh, hq]; decide), hn]
  dsimp only
  rw [if_pos ha, hc]
  exact (if_neg hroom).trans (if_pos ha)

/-! ### Messages sent -/

/-- The message of ERG that carries a message of MIR's (R448). -/
def ergOfMir (m : MirMsg) : ErgMsg :=
  { ackReq := true, flood := none, type := if m.cancel then 0x11 else 0x10, src := 0, dst := m.dst, ttl := 0, session := 0, seq := 0,
    payload := m.words.flatMap (beBytes 4) }

/-- MIR's message to a neighbour is sent (R448). -/
theorem ergSend_sends {m : MirMsg} {r : List MirMsg} {e : Nat} (ho : s.mir.out = m :: r) (hh : ergHeld s = true) (hq : quiescing s .erg = false)
    (hn : nbrFor s m.dst = some e) :
    ergSend s = ergPump (ergSendTo e (ergOfMir m) (.mir (m.words.headD 0) m.again)
      (used (setReg .erg 0x09C (word (max (regN s .erg 0x09C) (freeN s % 2 ^ 32))) { s with mir := { s.mir with out := r } }))) := by
  unfold ergSend
  rw [ho]
  dsimp only
  rw [if_neg (by rw [ergAnswers_of_held hh, hq]; decide), hn]
  rfl

/-- An unfinished message without its ACK is sent once more, or fails (R447). -/
theorem ergAckTmo_of_out {k : Nat} {o : ErgOut} (ho : s.erg.out[k]? = some o) :
    ergAckTmo k s = (let s1 := onErg (fun g => { g with out := g.out.eraseIdx k }) s
      if o.second then ergPump (ergFail o 2 s1) else ergPump (ergAttempt { o with second := true } s1)) := by
  unfold ergAckTmo
  rw [ho]

/-! ### Radio -/

/-- The only segment of a message completes it, whatever was there before (R450). -/
theorem single_segment_completes (old : List (Nat × List Byte)) (rest : List Byte) :
    (List.range 1).map (fun i => List.find? (fun x : Nat × List Byte => x.1 == i) (old.filter (fun x => x.1 != 0) ++ [(0, rest)]))
      = [some (0, rest)] := by
  have hnone : (old.filter fun x => x.1 != 0).find? (fun x => x.1 == 0) = none := by
    simp [List.find?_eq_none]
  simp only [List.range_one, List.map_cons, List.map_nil, List.find?_append, hnone]
  rfl

/-- A frame with a new counter whose payload is a whole message hands that message to ERG (R450). -/
theorem ergRf_whole {pan fc dsn : Nat} {rest : List Byte} (hr : crvRuns s = true) (hfc : (spGet (fun _ => (0, 0, 0)) s.crv.ergFc pan).1 < fc) :
    ergRf pan fc dsn true (0 :: rest) s = ergReceive 2 0 0 rest (onCrv (fun c => { c with ergRx := spPut (fun _ => []) pan [] c.ergRx })
      (rfAck 0 (onCrv (fun c => { c with ergFc := spPut (fun _ => (0, 0, 0)) pan (fc % 2 ^ 32, dsn % 256, nowMs s) c.ergFc })
        (bumpReg (rfPage s) 0x074 s)))) := by
  have hseg : beNat ((0 :: rest : List Byte).take 1) = 0 := rfl
  unfold ergRf
  dsimp only
  rw [if_neg (by rw [hr]; decide), if_neg (by decide), if_pos hfc, hseg]
  simp only [Nat.zero_div, Nat.zero_mod, Nat.zero_add, List.drop_succ_cons, List.drop_zero, single_segment_completes]
  simp

end

/-- Settles O30, command by command.  The local block is read at NBR_RELOAD (DESIGN CHOICE, log 25), and HRX_TAIL clears HRX_FULL
(DESIGN CHOICE, log 89). -/
theorem fabricCommandsComplete : Obligations.FabricCommandsComplete := by
  intro s ini v
  refine ⟨fun h => ⟨admNext h (ergModeW ini 0 s (by decide)), admNext h (ergModeW ini 1 s (by decide)), admNext h (ergModeW ini 2 s (by decide))⟩,
    fun hr hm => ⟨fun hst => ?claimHello, fun hst hf => ?claimEnd, fun hst => ?helloInt, fun hst => ?roadInt⟩, fun e p hr => evNext (if_pos hr),
    fun p mac ip e m hr hd hl hs hn => ?hello, fun path m hr h1 h3 hd => evNext (ergTake_ack hr h1 h3 hd),
    fun path ty e m hh hq hd ht hn ha hc hf => ?message, fun m r e ho hh hq hn => evNext (ergSend_sends ho hh hq hn),
    fun h => admNext h rfl, fun h => admNext h rfl, fun k o hrun ho => evNext ((if_pos hrun).trans (ergAckTmo_of_out ho)),
    fun h => ?reload, fun pan fc dsn seg rest hr hfc hseg => ?radio, fun pan => evNext' rfl rfl rfl, evNext' rfl rfl rfl⟩
  case claimHello => exact evNext (if_pos (by rw [hr, hm, hst]; rfl))
  case claimEnd => exact evNext (if_pos (by simp [hr, hm, hst, hf]))
  case helloInt => exact evNext (if_pos (by rcases hst with h | h <;> rw [hr, hm, h] <;> rfl))
  case roadInt => exact evNext (if_pos (ergHeld_iff.mpr ⟨hr, hm, hst⟩))
  case hello => exact evNext ((ergTake_hello hr hd p.isLt).trans (ergHello_neighbour hl hs hn))
  case message => exact evNext ((ergTake_message (ergHeld_iff.mp hh).1 hd ht).trans (ergMsgRx_new hh hq hn ha hc hf))
  case reload =>
    have hlocal : memRead (answer .ok s) (regN s .erg 0x058 + 16384) 32 = memRead s (regN s .erg 0x058 + 16384) 32 := memRead_of_mem _ _ rfl _ _
    exact admNext h (by unfold nbrReload; rw [← hlocal]; rfl)
  case radio =>
    subst hseg
    exact evNext (ergRf_whole hr hfc)

end Sys2Proof.Machine
end

section
/-! SUPPORT. The twin link controller: arbitration, health, presence and pairing (R462-R468). -/
namespace Sys2Proof.Machine

section
variable {s : State}

/-! ### Arbitration -/

/-- A falling edge on the peer's line, seen by a unit not in control (R463). -/
theorem arbEdgePeer_watching (ho : twinOn s = true) (hc : twinCtrl s = false) :
    arbEdgePeer s = setRegB .twin 0x044 13 false (setRegB .twin 0x044 12 true s) := by
  unfold arbEdgePeer
  dsimp only
  rw [if_neg (by rw [ho]; decide), if_pos (by rw [hc]; rfl)]

/-- Two units in control: the peer's pulse is an error, and role B yields (R463). -/
theorem arbEdgePeer_contested (ho : twinOn s = true) (hc : twinCtrl s = true) (hi : arbIgnored s = false) :
    arbEdgePeer s = (let s2 := raiseIrq .twin 7 (recErr .twin 0x102 (setRegB .twin 0x044 13 false (setRegB .twin 0x044 12 true s)))
      if roleB s then twinYield 1 s2 else s2) := by
  unfold arbEdgePeer
  dsimp only
  rw [if_neg (by rw [ho]; decide), if_neg (by rw [hc, hi]; decide)]

/-- A foreign edge on the own line (R466): a unit in control yields, unless its serial is the lower. -/
theorem arbEdgeOwn_eq (ho : twinOn s = true) :
    arbEdgeOwn s = (let s1 := recErr .twin 0x101 (onTwin (fun t => { t with ownEdge := some s.tb.cycles }) s)
      if !twinCtrl s || lowerSerial s then s1 else twinYield 1 (onTwin (fun t => { t with clashWait := s.twin.ident.isNone }) s1)) := by
  unfold arbEdgeOwn
  rw [if_neg (by rw [ho]; decide)]

/-- The peer's line has fallen silent, and is not held low. -/
def peerSilent (s : State) : State := setRegB .twin 0x044 13 false (setRegB .twin 0x044 12 false s)

/-- A STANDBY that has lost its peer takes control (R473). -/
theorem arbSilent_standby (ho : twinOn s = true) (hst : twinState s = 3) (hl : s.twin.lost = true) (ht : mayTake (peerSilent s) = true) :
    arbSilent false false s = twinTake 1 (nowMs s) (peerSilent s) := by
  have hno : ¬ (!s.twin.lost) = true := by rw [hl]; decide
  unfold arbSilent
  rw [if_neg (by rw [ho]; decide)]
  exact (if_pos hst).trans ((if_neg hno).trans (if_pos ht))

/-- Outside STANDBY and SYNCING, silence for the time that R462 asks lets the unit take control. -/
theorem arbSilent_apart {full : Bool} (ho : twinOn s = true) (h3 : twinState s ≠ 3) (h2 : twinState s ≠ 2) :
    arbSilent false full s = if full && mayTake (peerSilent s) then twinTake 1 (nowMs s) (peerSilent s) else peerSilent s := by
  unfold arbSilent
  rw [if_neg (by rw [ho]; decide)]
  exact (if_neg h3).trans (if_neg (by simp [h2]))

/-! ### Health -/

/-- The health bit does not bear on control. -/
theorem twinCtrl_health (b : Bool) : twinCtrl (setRegB .twin 0x044 8 b s) = twinCtrl s := by
  unfold twinCtrl twinEn
  rw [regB_setRegB_off .twin (by decide), regB_setRegB_ne .twin 0x044 (by decide) (by decide)]

/-- A unit not in control has nothing to yield. -/
theorem twinYield_watching {next : Nat} (h : twinCtrl s = false) : twinYield next s = s := if_pos (by rw [h]; rfl)

/-- Stale health of a unit not in control (R464). -/
theorem exec_healthStale_watching (h : twinCtrl s = false) : exec .healthStale s = .next (setRegB .twin 0x044 8 false s) :=
  evNext' (twinYield_watching ((twinCtrl_health false).trans h)) (setRegB_pending ..) (setRegB_tb ..)

/-! ### Pairing -/

/-- The peer of a unit that takes part goes away (R461, R478). -/
theorem presChange_gone (he : twinEn s = true) :
    presChange false s = setTwinState 0 (setRegF .twin 0x044 10 9 0 (onTwin (fun t =>
      { t with ident := none, agreed := false, clash := false, peerCtrl := false, syncing := false, peerReady := false, out := [], left := false, switchT := none })
      (setRegB .twin 0x044 11 false s))) := if_neg (by rw [he]; decide)

theorem identFits_iff {p : TwinIdent} :
    identFits p s = true ↔ p.order = regF s .ident 0x044 7 0 ∧ p.fabAddr = fabAddr s ∧ p.sameVersion = true ∧ p.roleB ≠ roleB s := by
  simp [identFits, and_assoc]

/-- A peer that fits is paired with (R465). -/
theorem identityExchange_pairs {p : TwinIdent} (ho : twinOn s = true) (hp : twinPres s = true) (h0 : laneUp s 0 = true) (h1 : laneUp s 1 = true)
    (hl : s.twin.left = false) (hf : identFits p s = true) (hr : p.roleB = !roleB s) :
    identityExchange p s = pairGoes (setTwinState 1 (onTwin (fun t =>
      { t with ident := some p, agreed := true, clash := false, peerCtrl := p.ctrl, lost := false, seqRx := [] })
      (setReg .twin 0x064 (word (p.serial / 2 ^ 32)) (setReg .twin 0x060 (word (p.serial % 2 ^ 32)) s)))) := by
  have hclash : (p.roleB == roleB s) = false := by rw [hr]; cases roleB s <;> rfl
  unfold identityExchange
  dsimp only
  rw [if_neg (by rw [ho, hp, h0, h1, hl]; decide), if_pos hf, hclash, hf]

/-- The receiver whose copy is whole enters STANDBY (R468). -/
theorem twinSynced_receiver (ho : twinOn s = true) (hw : ofsWithin s 100000 = true) (hst : twinState s = 2) (hp : regF s .twin 0x07C 7 0 = 100) :
    twinSynced s = raiseIrq .twin 0 (setTwinState 3 s) := by
  unfold twinSynced
  rw [if_neg (by rw [ho, hw]; decide), if_pos (by rw [hst, hp]; rfl)]

/-- The sender without a late journal entry enters ACTIVE (R468). -/
theorem twinSynced_sender (ho : twinOn s = true) (hw : ofsWithin s 100000 = true) (hst : twinState s = 5) (hs : s.twin.syncing = true)
    (hj : jrnLate s = false) :
    twinSynced s = raiseIrq .twin 0 (setTwinState 4 (setReg .twin 0x07C 100 (onTwin (fun t => { t with peerReady := true, syncing := false }) s))) := by
  unfold twinSynced
  rw [if_neg (by rw [ho, hw]; decide), if_neg (by rw [hst]; simp), if_pos (by rw [hst, hs, hj]; rfl)]

end

/-- Settles O31, command by command.  The sender sets SYNC_PROG to 100 itself (DESIGN CHOICE, log 93). -/
theorem twinArbitrationCommandsComplete : Obligations.TwinArbitrationCommandsComplete := by
  intro s ini v
  refine ⟨fun ho hc hh => ?pulse, fun ho => ⟨fun hc => ?peerWatching, fun hc hi => evNext (arbEdgePeer_contested ho hc hi)⟩,
    fun ho => ⟨fun h => ?ownKept, fun hc hl => ?ownYields⟩, evNext' rfl rfl rfl,
    fun ho => ⟨fun hst hl ht => evNext (arbSilent_standby ho hst hl ht), fun h3 h2 ht => ?silentFull, fun h3 h2 => ?silent⟩, fun h hk => ?health,
    fun _ => evNext rfl, fun hc => ⟨_, exec_healthStale_watching hc, regB_setRegB_self _ _ _ _ _ (by decide), setRegB_mem ..⟩, ?present,
    fun he => evNext (presChange_gone he), fun p ho hp h0 h1 hl hord hfab hver hrole => ?identity,
    fun ho hw => ⟨fun hst hp => evNext (twinSynced_receiver ho hw hst hp), fun hst hs hj => evNext (twinSynced_sender ho hw hst hs hj)⟩,
    fun l ho hp => ?lane⟩
  case pulse => exact evNext' (if_pos (by rw [ho, hc, hh]; rfl)) rfl rfl
  case peerWatching => exact evNext' (arbEdgePeer_watching ho hc) (by simp) (by simp)
  case ownKept =>
    have hkeep : (!twinCtrl s || lowerSerial s) = true := by rcases h with h | h <;> simp [h]
    exact evNext' ((arbEdgeOwn_eq ho).trans (if_pos hkeep)) (recErr_pending ..) (recErr_tb ..)
  case ownYields => exact evNext ((arbEdgeOwn_eq ho).trans (if_neg (by rw [hc, hl]; decide)))
  case silentFull => exact evNext ((arbSilent_apart ho h3 h2).trans (if_pos (by rw [Bool.true_and]; exact ht)))
  case silent => exact evNext' ((arbSilent_apart ho h3 h2).trans (if_neg (by simp))) (by simp) (by simp)
  case health => exact admNext' h (if_pos hk) (setRegB_pending ..) (setRegB_tb ..)
  case present => exact evNext' rfl (setRegB_pending ..) (setRegB_tb ..)
  case identity =>
    have hother : p.roleB ≠ roleB s := by rw [hrole]; cases roleB s <;> decide
    exact evNext (identityExchange_pairs ho hp h0 h1 hl (identFits_iff.mpr ⟨hord, hfab, hver, hother⟩) hrole)
  case lane => exact evNext' (if_pos (by rw [ho, hp]; rfl)) (setRegB_pending ..) (setRegB_tb ..)

end Sys2Proof.Machine
end

section
/-! SUPPORT. The twin link: its messages and lanes, the loss of the peer, and the switchover (R469-R478). -/
namespace Sys2Proof.Machine

section
variable {s : State}

/-! ### Messages and lanes -/

/-- An acknowledgement that arrives ends its message (R471). -/
theorem linkMessage_ack {lane seq q : Nat} (ho : twinOn s = true) (hl : laneUp s lane = true) (hi : s.twin.ident.isNone = false) :
    linkMessage lane seq (.ack q) s = ackRx q s := by
  unfold linkMessage
  rw [if_neg (by rw [ho, hl, hi]; decide)]

/-- A new message is acknowledged and applied (R471). -/
theorem linkMessage_new {lane seq : Nat} {item : LinkItem} (ho : twinOn s = true) (hl : laneUp s lane = true) (hi : s.twin.ident.isNone = false)
    (hack : ∀ q, item ≠ .ack q) (hnew : s.twin.seqRx.contains seq = false) :
    linkMessage lane seq item s = linkApply item (onTwin (fun t => { t with seqRx := (seq :: t.seqRx).take 64 })
      (send (.link lane (s.twin.seqTx + 1) (.ack seq)) (onTwin (fun t => { t with seqTx := (t.seqTx + 1) % 2 ^ 32 }) s))) := by
  unfold linkMessage
  rw [if_neg (by rw [ho, hl, hi]; decide)]
  split
  case h_1 q => exact absurd rfl (hack q)
  case h_2 => exact if_neg (by rw [hnew]; decide)

section
variable {q : Nat} {o : LinkOut} (ho : (s.twin.out.find? fun o => o.seq == q) = some o)
include ho

/-- A first missing acknowledgement brings the message on the other lane, where it is up (R471). -/
theorem linkAckTimeout_again (h2 : o.second = false) :
    linkAckTimeout q s = (let lane := if laneUp s 0 && laneUp s 1 then 1 - lane1st s else lane1st s
      send (.link lane q o.item) (bumpRegF .twin 0x074 15 0 (onTwin (fun t =>
        { t with out := t.out.map fun x => if x.seq = q then { x with second := true } else x }) s))) := by
  unfold linkAckTimeout
  rw [ho]
  exact if_neg (by rw [h2]; decide)

/-- A second one is lasting for the unit in control (R471). -/
theorem linkAckTimeout_lasting (h2 : o.second = true) (hc : twinCtrl s = true) : linkAckTimeout q s = linkFails s := by
  unfold linkAckTimeout
  rw [ho]
  exact (if_pos h2).trans (if_pos hc)

end

/-- A lane without messages is down; no switchover is due (R471). -/
theorem laneDown_down {l : Nat} (hl : laneUp s l = true) (ht : s.twin.switchT = none) :
    laneDown l s = raiseIrq .twin 2 (bumpRegF .twin 0x074 31 16 (setRegB .twin 0x044 (9 + l) false s)) := by
  have hnone : (raiseIrq .twin 2 (bumpRegF .twin 0x074 31 16 (setRegB .twin 0x044 (9 + l) false s))).twin.switchT.isSome = false := by
    simp [raiseIrq, bumpRegF, setRegF, setRegB, ht]
  unfold laneDown
  dsimp only
  rw [if_neg (by rw [hl]; decide), hnone, if_neg (by simp)]

/-! ### The loss of the peer -/

/-- What the unit takes note of when its peer is lost (R471). -/
def peerGone (s : State) : State :=
  raiseIrq .twin 6 (onTwin (fun t => { t with lost := true, peerCtrl := false, peerReady := false, syncing := false, switchT := none }) s)

/-- With no handing under way the unit forgets a switchover that was set. -/
theorem peerGone_eq (hh : s.twin.handing = false) :
    raiseIrq .twin 6 (onTwin (fun t => { t with lost := true, peerCtrl := false, peerReady := false, syncing := false, switchT := if t.handing then t.switchT else none }) s)
      = peerGone s := by
  simp only [peerGone, onTwin, hh, Bool.false_eq_true, if_false]

section
variable (ho : twinOn s = true) (hh : s.twin.handing = false)
include ho hh

/-- A STANDBY that still hears its peer pairs again (R473). -/
theorem peerLost_heard (hst : twinState s = 3) (ha : regB s .twin 0x044 12 = true) :
    peerLost s = recErr .twin 0x104 (setTwinState 1 (peerGone s)) := by
  unfold peerLost
  rw [if_neg (by rw [ho]; decide), peerGone_eq hh, hst]
  exact if_pos ha

/-- A STANDBY whose peer is silent takes control (R473). -/
theorem peerLost_silent (hst : twinState s = 3) (ha : regB s .twin 0x044 12 = false) (ht : mayTake (peerGone s) = true) :
    peerLost s = twinTake 1 (nowMs s) (peerGone s) := by
  unfold peerLost
  rw [if_neg (by rw [ho]; decide), peerGone_eq hh, hst]
  exact (if_neg (by rw [ha]; decide)).trans (if_pos ht)

/-- The unit in control goes on in DEGRADED (R473, R476). -/
theorem peerLost_active (hst : twinState s = 4) :
    peerLost s = (let s2 := setTwinState 5 (jrnFree (fun _ => true) (onTwin (fun t => { t with out := [] }) (peerGone s)))
      if s.twin.switchT.isSome then recErr .twin 0x103 s2 else s2) := by
  unfold peerLost
  rw [if_neg (by rw [ho]; decide), peerGone_eq hh, hst]
  exact if_neg (by rw [hh]; decide)

end

/-! ### Commands and switchover -/

theorem twCmdWrite_switch : twCmdWrite 0x54000001 s = switchAsk s := rfl

theorem twCmdWrite_resync : twCmdWrite 0x54000003 s =
    if inControl s then recErr .twin 0x106 s else pairGoes (setTwinState 1 (onTwin (fun t => { t with left := false }) s)) := rfl

/-- SWITCH in ACTIVE chooses T (R475). -/
theorem switchAsk_active (hst : twinState s = 4) (hc : twinCtrl s = true) (ht : s.twin.switchT = none) : switchAsk s = switchChoose s := by
  unfold switchAsk
  rw [if_pos (by rw [hst, hc]; rfl), if_neg (by rw [ht]; decide)]

/-- SWITCH in STANDBY asks the peer (R475). -/
theorem switchAsk_standby (hst : twinState s = 3) : switchAsk s = linkSend .switchReq s := by
  unfold switchAsk
  rw [if_neg (by rw [hst]; simp), if_pos hst]

section
variable {t : Nat} (ht : s.twin.switchT = some t) (ho : twinOn s = true) (hd : isDue t (nowMs s) = true) (hh : s.twin.handing = false)
include ht ho hd hh

/-- At T the unit in control begins to hand over (R476). -/
theorem switchoverT_hands (hc : twinCtrl s = true) :
    switchoverT s = handStep (onTwin (fun x => { x with handing := true, toRelease := twinLines s }) s) := by
  unfold switchoverT
  rw [ht]
  dsimp only
  rw [if_neg (by rw [ho, hd, hh]; decide), if_pos hc]

/-- At T the unit in STANDBY takes control (R476). -/
theorem switchoverT_takes (hc : twinCtrl s = false) (hst : twinState s = 3) :
    switchoverT s = twinTake 0 t (onTwin (fun x => { x with switchT := none, lastT := some s.tb.cycles, peerCtrl := false }) s) := by
  unfold switchoverT
  rw [ht]
  dsimp only
  rw [if_neg (by rw [ho, hd, hh]; decide), if_neg (by rw [hc]; decide), if_pos hst]

end
end

/-- Settles O32, command by command.  SWITCH in STANDBY sends a request, and DETACH is kept until RESYNC (DESIGN CHOICE, log 92). -/
theorem twinLinkCommandsComplete : Obligations.TwinLinkCommandsComplete := by
  intro s ini
  refine ⟨fun lane seq item ho hl hi => ⟨fun q hq => ?ack, fun hack hnew => evNext (linkMessage_new ho hl hi hack hnew)⟩,
    fun q o ho => ⟨fun h2 => ?again, fun h2 hc => evNext (linkAckTimeout_lasting ho h2 hc)⟩, fun ho hh hi => evNext (if_pos (by rw [ho, hh, hi]; rfl)),
    fun l hl ht => ?laneDown,
    fun ho hh => ⟨fun hst ha => evNext (peerLost_heard ho hh hst ha), fun hst ha ht => evNext (peerLost_silent ho hh hst ha ht),
      fun hst => evNext (peerLost_active ho hh hst)⟩,
    fun h => ⟨fun hst hc ht => admNext h (switchAsk_active (s := answer .ok s) hst hc ht),
      fun hst => admNext h (switchAsk_standby (s := answer .ok s) hst), admNext h rfl, fun hc => ?resync⟩,
    fun ho he hr hst hh => evNext (if_pos (by rw [ho, he, hr, hst, hh]; rfl)),
    fun t ht ho hd hh => ⟨fun hc => evNext (switchoverT_hands ht ho hd hh hc), fun hc hst => evNext (switchoverT_takes ht ho hd hh hc hst)⟩,
    fun n hn => evNext (if_pos hn)⟩
  case ack =>
    subst hq
    exact evNext (linkMessage_ack ho hl hi)
  case again => exact evNext' (linkAckTimeout_again ho h2) (by simp [onTwin]) (by simp [onTwin])
  case laneDown => exact evNext' (laneDown_down hl ht) (by simp) (by simp)
  case resync => exact admNext h (twCmdWrite_resync.trans (if_neg (show ¬ inControl s = true by rw [hc]; decide)))

end Sys2Proof.Machine
end

section
/-! SUPPORT. The Oasis domain: the write in flight, the alarms and `PWR_ON`, the samples and the backup POR (R484-R500). -/
namespace Sys2Proof.Machine

section
variable {s : State}

/-! ### The write in flight -/

/-- SET_CAL of a date that exists sets the RTC (R490). -/
theorem rtcSetCal_possible (h : calPossible (reg s .oasis 0x06C) (reg s .oasis 0x070) = true) :
    rtcSetCal s = (let date := reg s .oasis 0x06C
      let time := reg s .oasis 0x070
      setRegB .oasis 0x074 0 false (rtcSet ((dayNumber (fld date 23 16) (fld date 11 8) (fld date 4 0) * 86400 + fld time 20 16 * 3600
        + fld time 13 8 * 60 + fld time 5 0) * 2 ^ 15) s)) := if_pos h

section
variable {i : Ini} (hs : (s.stalled.find? fun y => y.addr / 0x1000 == 0x40150) = none)
include hs

/-- SET_BIN in flight takes effect: the RTC is set and `TIME_VALID` (R487). -/
theorem exec_syncBusyEnd_setBin (hf : s.oas.flight = some { ini := i, addr := 0x4015005C, val := some 0x52000001 }) :
    ∃ t, exec .syncBusyEnd s = .next t ∧ t.rtc = (regN s .oasis 0x054 * 2 ^ 32 + regN s .oasis 0x050) * 2 ^ 15 + regN s .oasis 0x058 ∧
      regB t .oasis 0x040 0 = true ∧ t.oas.flight = none ∧ t.mem = s.mem := by
  obtain ⟨hrtc, hvalid, hflight, hmem, hstalled⟩ := bin_facts ((regN s .oasis 0x054 * 2 ^ 32 + regN s .oasis 0x050) * 2 ^ 15 + regN s .oasis 0x058)
    (onOas (fun o => { o with flight := none }) s) _ rfl
  exact ⟨_, evNext (sync_cmd i _ s _ hf (oas_d _) ((congrArg (List.find? _) hstalled).trans hs)), hrtc, hvalid, hflight, hmem⟩

/-- SET_CAL in flight of a date that exists takes effect (R490). -/
theorem exec_syncBusyEnd_setCal (hf : s.oas.flight = some { ini := i, addr := 0x4015005C, val := some 0x52000002 })
    (hc : calPossible (reg s .oasis 0x06C) (reg s .oasis 0x070) = true) :
    ∃ t, exec .syncBusyEnd s = .next t ∧
      t.rtc = (dayNumber (fld (reg s .oasis 0x06C) 23 16) (fld (reg s .oasis 0x06C) 11 8) (fld (reg s .oasis 0x06C) 4 0) * 86400
        + fld (reg s .oasis 0x070) 20 16 * 3600 + fld (reg s .oasis 0x070) 13 8 * 60 + fld (reg s .oasis 0x070) 5 0) * 2 ^ 15 ∧
      regB t .oasis 0x074 0 = false ∧ t.oas.flight = none ∧ t.mem = s.mem := by
  obtain ⟨hrtc, hinvalid, hflight, hmem, hstalled⟩ := cal_facts
    ((dayNumber (fld (reg s .oasis 0x06C) 23 16) (fld (reg s .oasis 0x06C) 11 8) (fld (reg s .oasis 0x06C) 4 0) * 86400
      + fld (reg s .oasis 0x070) 20 16 * 3600 + fld (reg s .oasis 0x070) 13 8 * 60 + fld (reg s .oasis 0x070) 5 0) * 2 ^ 15)
    (onOas (fun o => { o with flight := none }) s) _ rfl
  exact ⟨_, evNext (sync_cmd i _ s _ hf ((oas_e _).trans (rtcSetCal_possible hc)) ((congrArg (List.find? _) hstalled).trans hs)),
    hrtc, hinvalid, hflight, hmem⟩

end

/-! ### Samples, checks and the rails -/

/-- PWR_ON releases where a rest is pending: a core POR from deep rest (R494). -/
theorem pwrOnRelease_pending (h : regB s .oasis 0x040 4 = true) :
    pwrOnRelease s = corePor (2 ^ 8) (setRegB .oasis 0x040 8 true (setRegB .oasis 0x040 4 false
      (onOas (fun o => { o with minHold := true, wakes := 0, woke := 0 }) { s with railsOn := false }))) := by
  unfold pwrOnRelease
  rw [if_neg (by rw [h]; decide)]

/-- An enabled mesh check latches on the second mismatch in a row, and answers (R498). -/
theorem exec_meshCheck (b : Bool) (h : regB s .oasis 0x100 8 = true) :
    exec (.meshCheck b) s = done s (let s1 := onOas (fun o => { o with meshPrev := b }) s
      if b && s.oas.meshPrev && !regB s .oasis 0x104 4 then tamperResponse (tamperLatch 4 s1) else s1) := by
  have hcheck : meshCheck b s = (b && s.oas.meshPrev && !regB s .oasis 0x104 4,
      if b && s.oas.meshPrev && !regB s .oasis 0x104 4 then tamperLatch 4 (onOas (fun o => { o with meshPrev := b }) s)
      else onOas (fun o => { o with meshPrev := b }) s) := if_neg (by rw [h]; decide)
  show execMeshCheck b s = _
  rw [execMeshCheck, hcheck]
  cases b && s.oas.meshPrev && !regB s .oasis 0x104 4 <;> rfl

/-- A backup POR leaves the domain as after reset, in an episode of its own source (R483, R541). -/
theorem backupPor_resets : (backupPor s).oas = {} ∧ (backupPor s).rtc = 0 ∧ (backupPor s).rst.backup = true ∧ (backupPor s).rst.active = true := by
  obtain ⟨hoas, hrtc, hactive⟩ := corePor_oas (2 ^ 15) { s with
    regs := s.regs.filter (fun x => !oasKey x.1), oas := {}, rtc := 0, railsOn := false
    stalled := s.stalled.filter fun y => y.addr / 0x1000 != 0x40150
    evr := { s.evr with opsec := 0, pcyc := 0, reseed := true } }
  exact ⟨hoas, hrtc, rfl, hactive⟩

end

/-- Settles O33, command by command. -/
theorem oasisCommandsComplete : Obligations.OasisCommandsComplete := by
  intro s ini v
  refine ⟨fun hf => ⟨fun h => ⟨oasW ini _ _ s h hf, oasW ini _ _ s h hf⟩, fun h => oasW ini _ _ s h hf, fun h => oasW ini _ _ s h hf,
      fun h => oasW ini _ _ s h hf⟩,
    fun i hs => ⟨exec_syncBusyEnd_setBin hs, exec_syncBusyEnd_setCal hs⟩, fun h => ?frac, fun k ha hi => ?alarm, fun he => evNext (if_pos he),
    fun hr => evTb (pwrOnRelease_pending hr), fun hm => ⟨fun hw => ?restOver, fun hw => ?restWoken⟩, fun driven high => evNext rfl,
    fun b he => exec_meshCheck b he, fun mv hr => evNext (if_neg (by rw [hr]; decide)), ⟨_, evTb rfl, backupPor_resets⟩,
    fun hb => evNext' (if_pos hb) rfl rfl⟩
  case frac =>
    obtain ⟨hmem, hresp, hlo, hhi, hdate, htime⟩ := oas_c0 s ini _ _ _ _ _ _ (oas_c s ini)
    have hrun : exec (.rtcFracRead ini) s = .next (settle s (rtcFracRead ini s)) := admrNext h rfl
    refine ⟨_, hrun, hresp, ?_, ?_, ?_, ?_, (settle_mem s (rtcFracRead ini s)).trans hmem⟩
    all_goals rw [regI_settle]
    · exact hlo
    · exact hhi
    · exact hdate
    · exact htime
  case alarm => exact evNext (if_pos (by simp [ha, hi]))
  case restOver => exact evNext' ((if_neg (by rw [hm]; decide)).trans (if_pos hw)) rfl rfl
  case restWoken => exact evNext' ((if_neg (by rw [hm]; decide)).trans (if_neg hw)) rfl rfl

end Sys2Proof.Machine
end

section
/-! SUPPORT. The end of a mailbox request, and CRYP's jobs from `CR_GO` to the read of their result (R513-R523). -/
namespace Sys2Proof.Machine

section
variable {s : State}

/-! ### The end of a mailbox request -/

/-- A request that stores nothing ends with its results (R521). -/
theorem mbDone_answers {x : SecRun} (hr : s.sec.run = some x) (he : x.err = 0) (h4 : x.req.op ≠ 4) (h5 : x.req.op ≠ 5) :
    mbDone .none s = secNext (secEnd x 0 s) := by
  have hstores : secStores x = false := by simp [secStores, h4, h5]
  unfold mbDone
  rw [hr]
  dsimp only
  rw [hstores, he]
  rfl

/-- A request that stores a slot writes both copies, at once or on its one retry (R513). -/
theorem mbDone_stores {x : SecRun} (hr : s.sec.run = some x) (he : x.err = 0) (hop : x.req.op = 4 ∨ x.req.op = 5) :
    mbDone .none s = secNext (secEnd x 0 (secHeals x (copyBoth x.req.slot s))) ∧
      mbDone .retried s = secNext (secEnd x 0 (secHeals x (copyBoth x.req.slot (noteTransient .sec s)))) := by
  have hstores : secStores x = true := by rcases hop with h | h <;> simp [secStores, he, h]
  unfold mbDone
  rw [hr]
  dsimp only
  rw [hstores]
  exact ⟨rfl, rfl⟩

/-! ### CRYP -/

/-- The key bytes of the job that `CR_CTRL` describes (R522). -/
def crypKeyBytes (s : State) : List Byte :=
  let c := reg s .cryp 0x040
  let key := (crypKey s (fld c 10 8)).getD ([], false)
  if fld c 3 0 ≤ 3 then takePad (if bit c 12 then 32 else 16) key.1 else if fld c 3 0 = 6 then key.1 else []

/-- The job that the registers describe (R522). -/
def crypJobOf (s : State) : CrypJob :=
  { alg := regF s .cryp 0x040 3 0, dec := bit (reg s .cryp 0x040) 4, key := crypKeyBytes s
    src := regN s .cryp 0x048, dst := regN s .cryp 0x04C, len := regN s .cryp 0x050, aad := regN s .cryp 0x054
    iv := (List.range 4).flatMap fun n => leBytes 4 (regN s .cryp (0x060 + 4 * n))
    tag := (List.range 4).flatMap fun n => leBytes 4 (regN s .cryp (0x070 + 4 * n)) }

/-- CRYP runs the job that the registers describe, its results zeroed. -/
def crypStarted (s : State) : State :=
  setReg .cryp 0x044 1 (forEach (fun n t => setReg .cryp (0x100 + 4 * n) 0 t) (List.range 16) (onCryp (fun x => { x with job := some (crypJobOf s) }) s))

/-- The key bytes as `CR_GO` takes them: none for an algorithm without a key. -/
theorem crypKeyBytes_eq : crypKeyBytes s =
    (let c := reg s .cryp 0x040
     let k := (crypKey s (fld c 10 8)).getD ([], false)
     if !(decide (fld c 3 0 ≤ 3) || fld c 3 0 == 6) then [] else if fld c 3 0 = 6 then k.1 else takePad (if bit c 12 then 32 else 16) k.1) := by
  unfold crypKeyBytes
  dsimp only
  generalize fld (reg s .cryp 0x040) 3 0 = alg
  by_cases h3 : alg ≤ 3
  · have h6 : alg ≠ 6 := by omega
    simp [h3, h6]
  · by_cases h6 : alg = 6 <;> simp [h3, h6]

section
variable (hn : s.cryp.job = none)
include hn

/-- `CR_GO` with an algorithm, and a key where it needs one, starts its job (R522). -/
theorem crypGo_starts (ha : regF s .cryp 0x040 3 0 ≤ 9)
    (hk : regF s .cryp 0x040 3 0 ≤ 3 ∨ regF s .cryp 0x040 3 0 = 6 → (crypKey s (regF s .cryp 0x040 10 8)).isSome = true) :
    crypGo s = crypStarted s := by
  have hkey : ¬ ((decide (fld (reg s .cryp 0x040) 3 0 ≤ 3) || fld (reg s .cryp 0x040) 3 0 == 6)
      && (crypKey s (fld (reg s .cryp 0x040) 10 8)).isNone) = true := by
    simp only [Bool.and_eq_true, Bool.or_eq_true, decide_eq_true_eq, beq_iff_eq, Option.isNone_iff_eq_none]
    exact fun ⟨hkeyed, hnone⟩ => absurd (hk hkeyed) (by rw [regF, hnone]; decide)
  unfold crypGo crypStarted crypJobOf
  rw [crypKeyBytes_eq]
  dsimp only
  rw [if_neg (by rw [crypBusy, hn]; decide), if_neg (show ¬ 9 < fld (reg s .cryp 0x040) 3 0 from Nat.not_lt.mpr ha), if_neg hkey]
  rfl

/-- `CR_GO` with an undefined algorithm fails (R522). -/
theorem crypGo_invalid (ha : 9 < regF s .cryp 0x040 3 0) : crypGo s = recErr .cryp 0x103 (setReg .cryp 0x044 4 s) := by
  unfold crypGo
  dsimp only
  rw [if_neg (by rw [crypBusy, hn]; decide)]
  exact if_pos ha

/-- The command of an algorithm starts its job (R522). -/
theorem crypOp_starts {ini : Ini} {k : Nat} (h : workOpen s ini .cryp 0x058 = true) (hk9 : k ≤ 9) (ha : regF s .cryp 0x040 3 0 = k)
    (hk : k ≤ 3 ∨ k = 6 → (crypKey s (regF s .cryp 0x040 10 8)).isSome = true) :
    crypOp (· == k) ini s = .next (settle s (crypStarted (answer .ok s))) := by
  subst ha
  exact cryp_run _ ini s _ h (beq_self_eq_true _) (crypGo_starts (s := answer .ok s) hn hk9 hk)

end

/-- A job whose buffers are in memory completes (R523). -/
theorem crypDone_completes {j : CrypJob} (hj : s.cryp.job = some j) (hr : running s .cryp = true) (hm : crypReach j = true) :
    crypDone s = crypEnd (crypWork j s).1 (crypWork j s).2 := by
  unfold crypDone
  rw [hj]
  dsimp only
  rw [if_neg (by rw [hr]; decide), if_neg (by rw [hm]; decide)]

end

/-- Settles O35, command by command.  A store that held on its retry counts as a transient fault (DESIGN CHOICE, log 114). -/
theorem engineCommandsComplete : Obligations.EngineCommandsComplete := by
  intro s ini v w
  refine ⟨fun x hr he => ⟨fun h4 h5 => evNext (mbDone_answers hr he h4 h5), fun hop => ?store⟩, evNext' rfl rfl rfl,
    fun h hd => admrNext' h (if_pos hd) rfl rfl,
    fun h hn => ⟨fun ha => ?invalid, fun hk => ⟨fun ha => crypOp_starts hn h (by decide) ha fun _ => hk, fun ha => crypOp_starts hn h (by decide) ha fun _ => hk,
        fun ha => crypOp_starts hn h (by decide) ha fun _ => hk, fun ha => crypOp_starts hn h (by decide) ha fun _ => hk,
        fun ha => crypOp_starts hn h (by decide) ha fun _ => hk⟩,
      fun ha => crypOp_starts hn h (by decide) ha (by simp), fun ha => crypOp_starts hn h (by decide) ha (by simp),
      fun ha => crypOp_starts hn h (by decide) ha (by simp), fun ha => crypOp_starts hn h (by decide) ha (by simp),
      fun ha => crypOp_starts hn h (by decide) ha (by simp)⟩,
    fun j hj hr hm => evNext (crypDone_completes hj hr hm), fun h hv => admNext' h (if_neg (Nat.not_le.mpr hv)) rfl rfl,
    fun h hd => admrNext' h (if_pos hd) rfl rfl⟩
  case store => exact ⟨evNext (mbDone_stores hr he hop).1, evNext (mbDone_stores hr he hop).2⟩
  case invalid => exact cryp_run (fun n => decide (9 < n)) ini s _ h (decide_eq_true ha) (crypGo_invalid (s := answer .ok s) hn ha)

end Sys2Proof.Machine
end

section
/-! SUPPORT. The update's confirmation and staging, and the resets, watchdog and supply of the module (R529-R551). -/
namespace Sys2Proof.Machine

section
variable {s : State}

/-! ### Option bytes, confirmation and staging -/

/-- The image that `OPT_NEW` describes (R529). -/
def optNewImage (s : State) : List Byte := (List.range 16).flatMap fun k => leBytes 4 (regN s .optb (0x0C0 + 4 * k))

/-- The option bytes that COMMIT writes: the new image with GEN one above, but for their CRC (R529). -/
def optNewBody (s : State) : List Byte :=
  ([0x47, 0x4F, 0x50, 0x54] : List Byte) ++ leBytes 4 ((if regF s .optb 0x040 5 4 = 2 then 0 else optGen s.opt) + 1) ++ ((optNewImage s).drop 8).take 52

/-- COMMIT of a valid image writes the copy not in use (R529). -/
theorem optCmdWrite_commits (h : optNewValid s (optNewImage s) = true) :
    optCmdWrite .ok 0x4F000001 s = memWrite (optAddr (regF s .optb 0x040 5 4 == 0)) (optNewBody s ++ leBytes 4 (crc32 (optNewBody s))) s := by
  have hcommit : optCmdWrite .ok 0x4F000001 s = optCommit .ok s := keyed_match (by decide) _ _
  have hvalid : ¬ (!optNewValid s (optNewImage s)) = true := by rw [h]; decide
  rw [hcommit, optCommit]
  exact if_neg hvalid

/-- HEALTHY of a trial (R537). -/
theorem updConfirmWrite_healthy (h : s.boot.st = 2) :
    updConfirmWrite .ok 0xC0000001 s =
      (let ret := s.boot.changed.foldl (fun m c => spPut (fun _ => {}) c (actOf s c) m) s.boot.ret
       let s1 := onBoot (fun b => { b with minSvn := max b.minSvn b.svn }) s
       let s2 := if 2 ≤ s.boot.trials then noteTransient .optb s1 else s1
       onBoot (fun b => { b with ret := ret, changed := [], staged := false, st := 3 }) { s2 with nand := nandCopied 2 s2.nand }) := by
  have hconfirm : updConfirmWrite .ok 0xC0000001 s = healthy .ok s := keyed_match (by decide) _ _
  rw [hconfirm, healthy]
  exact if_neg (not_not_intro h)

/-- STAGE outside a trial (R533). -/
theorem stageCmdWrite_stage (h : s.boot.st ≠ 2) : stageCmdWrite 0x53000001 s = onBoot (fun b => { b with staged := true, st := 1 }) s :=
  (keyed_match (by decide) _ _).trans (if_neg h)

/-- UNSTAGE outside a trial (R540). -/
theorem stageCmdWrite_unstage (h : s.boot.st ≠ 2) : stageCmdWrite 0x53000002 s = onBoot (fun b => { b with staged := false, st := 0 }) s :=
  (keyed_match (by decide) _ _).trans (if_neg h)

/-! ### Resets and supply -/

/-- The release of the last source brings the module up (R543). -/
theorem coreResetRelease_bringsUp (b : BootFacts) (ha : s.rst.active = true) (hn : s.rst.resetN = false) (ht : s.rst.tcxo = false)
    (hb : s.rst.backup = false) (hr : s.railsOn = true) :
    coreResetRelease b s =
      (let s1 := setRegB .oasis 0x040 8 false (reasonWrite s)
       let rst := { s1.rst with active := false, por := false, porReach := false, seen := 0, vin := true }
       let evr := { s1.evr with pcyc := if s.rst.porReach then (s1.evr.pcyc + 1) % 2 ^ 24 else s1.evr.pcyc }
       let s3 := setRegB .evr 0x044 0 true (setReg .memc 0x040 1 (pllBoot { s1 with tb := {}, rst := rst, evr := evr }))
       { metRestore (dfsApply (bootChain b (optRead (identRead b.identFails.val s3)))) with tb := {} }) := by
  unfold coreResetRelease
  dsimp only
  rw [if_neg (by rw [ha, hn, ht, hb, hr]; decide)]

/-- The key of WDT_KICK kicks for its processor (R544). -/
theorem wdtKick_kicks {ini : Ini} (h : ini.id.val < 9) : wdtKick ini 0x4B49434B s = setRegB .rstclk 0x048 (16 + ini.id.val) true s :=
  (if_pos rfl).trans (if_pos h)

/-- PWR_FAIL_N asserts: the module sheds its load and saves its state (R551). -/
theorem pwrFail_sheds (h : regB s .pwr 0x044 31 = false) :
    pwrFail s = (let s1 := setRegB .pwr 0x044 30 true (setRegB .pwr 0x044 31 true (bumpRegF .pwr 0x060 15 0 s))
      raiseIrq .pwr 3 (evrPowerFail (metPowerFail (dfsApply (used (setReg .pwr 0x05C (word (freeN s % 65536)) s1)))))) := by
  unfold pwrFail
  rw [if_neg (by rw [h]; decide)]

end

/-- Settles O36, command by command.  A watchdog period that ends with none unkicked starts a new one (DESIGN CHOICE, log 103); a second
trial that is confirmed counts as a transient fault (DESIGN CHOICE, log 114). -/
theorem updateAndResetCommandsComplete : Obligations.UpdateAndResetCommandsComplete := by
  intro s ini
  refine ⟨fun h hv => ?commit, fun h hst => admNext h (updConfirmWrite_healthy (s := answer .ok s) hst),
    fun h hst => ⟨admNext' h (stageCmdWrite_stage (s := answer .ok s) hst) rfl rfl, admNext' h (stageCmdWrite_unstage (s := answer .ok s) hst) rfl rfl⟩,
    evTb rfl, evNext' rfl rfl rfl, evTb rfl, evTb rfl, fun b ha hn ht hb hr => evTb (coreResetRelease_bringsUp b ha hn ht hb hr), evTb rfl,
    evNext' rfl (setRegB_pending ..) (setRegB_tb ..), fun h hi => ?kick, fun hu => evNext' (if_neg hu) (by simp) (by simp),
    fun ha => ⟨fun hu => ?period, fun hu => ?expiry, fun hst => ?window, fun hf => ?fails⟩, fun h => admTb h (if_pos rfl),
    fun hf => evNext (if_neg (by rw [hf]; decide))⟩
  case commit =>
    exact admNext' h (optCmdWrite_commits (s := answer .ok s) hv) ((memWrite_pending ..).trans (answer_pending ..)) ((memWrite_tb ..).trans (answer_tb ..))
  case kick => exact admNext' h (wdtKick_kicks (s := answer .ok s) hi) (setRegB_pending ..) (setRegB_tb ..)
  all_goals have hactive : ¬ s.rst.active = true := by rw [ha]; decide
  case period => exact (evTb ((if_neg hactive).trans (if_pos hu))).trans (doneTb_eq (setReg_pending ..))
  case expiry => exact evTb ((if_neg hactive).trans (if_neg hu))
  case window => exact evTb ((if_neg hactive).trans (if_pos hst))
  case fails => exact evNext ((if_neg hactive).trans (pwrFail_sheds hf))

end Sys2Proof.Machine
end

section
/-! SUPPORT. PLLs and synthesisers, IDLE, the thermal cap and AVS (R549-R558). -/
namespace Sys2Proof.Machine

section
variable {s : State}

/-! ### PLLs and the radios' synthesisers -/

/-- A PLL that is on loses its lock (R553). -/
theorem exec_pllUnlock {p : Fin 8} {again : Bool} (hp : p.val < 6) (ho : pllOn s p.val = true) :
    exec (.pllUnlock p again) s = done s (let s1 := raiseIrq .rstclk 1 (pllHold p.val true (setRegB .rstclk 0x050 p.val false s))
      if again then evrOffer .rstclk 0x0011 (leBytes 1 p.val)
        (onRst (fun r => { r with pllOff := r.pllOff ||| 2 ^ p.val, relock := r.relock &&& (63 - 2 ^ p.val) }) (setRegB .rstclk 0x050 (8 + p.val) false s1))
      else onRst (fun r => { r with relock := r.relock ||| 2 ^ p.val }) s1) :=
  congrArg (done s) ((if_neg (Nat.not_le.mpr hp)).trans (if_neg (by rw [ho]; decide)))

/-- A PLL that is on locks (R147, R153, R553). -/
theorem exec_pllLock {p : Fin 8} (hp : p.val < 6) (ho : pllOn s p.val = true) : exec (.pllLock p) s = done s (pllLock p.val s) :=
  congrArg (done s) ((if_neg (Nat.not_le.mpr hp)).trans (if_pos ho))

/-- The synthesiser of the radio in use loses its lock (R393, R553). -/
theorem rfUnlock_inUse {r : Fin 2} {again : Bool} (hm : crvMode s ≠ 0) (hr : crvRadio s = r.val) (ho : (rfOf s r.val).off = false)
    (he : enabled s (.rf r) = true) :
    rfUnlock r again s = (let s1 := raiseIrq (.rf r) 0 (putRf r.val { rfOf s r.val with unlocked := true, off := again } s)
      if again then evrOffer .rstclk 0x0011 (leBytes 1 (6 + r.val)) s1 else s1) := by
  unfold rfUnlock
  dsimp only
  rw [if_neg (by simp [hm, hr, ho, he])]

/-- A synthesiser locks again: a transient fault. -/
theorem rfLock_again {r : Fin 2} (hu : (rfOf s r.val).unlocked = true) (ho : (rfOf s r.val).off = false) :
    rfLock r s = noteTransient (.rf r) (putRf r.val { rfOf s r.val with unlocked := false } s) := if_pos (by rw [hu, ho]; rfl)

/-! ### IDLE -/

/-- IDLE with every application core in WFI, and lines whose periods last until the next poll (R549). -/
theorem pwrCmdWrite_idles {ini : Ini} (hi : ini.id.val < 4)
    (hl : ((lanternLines s).any fun n => decide (regF s (linePage n) 0x094 12 0 < 25 * regF s .pwr 0x040 25 16)) = false) :
    pwrCmdWrite ini 15 0x50000001 s = forEach unfix (lanternLines s) (setRegB .memc 0x040 3 true (setRegF .pwr 0x044 25 24 1 s)) := by
  have hcmd : (bit (0x50000001 : Word) 0 && decide (ini.id.val < 4)) = true := by rw [decide_eq_true hi]; decide
  have hline : ¬ ((lanternLines s).any fun n => decide (regF s (linePage n) 0x094 12 0 < 25 * regF s .pwr 0x040 25 16)) = true := by
    rw [hl]; decide
  refine (keyed_match (by decide) _ _).trans ((if_pos hcmd).trans ?_)
  unfold idleEnter
  rw [if_neg (by decide)]
  exact if_neg hline

/-! ### Thermal cap and AVS -/

/-- The cap that a temperature brings, with its hysteresis on the cap before (R555). -/
def thermCapAfter (was : Nat) (temp : Int) : Nat :=
  if 1250 < temp then 0 else if was = 0 ∧ 1200 < temp then 0 else if 1100 < temp then 1 else if was ≤ 1 ∧ 1050 < temp then 1 else 3

theorem thermCapAfter_eq (was : Nat) (temp : Int) :
    thermCapAfter was temp = if 1250 < temp || (was == 0 && decide (1200 < temp)) then 0
      else if 1100 < temp || (was ≤ 1 && decide (1050 < temp)) then 1 else 3 := by
  unfold thermCapAfter
  simp only [Bool.or_eq_true, Bool.and_eq_true, decide_eq_true_eq, beq_iff_eq]
  split_ifs <;> omega

/-- A temperature sets the cap, and the level in force follows (R555). -/
theorem thermRead_caps (temp : Int) :
    thermRead temp s = (let cap := thermCapAfter s.rst.therm temp
      let t := dfsApply (setReg .pwr 0x058 (word (unsigned 16 temp)) (onRst (fun r => { r with therm := cap }) s))
      if cap = s.rst.therm then t else raiseIrq .pwr 0 t) := by
  rw [thermCapAfter_eq]
  rfl

/-- The state after an AVS reading M that sets the rail's step and the count of readings above the window. -/
def avsPut (m step hi : Nat) (s : State) : State :=
  setRegF .pwr 0x054 5 0 step (onRst (fun r => { r with avsHi := hi, avsLo := 0 }) (setRegF .pwr 0x054 23 16 m s))

theorem avsPut_pending (m step hi : Nat) : (avsPut m step hi s).pending = s.pending := by simp [avsPut, onRst]

theorem avsPut_tb (m step hi : Nat) : (avsPut m step hi s).tb = s.tb := by simp [avsPut, onRst]

section
variable {m : Nat} (ha : regB s .pwr 0x050 31 = false)
include ha

/-- A reading within the window leaves the step (R556). -/
theorem avsTick_within (hlo : regF s .pwr 0x050 7 0 ≤ m) (hhi : m ≤ regF s .pwr 0x050 15 8) : avsTick m s = avsPut m (regF s .pwr 0x054 5 0) 0 s := by
  unfold avsTick
  dsimp only
  rw [if_neg (by rw [ha]; decide), if_neg (Nat.not_lt.mpr hlo), if_neg (Nat.not_lt.mpr hhi)]
  rfl

/-- A reading below the window raises the rail by a step (R556). -/
theorem avsTick_below (hlo : m < regF s .pwr 0x050 7 0) (hstep : regF s .pwr 0x054 5 0 < 50) :
    avsTick m s = avsPut m (regF s .pwr 0x054 5 0 + 1) 0 s := by
  unfold avsTick
  dsimp only
  rw [if_neg (by rw [ha]; decide), if_pos hlo, if_pos hstep]
  rfl

/-- The sixteenth reading in a row above the window lowers the rail by a step, not below its level's start (R556). -/
theorem avsTick_above (hlo : regF s .pwr 0x050 7 0 ≤ m) (hhi : regF s .pwr 0x050 15 8 < m) (hn : s.rst.avsHi = 15) :
    avsTick m s = avsPut m (max (startStep (regF s .pwr 0x04C 17 16)) (regF s .pwr 0x054 5 0 - 1)) 0 s := by
  unfold avsTick
  dsimp only
  rw [if_neg (by rw [ha]; decide), if_neg (Nat.not_lt.mpr hlo), if_pos hhi, if_neg (by rw [hn]; decide)]
  rfl

end
end

/-- Settles O37, command by command.  PLL 6 and 7 are the radios' synthesisers (PRESUMED, log 171); IDLE takes back the frames fixed and not
sent (DESIGN CHOICE, log 103); a lock regained is a transient fault (DESIGN CHOICE, log 114). -/
theorem clockAndPowerStateCommandsComplete : Obligations.ClockAndPowerStateCommandsComplete := by
  intro s ini v
  refine ⟨fun p hp ho => ⟨⟨?unlock, ?unlockLasting⟩, exec_pllLock hp ho⟩, fun p again hp => ⟨fun hm hr hoff he => ?radioUnlock, fun hu hoff => ?radioLock⟩,
    fun h hi hl => admNext h (pwrCmdWrite_idles (s := answer .ok s) hi hl), fun hi => ⟨evNext (if_pos hi), fun hirq => ?idleExit⟩,
    fun h => ⟨_, admNext h rfl, rfl⟩, fun temp => evNext (thermRead_caps temp),
    fun m ha => ⟨fun hlo hhi => evNext' (avsTick_within ha hlo hhi) (avsPut_pending ..) (avsPut_tb ..),
      fun hlo hstep => evNext' (avsTick_below ha hlo hstep) (avsPut_pending ..) (avsPut_tb ..),
      fun hlo hhi hn => evNext' (avsTick_above ha hlo hhi hn) (avsPut_pending ..) (avsPut_tb ..)⟩⟩
  case unlock => exact (exec_pllUnlock hp ho).trans (evNext' (if_neg (by decide)) (by simp [onRst, pllHold]) (by simp [onRst, pllHold]))
  case unlockLasting => exact (exec_pllUnlock hp ho).trans (evNext' (if_pos rfl) (by simp [evrOffer, onRst, pllHold]) (by simp [evrOffer, onRst, pllHold]))
  case radioUnlock =>
    have hnumber : 6 + (Fin.ofNat 2 p.val).val = p.val := by
      have := p.isLt
      simp only [Fin.ofNat]
      omega
    have hrun := rfUnlock_inUse (again := again) hm hr hoff he
    rw [hnumber] at hrun
    exact evNext' ((if_pos hp).trans hrun) (by cases again <;> simp [evrOffer, putRf, onCrv]) (by cases again <;> simp [evrOffer, putRf, onCrv])
  case radioLock => exact evNext' ((if_pos hp).trans (rfLock_again hu hoff)) (by simp [putRf, onCrv]) (by simp [putRf, onCrv])
  case idleExit => exact evNext' (if_pos (by rw [hi, hirq]; rfl)) (by simp) (by simp)

end Sys2Proof.Machine
end
